-- ==== Sys2Proof/Word.lean ====
section
/-! DEFINITION. The word types of the Voref 8 (00_scope R6, 01_machine R28): plain abbreviations, so that
the lemmas of BitVec apply. Everything computed from them stands in Sys2Proof/Machine. -/

namespace Sys2Proof

/-- A 64-bit scalar, address or control-register value. -/
abbrev Word := BitVec 64

/-- One byte of memory, or one predicate register. -/
abbrev Byte := BitVec 8

/-- One 32-bit syllable, header, lane or format descriptor. -/
abbrev Syl := BitVec 32

/-- One 256-bit vector register. -/
abbrev Vec := BitVec 256

end Sys2Proof
end

