-- ==== Sys2Proof/Config.lean ====
section
/-! DEFINITION. What the manual leaves open: constants with no body, so that nothing can be proved of their values.
`free` is the undefined value of R9 (log 4); the others stand for algorithms that outside standards define and for
random draws (log 12). -/

namespace Sys2Proof.Config

/-- An undefined value (R9), one for each draw number, place and index (log 4). -/
opaque free (draw place index : Nat) : BitVec 256

/-- The trust controller's random generator (R324, R330), one value for each draw (log 12). -/
opaque random (draw : Nat) : BitVec 512

/-- ML-KEM-1024 (FIPS 203): the encapsulation key made from a random draw, 1568 bytes (R330, log 12). -/
opaque mlkemKey (draw : Nat) : BitVec (8 * 1568)

/-- ML-KEM-1024 decapsulation of a ciphertext with the key made from a draw: the shared secret (R330, log 12). -/
opaque mlkemSecret (draw : Nat) (ct : List Byte) : BitVec 256

/-- The signature of XMSS-SHAKE256_20_256 over a digest with a one-time index, 2820 bytes (R333, log 12). -/
opaque xmssSign (index : Nat) (digest : BitVec 256) : BitVec (8 * 2820)

/-- The module's 68-byte XMSS public key (R333, log 12). -/
opaque xmssPublic : BitVec (8 * 68)

/-- The measurement of the module's firmware, FWM (R334, log 12). -/
opaque firmware : BitVec 256

/-- What a roster block says: the manual gives no layout (R384, log 12). Members, this device's index, a member's DEVID, and
the member at the far end of one of its links. -/
opaque rosterCount (roster : List Byte) : Nat
opaque rosterIndex (roster : List Byte) : Nat
opaque rosterDevid (roster : List Byte) (m : Nat) : BitVec 256
opaque rosterFar (roster : List Byte) (m link : Nat) : Option Nat

/-- What a read of a remote pod member answers (R200, log 14). -/
opaque remoteRead (draw member addr : Nat) : BitVec 256

/-- What a request flit asks of its destination (R200, R382): a read of n bytes and of the line's version, a write of n bytes, or an
atomic of a combiner code or 7 for cas, with `spc` also of the line's version; data as it travels (R327). -/
inductive RemoteReq where
  | read (world : Byte) (ia n : Nat)
  | write (world : Byte) (ia n : Nat) (data : List Byte)
  | atom (world : Byte) (ia code : Nat) (w64 spc : Bool) (operands : List Byte)
  deriving DecidableEq, Repr, Inhabited

/-- What the payload of a request flit asks, and the payload of the response that carries some data or a refusal: the manual
gives neither a layout (R382, log 14). -/
opaque flitReq (payload : List Byte) : Option RemoteReq
opaque flitAnswer (payload : List Byte) (data : Option (List Byte)) : BitVec (8 * 224)

/-- Bytes of a badger image section, as its first 64 bytes tell: the manual gives no layout (R212, log 13). -/
opaque badgerSize (head : List Byte) : Nat

/-- Does a badger core perform a load or store that is not aligned, within its partition? Else it raises an exception: RISC-V
leaves that to each core (R214, R215, log 118). -/
opaque badgerSplits : Bool

/-- The entry offset of a badger image for an event kind (R212, log 13). -/
opaque badgerEntry (image : List Byte) (kind : Nat) : Option Nat

/-- Expanded size and digest that a manifest gives for the i-th section it lists: the manual gives no layout (R84, log 12). -/
opaque manifestSize (manifest : List Byte) (i : Nat) : Nat
opaque manifestDigest (manifest : List Byte) (i : Nat) : BitVec 256

/-- The sensors of the sideband (R388): coolant temperature at the inlet and the outlet, the junctions of dies A and B, module
power, CLKNOW and DSTAT. -/
inductive Sensor where
  | inlet | outlet | junctionA | junctionB | power | clknow | dstat
  deriving DecidableEq, Repr, Inhabited

/-- What a sideband message asks (R388): a sensor's value, an update of the firmware with an image, or what MCTP control and
the rest of PLDM define. -/
inductive SidebandReq where
  | sensor (n : Sensor)
  | update (image : List Byte)
  | other
  deriving DecidableEq, Repr, Inhabited

/-- What a sideband message asks: the manual names the standards that lay it out (R388, log 12). -/
opaque sidebandReq (msg : List Byte) : SidebandReq

/-- What a sensor outside the module's state reads: the temperatures and the power (R388, log 12). -/
opaque sensorValue (draw : Nat) (n : Sensor) : BitVec 64

/-- The answer that carries a sensor's value, that tells whether an update is accepted, and any other (R388, log 12). -/
opaque sensorAnswer (msg : List Byte) (v : BitVec 64) : List Byte
opaque updateAnswer (msg : List Byte) (accepted : Bool) : List Byte
opaque sidebandAnswer (draw : Nat) (msg : List Byte) : List Byte

/-- Does a firmware image pass the check against the manufacturing root, and its measurement (R388, log 12). -/
opaque firmwareGood (image : List Byte) : Bool
opaque firmwareMeasure (image : List Byte) : BitVec 256

end Sys2Proof.Config
end

