-- ==== Sys2Proof/Syntax.lean ====
section
/-! DEFINITION. The syllables of Gweique and the steps of the module, one constructor of `Instr` for each row of
spec/opcode_table.json. A syllable's operands are its encoded fields (02_encoding R41 to R55), with type codes,
conditions, orderings and operation codes as constructors. A machine event carries the place it happens at, and
what comes from outside the module with it. -/

namespace Sys2Proof

/-- A register field as encoded; its range depends on the kind of register (R42) and is checked by WellFormed. -/
abbrev Reg := BitVec 6

/-- The B field of an operation with a scalar or vector second source: a register, or BIMM (field value 62, R39). -/
inductive Src where
  | reg (r : Reg)
  | bimm
  deriving DecidableEq, Repr, Inhabited

/-- ITYPE (R43). -/
inductive ITy where
  | i8 | i16 | i32 | i64 | n8 | n16 | n32 | n64
  deriving DecidableEq, Repr, Inhabited

/-- Condition of CMP (R43). -/
inductive Cond where
  | eq | ne | lt | le | gt | ge
  deriving DecidableEq, Repr, Inhabited

/-- Static type codes (R44). -/
inductive FTy where
  | narrow (k : BitVec 3)
  | bf16 | fp16 | fp32 | fp64 | int8
  deriving DecidableEq, Repr, Inhabited

/-- Rounding field of the F slot (R44, R90). -/
inductive Rm where
  | rne | rtz | rup | rdn
  deriving DecidableEq, Repr, Inhabited

/-- ORD field of the M form (R45). -/
inductive Ord where
  | unp | com | nor | qnt | spc | acq | rel | ar
  deriving DecidableEq, Repr, Inhabited

/-- Scope names (R52, R254). -/
inductive Scope where
  | ctx | core | clu | dev | pod
  deriving DecidableEq, Repr, Inhabited

/-- Control registers named by MFC and MTC (R50). -/
inductive CReg where
  | epc | estat | thv | slim | ftb | rqb | rqn | world | rngs | safeord
  deriving DecidableEq, Repr, Inhabited

/-- Sign selection of FSGN (R130). -/
inductive SgnOp where
  | copy | neg | xor
  deriving DecidableEq, Repr, Inhabited

/-- Condition of FCMP (R131). -/
inductive FCond where
  | eq | lt | le | un
  deriving DecidableEq, Repr, Inhabited

/-- Space tags of LEA (R49, R199). -/
inductive Space where
  | dev | spd | gsp | loc | rmt
  deriving DecidableEq, Repr, Inhabited

/-- Operation codes of VECOP (R190). -/
inductive VOp where
  | copy | add | sub | mul | axpy | max | min | scale | relu | exp2 | exp | log2 | rcp | rsqrt | rsum | rmax | srnd
  deriving DecidableEq, Repr, Inhabited

/-- Operation codes of COLL (R193). -/
inductive COp where
  | asum | rsum | amax | bcast | agath
  deriving DecidableEq, Repr, Inhabited

/-- What one rank outside this module contributes to a collective (R192 to R194): its rank, the contents of its
group record, its COUNT, CMD and result type, and the raw codes of its elements with their scale codes. -/
structure RemoteRank where
  rank   : Nat
  group  : List Word
  count  : Nat
  cmd    : Byte
  rtype  : BitVec 4
  elems  : List Word
  scales : List Byte
  failed : Bool
  deriving DecidableEq, Repr, Inhabited

/-- One row of spec/opcode_table.json each. -/
inductive Instr where
  -- Machine events: the places are numbered by R11 (core = d*128 + c*4 + k, cluster = d*32 + c, context g).
  /-- BUNDLE_ISSUE (R13): The core presents the next bundle of the context it chooses. -/
  | bundleIssue (core : Nat)
  /-- FATAL_STOP (R352): The fatal stop that context g has taken is carried out. -/
  | fatalStop (g : Nat)
  /-- RESULT_LAND (R19): The k-th unfinished operation of context g lands. -/
  | resultLand (g k : Nat)
  /-- BRANCH_RESOLVE (R146): The unresolved branch of context g resolves. -/
  | branchResolve (g : Nat)
  /-- ARM_STALL_TIMEOUT (R146): The stall on the predicted arm of context g has lasted 16 clocks. -/
  | armStallTimeout (g : Nat)
  /-- COMMIT_BUFFER_RELEASE (R182): The oldest released commit-buffer entry of the core is captured. -/
  | commitBufferRelease (core : Nat)
  /-- LEASE_GRANT (R159): The free lease of a cluster is granted. -/
  | leaseGrant (cl : Nat)
  /-- LEASE_RUN_LIMIT (R159): The run limit of the holder is acted on. -/
  | leaseRunLimit (cl : Nat)
  /-- LEASE_IDLE_PASS (R159): An idle holder loses the lease. -/
  | leaseIdlePass (cl : Nat)
  /-- TDT_DISPATCH (R180): The k-th command of the core's tile dependency table starts. -/
  | tdtDispatch (core k : Nat)
  /-- ENGINE_COMMAND_COMPLETE (R178): The oldest matrix-queue (or vector-engine) command completes. -/
  | engineCommandComplete (cl : Nat) (vec : Bool)
  /-- COPY_START (R247): The k-th command of the table, a copy, enters the scoreboard and starts. -/
  | copyStart (core k : Nat)
  /-- COPY_COMPLETE (R245): The k-th command of the table, a started copy, finishes. -/
  | copyComplete (core k : Nat)
  /-- COLL_COMPLETE (R195): The collective of this SEQ ends; what ranks outside the module contribute comes with it. -/
  | collComplete (seq : Word) (remote : List RemoteRank)
  /-- IFILL_COMPLETE (R249): The oldest instruction fill of the core finishes. -/
  | ifillComplete (core : Nat)
  /-- SLICE_LINE_FILL (R208): The k-th sector fill the slice waits for completes. -/
  | sliceLineFill (slice k : Nat)
  /-- WRITE_TRANSACTION (R208): The k-th line of the core's L1 is evicted and its dirty bytes are performed at home. -/
  | writeTransaction (core k : Nat)
  /-- MWAIT_TIMEOUT (R239): The timeout of the monitor of context g runs out. -/
  | mwaitTimeout (g : Nat)
  /-- MWAIT_SPURIOUS_WAKE (R239): A spurious event wakes the monitor of context g. -/
  | mwaitSpuriousWake (g : Nat)
  /-- LDF_PERFORM (R210): The k-th LDF of context g reaches its home slice. -/
  | ldfPerform (g k : Nat)
  /-- FUTURE_ANSWER (R235): The answer of the k-th LDF of context g lands. -/
  | futureAnswer (g k : Nat)
  /-- FWAIT_BACKOFF_EXPIRE (R311): The back-off of the FWAIT of context g runs out. -/
  | fwaitBackoffExpire (g : Nat)
  /-- QNT_FLUSH_FULL (R234): The k-th near-combiner entry, holding 64 operations, is flushed. -/
  | qntFlushFull (cl k : Nat)
  /-- QNT_FLUSH_TIMEOUT (R234): The k-th near-combiner entry, open 4096 clocks, is flushed. -/
  | qntFlushTimeout (cl k : Nat)
  /-- BADGER_MSG_ARRIVE (R213): The oldest message on its way to the slice arrives. -/
  | badgerMsgArrive (slice : Nat)
  /-- BADGER_HANDLER_START (R214): The badger core takes its next event. -/
  | badgerHandlerStart (slice : Nat)
  /-- BADGER_PFETCH (R214): The handler writes PFETCH. -/
  | badgerPfetch (slice : Nat) (ia : Word)
  /-- BADGER_RDATA (R214): The handler reads RDATA with RADDR = addr. -/
  | badgerRdata (slice : Nat) (addr : Word)
  /-- BADGER_WDATA (R214): The handler writes WDATA with WADDR = addr. -/
  | badgerWdata (slice : Nat) (addr val : Word)
  /-- BADGER_DONE (R214): The handler writes DONE, having written REPLY or not. -/
  | badgerDone (slice : Nat) (reply : Option Word)
  /-- BADGER_BUDGET_EXPIRE (R215): The handler's budget of 2048 badger clocks runs out. -/
  | badgerBudgetExpire (slice : Nat)
  /-- BADGER_ABORT (R215): The handler raises an exception or leaves its partition. -/
  | badgerAbort (slice : Nat)
  /-- HBM_REFRESH (R220): A refresh of the bank falls due. -/
  | hbmRefresh (ctrl bank : Nat)
  /-- HBM_FORCED_REFRESH (R220): A ninth due refresh forces an all-bank refresh lasting so many clocks. -/
  | hbmForcedRefresh (ctrl bank clocks : Nat)
  /-- ECC_UNCORRECTABLE (R219): An uncorrectable error strikes the sector of ia, in the L2 copy alone or in memory. -/
  | eccUncorrectable (ia : Nat) (inMemory : Bool)
  /-- TINV (R323): The host writes TINVLEN. -/
  | tinv (len : Word)
  /-- TINV_COMPLETE (R323): The TINV in progress completes. -/
  | tinvComplete
  /-- QTAIL_DOORBELL (R274): The host writes QTAIL of queue q. -/
  | qtailDoorbell (q : Nat) (v : Word)
  /-- QUEUE_ENTRY_READ (R275): The die's command unit reads the entry of the queue it serves next. -/
  | queueEntryRead (die : Nat)
  /-- LAUNCH (R280): The LAUNCH accepted last on queue q is tested and waits for placement. -/
  | launch (q : Nat)
  /-- WAIT (R275): The WAIT at the head of queue q starts. -/
  | wait (q : Nat)
  /-- WAIT_RETIRE (R275): The started WAIT of queue q reads its word. -/
  | waitRetire (q : Nat)
  /-- SIGNAL (R275): The SIGNAL at the head of queue q stores its value. -/
  | signal (q : Nat)
  /-- COPY (R275): The COPY at the head of queue q starts. -/
  | copy (q : Nat)
  /-- COPY_COMMAND_COMPLETE (R275): The started COPY of queue q finishes. -/
  | copyCommandComplete (q : Nat)
  /-- MARK (R275): The MARK at the head of queue q retires. -/
  | mark (q : Nat)
  /-- LAUNCH_RESERVING (R284): A LAUNCH unplaced for AGEB clocks becomes reserving. -/
  | launchReserving (gid : Nat)
  /-- GANG_PLACE (R282): The gang is placed and started. -/
  | gangPlace (gid : Nat)
  /-- GANG_RETIRE (R285): The gang retires. -/
  | gangRetire (gid : Nat)
  /-- PREEMPT (R353): The host writes PREEMPT. -/
  | preempt (ia : Word)
  /-- CONTEXT_DRAIN (R354): Context g of the gang being pre-empted diverts. -/
  | contextDrain (g : Nat)
  /-- CREW_SAVE (R355): Crew j of the drained gang is saved. -/
  | crewSave (gid j : Nat)
  /-- GANG_RESTORE (R356): A saved gang is placed again. -/
  | gangRestore (gid : Nat)
  /-- FUNCTION_LEVEL_RESET (R377): VF vf is reset. -/
  | functionLevelReset (vf : Nat)
  /-- SLOT_TABLE_TURN (R290): A new slot of the tenant slot table begins. -/
  | slotTableTurn
  /-- CNT_SAMPLE (R371): Counter n of the cluster has wrapped and samples its bundle. -/
  | cntSample (cl n : Nat)
  /-- SAMPLE_BREAKDOWN (R372): The sampled request of counter n lands with these clocks. -/
  | sampleBreakdown (cl n : Nat) (total : BitVec 32) (stages : List (BitVec 16))
  /-- POWER_ON_RESET (R380): Power-on or a fundamental reset. -/
  | powerOnReset
  /-- BRINGUP_STAGE_DONE (R380): The bring-up stage ends; mask tells links up (stage 4) or clusters failed (stage 5). -/
  | bringupStageDone (ok : Bool) (mask : BitVec 64)
  /-- THROTTLE (R387): Power or temperature lowers the clock by a step. -/
  | throttle
  /-- THROTTLE_RELEASE (R387): The clock is raised by a step. -/
  | throttleRelease
  /-- THERMAL_TRIP (R387): A junction at 110 degrees halts the module. -/
  | thermalTrip
  /-- FLIT_RECEIVE (R383): A flit arrives on a link. -/
  | flitReceive (link : Nat) (flit : List Byte)
  /-- LINK_RETRAIN (R383): A link retrains after 8 replays. -/
  | linkRetrain (link : Nat)
  /-- LINK_RETRAIN_DONE (R383): Retraining ends. -/
  | linkRetrainDone (link : Nat) (ok : Bool)
  /-- FORM (R384): The host writes FORM; for each link, the far DEVID and shared secret its exchange gave. -/
  | form (partners : List (Option (BitVec 256 × BitVec 256)))
  /-- KEY_NONCE_REQUEST (R330): The host sends a nonce to the trust controller. -/
  | keyNonceRequest (nonce : BitVec 256)
  /-- KEY_DELIVERY (R330): The host sends a key delivery block. -/
  | keyDelivery (block : List Byte)
  /-- EVIDENCE_REQUEST (R335): The host asks for pod evidence; these members answer within 1 s. -/
  | evidenceRequest (w : Byte) (nonce : BitVec 256) (answers : List (Nat × List Byte))
  /-- EVIDENCE_TIMEOUT (R335): A member has been silent for 1 s. -/
  | evidenceTimeout (member : Nat)
  /-- WORLD_RELEASE (R324): The host releases a world. -/
  | worldRelease (w : Byte)
  /-- CFENCE_WRITE (R386): The host writes CFENCE. -/
  | cfenceWrite (v : Word)
  /-- SIDEBAND_MESSAGE (R388): An MCTP message arrives on the sideband. -/
  | sidebandMessage (msg : List Byte)
  /-- REGISTER_WRITE (R375): The PF (none) or a VF writes a management register. -/
  | registerWrite (fn : Option Nat) (off size : Nat) (v : Word)
  /-- UNCORRECTABLE_HARDWARE_ERROR (R288): A core suffers an uncorrectable hardware error. -/
  | uncorrectableHardwareError (core : Nat)
  /-- POWER_LOSS (R333): The module loses power. -/
  | powerLoss
  -- The NOP bundle and the C slot (R35, R48).
  /-- NOP (R35). -/
  | nop (stop gn : Bool) (gp : Reg) (hint : BitVec 4) (bimm : BitVec 12)
  /-- PT (R141). -/
  | pt (bt : BitVec 2) (off : BitVec 22)
  /-- PTR (R141). -/
  | ptr (bt : BitVec 2) (a : Reg)
  /-- BR (R145). -/
  | br (bt : BitVec 2) (arm neg : Bool) (p : Reg)
  /-- CALL (R148). -/
  | call (bt : BitVec 2)
  /-- CALLT (R149). -/
  | callt (a : Reg) (sig : BitVec 12)
  /-- RET (R150). -/
  | ret
  /-- LOOP (R151). -/
  | loop (len : BitVec 4) (depth : BitVec 3)
  /-- BSWAP (R153). -/
  | bswap (bt : BitVec 2)
  /-- IFENCE (R154). -/
  | ifence
  /-- TRAP (R357). -/
  | trap (code : BitVec 12)
  /-- RESUME (R349). -/
  | resume
  /-- YIELD (R155). -/
  | yield
  /-- EXIT (R156). -/
  | exit
  /-- ADD (R113). -/
  | add (d a : Reg) (b : Src) (t : ITy)
  /-- SUB (R113). -/
  | sub (d a : Reg) (b : Src) (t : ITy)
  /-- MUL (R113). -/
  | mul (d a : Reg) (b : Src) (t : ITy)
  /-- MULH (R113). -/
  | mulh (d a : Reg) (b : Src) (t : ITy)
  /-- DIV (R113). -/
  | div (d a : Reg) (b : Src) (t : ITy)
  /-- REM (R113). -/
  | rem (d a : Reg) (b : Src) (t : ITy)
  /-- AND (R113). -/
  | and (d a : Reg) (b : Src) (t : ITy)
  /-- OR (R113). -/
  | or (d a : Reg) (b : Src) (t : ITy)
  /-- XOR (R113). -/
  | xor (d a : Reg) (b : Src) (t : ITy)
  /-- ANDN (R113). -/
  | andn (d a : Reg) (b : Src) (t : ITy)
  /-- SHL (R113). -/
  | shl (d a : Reg) (b : Src) (t : ITy)
  /-- SHR (R113). -/
  | shr (d a : Reg) (b : Src) (t : ITy)
  /-- SAR (R113). -/
  | sar (d a : Reg) (b : Src) (t : ITy)
  /-- MIN (R113). -/
  | min (d a : Reg) (b : Src) (t : ITy)
  /-- MAX (R113). -/
  | max (d a : Reg) (b : Src) (t : ITy)
  /-- SEL (R119). -/
  | sel (d a : Reg) (b : Src) (p : Reg)
  /-- CLZ (R115). -/
  | clz (d a : Reg) (t : ITy)
  /-- POPC (R115). -/
  | popc (d a : Reg) (t : ITy)
  /-- EXT (R116). -/
  | ext (d a : Reg) (len1 pos : BitVec 6)
  /-- INS (R116). -/
  | ins (d a : Reg) (len1 pos : BitVec 6)
  /-- MOV (R117). -/
  | mov (d : Reg) (b : Src) (t : ITy)
  /-- MOVH (R117). -/
  | movh (d a : Reg) (imm : BitVec 12)
  /-- LEA (R118). -/
  | lea (d a : Reg) (b : Src) (sp : Space) (sh : BitVec 2)
  /-- CMP (R121). -/
  | cmp (d a : Reg) (b : Src) (t : ITy) (c : Cond)
  /-- PAND (R122). -/
  | pand (d a b : Reg)
  /-- POR (R122). -/
  | por (d a b : Reg)
  /-- PXOR (R122). -/
  | pxor (d a b : Reg)
  /-- PNOT (R122). -/
  | pnot (d a : Reg)
  /-- PMOV (R122). -/
  | pmov (d a : Reg)
  /-- PANY (R123). -/
  | pany (d a : Reg)
  /-- PALL (R123). -/
  | pall (d a : Reg)
  /-- PPACK (R124). -/
  | ppack (d a : Reg)
  /-- ADD_RI (R114). -/
  | addRi (d a : Reg) (imm : BitVec 12)
  /-- AND_RI (R114). -/
  | andRi (d a : Reg) (imm : BitVec 12)
  /-- OR_RI (R114). -/
  | orRi (d a : Reg) (imm : BitVec 12)
  /-- XOR_RI (R114). -/
  | xorRi (d a : Reg) (imm : BitVec 12)
  /-- SHL_RI (R114). -/
  | shlRi (d a : Reg) (cnt : BitVec 6)
  /-- SHR_RI (R114). -/
  | shrRi (d a : Reg) (cnt : BitVec 6)
  /-- SAR_RI (R114). -/
  | sarRi (d a : Reg) (cnt : BitVec 6)
  /-- PUNPK (R124). -/
  | punpk (d a : Reg)
  /-- MFC (R125). -/
  | mfc (d : Reg) (r : CReg)
  /-- MTC (R126). -/
  | mtc (a : Reg) (r : CReg)
  /-- ICVT (R120). -/
  | icvt (d a : Reg) (dt st : ITy)
  /-- WINSET (R336). -/
  | winset (d a : Reg) (b : Src) (part : Bool)
  /-- LD_I8 (R225). -/
  | ldI8 (d a : Reg) (off : Byte) (o : Ord)
  /-- LD_I16 (R225). -/
  | ldI16 (d a : Reg) (off : Byte) (o : Ord)
  /-- LD_I32 (R225). -/
  | ldI32 (d a : Reg) (off : Byte) (o : Ord)
  /-- LD_I64 (R225). -/
  | ldI64 (d a : Reg) (off : Byte) (o : Ord)
  /-- LD_N8 (R225). -/
  | ldN8 (d a : Reg) (off : Byte) (o : Ord)
  /-- LD_N16 (R225). -/
  | ldN16 (d a : Reg) (off : Byte) (o : Ord)
  /-- LD_N32 (R225). -/
  | ldN32 (d a : Reg) (off : Byte) (o : Ord)
  /-- LDVEC (R225). -/
  | ldvec (d a : Reg) (off : Byte) (o : Ord)
  /-- LDV (R227). -/
  | ldv (d a : Reg) (off : Byte) (o : Ord)
  /-- LDF (R235). -/
  | ldf (d a : Reg) (off : Byte)
  /-- VGET (R230). -/
  | vget (d a : Reg) (off : Byte)
  /-- PROBE (R240). -/
  | probe (d a : Reg) (off : Byte)
  /-- PFT (R241). -/
  | pft (d a : Reg) (off : Byte)
  /-- MWAIT (R239). -/
  | mwait (d a : Reg) (off : Byte)
  /-- ST_8 (R226). -/
  | st8 (d a : Reg) (off : Byte) (o : Ord)
  /-- ST_16 (R226). -/
  | st16 (d a : Reg) (off : Byte) (o : Ord)
  /-- ST_32 (R226). -/
  | st32 (d a : Reg) (off : Byte) (o : Ord)
  /-- ST_64 (R226). -/
  | st64 (d a : Reg) (off : Byte) (o : Ord)
  /-- STVEC (R226). -/
  | stvec (d a : Reg) (off : Byte) (o : Ord)
  /-- STF (R236). -/
  | stf (d a : Reg) (off : Byte)
  /-- CASV (R231). -/
  | casv (d a : Reg) (off : Byte) (o : Ord)
  /-- REL (R237). -/
  | rel (d a : Reg) (off : Byte)
  /-- ATOM_ADD (R232). -/
  | atomAdd (d a : Reg) (off : Byte) (o : Ord)
  /-- ATOM_MIN (R232). -/
  | atomMin (d a : Reg) (off : Byte) (o : Ord)
  /-- ATOM_MAX (R232). -/
  | atomMax (d a : Reg) (off : Byte) (o : Ord)
  /-- ATOM_AND (R232). -/
  | atomAnd (d a : Reg) (off : Byte) (o : Ord)
  /-- ATOM_OR (R232). -/
  | atomOr (d a : Reg) (off : Byte) (o : Ord)
  /-- ATOM_XOR (R232). -/
  | atomXor (d a : Reg) (off : Byte) (o : Ord)
  /-- ATOM_XCHG (R232). -/
  | atomXchg (d a : Reg) (off : Byte) (o : Ord)
  /-- ATOM_CAS (R232). -/
  | atomCas (d a : Reg) (off : Byte) (o : Ord)
  /-- ATOM_ADD_I32 (R232). -/
  | atomAddI32 (d a : Reg) (off : Byte) (o : Ord)
  /-- ATOM_MIN_I32 (R232). -/
  | atomMinI32 (d a : Reg) (off : Byte) (o : Ord)
  /-- ATOM_MAX_I32 (R232). -/
  | atomMaxI32 (d a : Reg) (off : Byte) (o : Ord)
  /-- ATOM_AND_I32 (R232). -/
  | atomAndI32 (d a : Reg) (off : Byte) (o : Ord)
  /-- ATOM_OR_I32 (R232). -/
  | atomOrI32 (d a : Reg) (off : Byte) (o : Ord)
  /-- ATOM_XOR_I32 (R232). -/
  | atomXorI32 (d a : Reg) (off : Byte) (o : Ord)
  /-- ATOM_XCHG_I32 (R232). -/
  | atomXchgI32 (d a : Reg) (off : Byte) (o : Ord)
  /-- ATOM_CAS_I32 (R232). -/
  | atomCasI32 (d a : Reg) (off : Byte) (o : Ord)
  /-- FENCE (R238). -/
  | fence (sc : Scope)
  /-- VALSET (R228). -/
  | valset (d : Reg)
  /-- VCLR (R228). -/
  | vclr
  /-- FADD (R128). -/
  | fadd (d a : Reg) (b : Src) (t : FTy) (m : Rm)
  /-- FSUB (R128). -/
  | fsub (d a : Reg) (b : Src) (t : FTy) (m : Rm)
  /-- FMUL (R128). -/
  | fmul (d a : Reg) (b : Src) (t : FTy) (m : Rm)
  /-- FFMA (R128). -/
  | ffma (d a : Reg) (b : Src) (t : FTy) (m : Rm)
  /-- FMIN (R129). -/
  | fmin (d a : Reg) (b : Src) (t : FTy)
  /-- FMAX (R129). -/
  | fmax (d a : Reg) (b : Src) (t : FTy)
  /-- FSGN (R130). -/
  | fsgn (d a : Reg) (b : Src) (t : FTy) (g : SgnOp)
  /-- FCMP (R131). -/
  | fcmp (d a : Reg) (b : Src) (t : FTy) (c : FCond)
  /-- FRCP (R132). -/
  | frcp (d a : Reg) (m : Rm)
  /-- FRSQ (R132). -/
  | frsq (d a : Reg) (m : Rm)
  /-- FEXP2 (R132). -/
  | fexp2 (d a : Reg) (m : Rm)
  /-- FLOG2 (R132). -/
  | flog2 (d a : Reg) (m : Rm)
  /-- FCVT (R133). -/
  | fcvt (d a : Reg) (srnd : Bool) (st dt : FTy) (m : Rm)
  /-- FCVTI (R134). -/
  | fcvti (d a : Reg) (i : ITy) (t : FTy) (m : Rm)
  /-- ICVTF (R134). -/
  | icvtf (d a : Reg) (i : ITy) (t : FTy) (m : Rm)
  /-- VADD (R136). -/
  | vadd (d a : Reg) (b : Src) (t : FTy) (m : Rm)
  /-- VMUL (R136). -/
  | vmul (d a : Reg) (b : Src) (t : FTy) (m : Rm)
  /-- VAND (R137). -/
  | vand (d a : Reg) (b : Src)
  /-- VOR (R137). -/
  | vor (d a : Reg) (b : Src)
  /-- VSHF (R137). -/
  | vshf (d a : Reg) (b : Src)
  /-- VBCAST (R137). -/
  | vbcast (d a : Reg)
  /-- VREDADD (R138). -/
  | vredadd (d a : Reg) (t : FTy) (m : Rm)
  /-- VREDMAX (R138). -/
  | vredmax (d a : Reg) (t : FTy)
  /-- VSEL (R137). -/
  | vsel (d a : Reg) (b : Src) (p : Reg)
  /-- VPACK (R139). -/
  | vpack (d a : Reg) (b : Src) (t : FTy) (m : Rm)
  /-- VUNPK (R139). -/
  | vunpk (d a : Reg) (t : FTy) (k : BitVec 2)
  /-- VLANE (R137). -/
  | vlane (d a : Reg) (b : Src)
  /-- VINS (R137). -/
  | vins (d a : Reg) (b : Src)
  /-- VFMA (R136). -/
  | vfma (d a : Reg) (b : Src) (t : FTy) (m : Rm)
  /-- ERW (R175). -/
  | erw (e : BitVec 4) (a : Reg) (b : Src) (n : Reg)
  /-- ERD (R176). -/
  | erd (e : BitVec 4) (a : Reg) (n : Reg)
  /-- MLEASE (R185). -/
  | mlease
  /-- MFREE (R185). -/
  | mfree
  /-- MMA (R186). -/
  | mma (x y : FTy)
  /-- MMAS (R186). -/
  | mmas (x y : FTy)
  /-- MGATH (R187). -/
  | mgath (t : FTy)
  /-- ACCRD (R188). -/
  | accrd (t : FTy)
  /-- ACCWR (R188). -/
  | accwr (t : FTy)
  /-- ACCZ (R188). -/
  | accz
  /-- VECOP (R190). -/
  | vecop (o : VOp)
  /-- CPY (R245). -/
  | cpy
  /-- CPYD (R246). -/
  | cpyd
  /-- IFILL (R248). -/
  | ifill
  /-- COLL (R193). -/
  | coll (t : FTy) (o : COp)
  /-- TLWAIT (R299). -/
  | tlwait (e : BitVec 4) (a : Reg) (b : Src)
  /-- TLREAD (R300). -/
  | tlread (e : BitVec 4) (a : Reg)
  /-- PHREG (R302). -/
  | phreg (a : Reg)
  /-- PHDROP (R304). -/
  | phdrop (a : Reg)
  /-- PHSIG (R303). -/
  | phsig (a : Reg)
  /-- PHWAIT (R304). -/
  | phwait (a : Reg) (b : Src)
  /-- PHSW (R303). -/
  | phsw (a : Reg)
  /-- BIND (R305). -/
  | bind (a : Reg) (b : Src)
  /-- UNBIND (R306). -/
  | unbind (a : Reg) (b : Src)
  /-- TKGET (R309). -/
  | tkget (a : Reg)
  /-- TKDONE (R310). -/
  | tkdone
  /-- FWAIT (R311). -/
  | fwait (a : Reg)
  /-- BMSG (R250). -/
  | bmsg
  /-- CBSYNC (R313). -/
  | cbsync (a : Reg) (b : Src)
  /-- QLD (R196). -/
  | qld (q : BitVec 4) (a : Reg) (imm : BitVec 12)
  /-- QMOV (R197). -/
  | qmov (q : BitVec 4) (a : Reg)
  /-- QSET (R197). -/
  | qset (q : BitVec 4) (c : Byte)
  /-- FMTSET (R198). -/
  | fmtset (f : BitVec 4) (a : Reg)
  deriving DecidableEq, Repr, Inhabited

end Sys2Proof
end

