-- ==== Sys2Proof/WellFormed.lean ====
section
/-! DEFINITION. Well-formed instructions: the register ranges of R42, the field values that the map rows of R48 to
R55 accept, and the places of R11 for machine events. `Instr.regsOk` is reason 3 of R57, `Instr.valsOk` reason 5 (and
6 for the header of a NOP bundle). -/

namespace Sys2Proof

/-- A scalar or vector register field (R42). -/
def Reg.isS (r : Reg) : Bool := decide (r.toNat < 32)

/-- A predicate field (R42). -/
def Reg.isP (r : Reg) : Bool := decide (r.toNat < 48)

/-- The even member of a register pair (R42). -/
def Reg.isPair (r : Reg) : Bool := decide (r.toNat < 32) && decide (r.toNat % 2 = 0)

/-- A window or format register field (R42). -/
def Reg.is8 (r : Reg) : Bool := decide (r.toNat < 8)

/-- A predicate that PPACK and PUNPK accept (R49). -/
def Reg.isP8 (r : Reg) : Bool := decide (r.toNat % 8 = 0)

/-- A B field that names a scalar or vector register, or BIMM (R39, R42). -/
def Src.ok : Src → Bool
  | .reg r => r.isS
  | .bimm => true

/-- Type codes 0x8 to 0xB (R53). -/
def FTy.isScalar : FTy → Bool
  | .bf16 | .fp16 | .fp32 | .fp64 => true
  | .narrow _ | .int8 => false

/-- Type codes 0x8 to 0xA (R53). -/
def FTy.isLane : FTy → Bool
  | .bf16 | .fp16 | .fp32 => true
  | .fp64 | .narrow _ | .int8 => false

/-- Type codes 0x0 to 0x9 (R53). -/
def FTy.isPackable : FTy → Bool
  | .narrow _ | .bf16 | .fp16 => true
  | .fp32 | .fp64 | .int8 => false

/-- Type codes 0x0 to 0xB (R53). -/
def FTy.isFloat : FTy → Bool
  | .int8 => false
  | .narrow _ | .bf16 | .fp16 | .fp32 | .fp64 => true

/-- The orderings of a plain load (R51). -/
def Ord.isLoad : Ord → Bool
  | .unp | .acq => true
  | .com | .nor | .qnt | .spc | .rel | .ar => false

/-- The orderings of a plain store (R52). -/
def Ord.isStore : Ord → Bool
  | .unp | .rel => true
  | .com | .nor | .qnt | .spc | .acq | .ar => false

/-- The orderings of CASV (R52). -/
def Ord.isCasv : Ord → Bool
  | .unp | .acq | .rel | .ar => true
  | .com | .nor | .qnt | .spc => false

/-- The operand pairs of MMA and MMAS (R163, R186). -/
def mmaPair : FTy → FTy → Bool
  | .narrow _, .narrow _ => true
  | .bf16, .bf16 | .fp16, .fp16 | .fp32, .fp32 | .fp64, .fp64 | .int8, .int8 => true
  | _, _ => false

/-- The source types that each row of COLL accepts (R193). -/
def collType : FTy → COp → Bool
  | .narrow _, .asum | .bf16, .asum | .fp32, .asum => true
  | .narrow _, .rsum | .bf16, .rsum | .fp32, .rsum => true
  | .bf16, .amax | .fp16, .amax | .fp32, .amax | .fp64, .amax => true
  | _, .bcast | _, .agath => true
  | _, _ => false

/-- An ATOM's data field: a register pair for .spc (R52). -/
def atomReg (d : Reg) : Ord → Bool
  | .spc => d.isPair
  | _ => d.isS

/-- Every register field lies in the range of its kind and a pair field is even (R42). -/
def Instr.regsOk : Instr → Bool
  | .bundleIssue _ => true
  | .fatalStop _ => true
  | .resultLand _ _ => true
  | .branchResolve _ => true
  | .armStallTimeout _ => true
  | .commitBufferRelease _ => true
  | .leaseGrant _ => true
  | .leaseRunLimit _ => true
  | .leaseIdlePass _ => true
  | .tdtDispatch _ _ => true
  | .engineCommandComplete _ _ => true
  | .copyStart _ _ => true
  | .copyComplete _ _ => true
  | .collComplete _ _ => true
  | .ifillComplete _ => true
  | .sliceLineFill _ _ => true
  | .writeTransaction _ _ => true
  | .mwaitTimeout _ => true
  | .mwaitSpuriousWake _ => true
  | .ldfPerform _ _ => true
  | .futureAnswer _ _ => true
  | .fwaitBackoffExpire _ => true
  | .qntFlushFull _ _ => true
  | .qntFlushTimeout _ _ => true
  | .badgerMsgArrive _ => true
  | .badgerHandlerStart _ => true
  | .badgerPfetch _ _ => true
  | .badgerRdata _ _ => true
  | .badgerWdata _ _ _ => true
  | .badgerDone _ _ => true
  | .badgerBudgetExpire _ => true
  | .badgerAbort _ => true
  | .hbmRefresh _ _ => true
  | .hbmForcedRefresh _ _ _ => true
  | .eccUncorrectable _ _ => true
  | .tinv _ => true
  | .tinvComplete => true
  | .qtailDoorbell _ _ => true
  | .queueEntryRead _ => true
  | .launch _ => true
  | .wait _ => true
  | .waitRetire _ => true
  | .signal _ => true
  | .copy _ => true
  | .copyCommandComplete _ => true
  | .mark _ => true
  | .launchReserving _ => true
  | .gangPlace _ => true
  | .gangRetire _ => true
  | .preempt _ => true
  | .contextDrain _ => true
  | .crewSave _ _ => true
  | .gangRestore _ => true
  | .functionLevelReset _ => true
  | .slotTableTurn => true
  | .cntSample _ _ => true
  | .sampleBreakdown _ _ _ _ => true
  | .powerOnReset => true
  | .bringupStageDone _ _ => true
  | .throttle => true
  | .throttleRelease => true
  | .thermalTrip => true
  | .flitReceive _ _ => true
  | .linkRetrain _ => true
  | .linkRetrainDone _ _ => true
  | .form _ => true
  | .keyNonceRequest _ => true
  | .keyDelivery _ => true
  | .evidenceRequest _ _ _ => true
  | .evidenceTimeout _ => true
  | .worldRelease _ => true
  | .cfenceWrite _ => true
  | .sidebandMessage _ => true
  | .registerWrite _ _ _ _ => true
  | .uncorrectableHardwareError _ => true
  | .powerLoss => true
  | .nop _ _ _ _ _ => true
  | .pt _ _ => true
  | .ptr _ a => a.isS
  | .br _ _ _ p => p.isP
  | .call _ => true
  | .callt a _ => a.isS
  | .ret => true
  | .loop _ _ => true
  | .bswap _ => true
  | .ifence => true
  | .trap _ => true
  | .resume => true
  | .yield => true
  | .exit => true
  | .add d a b _ => d.isS && a.isS && b.ok
  | .sub d a b _ => d.isS && a.isS && b.ok
  | .mul d a b _ => d.isS && a.isS && b.ok
  | .mulh d a b _ => d.isS && a.isS && b.ok
  | .div d a b _ => d.isS && a.isS && b.ok
  | .rem d a b _ => d.isS && a.isS && b.ok
  | .and d a b _ => d.isS && a.isS && b.ok
  | .or d a b _ => d.isS && a.isS && b.ok
  | .xor d a b _ => d.isS && a.isS && b.ok
  | .andn d a b _ => d.isS && a.isS && b.ok
  | .shl d a b _ => d.isS && a.isS && b.ok
  | .shr d a b _ => d.isS && a.isS && b.ok
  | .sar d a b _ => d.isS && a.isS && b.ok
  | .min d a b _ => d.isS && a.isS && b.ok
  | .max d a b _ => d.isS && a.isS && b.ok
  | .sel d a b p => d.isS && a.isS && b.ok && p.isP
  | .clz d a _ => d.isS && a.isS
  | .popc d a _ => d.isS && a.isS
  | .ext d a _ _ => d.isS && a.isS
  | .ins d a _ _ => d.isS && a.isS
  | .mov d b _ => d.isS && b.ok
  | .movh d a _ => d.isS && a.isS
  | .lea d a b _ _ => d.isS && a.isS && b.ok
  | .cmp d a b _ _ => d.isP && a.isS && b.ok
  | .pand d a b => d.isP && a.isP && b.isP
  | .por d a b => d.isP && a.isP && b.isP
  | .pxor d a b => d.isP && a.isP && b.isP
  | .pnot d a => d.isP && a.isP
  | .pmov d a => d.isP && a.isP
  | .pany d a => d.isP && a.isP
  | .pall d a => d.isP && a.isP
  | .ppack d a => d.isS && a.isP
  | .addRi d a _ => d.isS && a.isS
  | .andRi d a _ => d.isS && a.isS
  | .orRi d a _ => d.isS && a.isS
  | .xorRi d a _ => d.isS && a.isS
  | .shlRi d a _ => d.isS && a.isS
  | .shrRi d a _ => d.isS && a.isS
  | .sarRi d a _ => d.isS && a.isS
  | .punpk d a => d.isP && a.isS
  | .mfc d _ => d.isS
  | .mtc a _ => a.isS
  | .icvt d a _ _ => d.isS && a.isS
  | .winset d a b _ => d.is8 && a.isS && b.ok
  | .ldI8 d a _ _ => d.isS && a.isS
  | .ldI16 d a _ _ => d.isS && a.isS
  | .ldI32 d a _ _ => d.isS && a.isS
  | .ldI64 d a _ _ => d.isS && a.isS
  | .ldN8 d a _ _ => d.isS && a.isS
  | .ldN16 d a _ _ => d.isS && a.isS
  | .ldN32 d a _ _ => d.isS && a.isS
  | .ldvec d a _ _ => d.isS && a.isS
  | .ldv d a _ _ => d.isS && a.isS
  | .ldf d a _ => d.isS && a.isS
  | .vget d a _ => d.isS && a.isS
  | .probe d a _ => d.isS && a.isS
  | .pft _ a _ => a.isS
  | .mwait d a _ => d.isS && a.isS
  | .st8 d a _ _ => d.isS && a.isS
  | .st16 d a _ _ => d.isS && a.isS
  | .st32 d a _ _ => d.isS && a.isS
  | .st64 d a _ _ => d.isS && a.isS
  | .stvec d a _ _ => d.isS && a.isS
  | .stf d a _ => d.isS && a.isS
  | .casv d a _ _ => d.isPair && a.isS
  | .rel d a _ => d.isS && a.isS
  | .atomAdd d a _ o => atomReg d o && a.isS
  | .atomMin d a _ o => atomReg d o && a.isS
  | .atomMax d a _ o => atomReg d o && a.isS
  | .atomAnd d a _ o => atomReg d o && a.isS
  | .atomOr d a _ o => atomReg d o && a.isS
  | .atomXor d a _ o => atomReg d o && a.isS
  | .atomXchg d a _ o => atomReg d o && a.isS
  | .atomCas d a _ _ => d.isPair && a.isS
  | .atomAddI32 d a _ o => atomReg d o && a.isS
  | .atomMinI32 d a _ o => atomReg d o && a.isS
  | .atomMaxI32 d a _ o => atomReg d o && a.isS
  | .atomAndI32 d a _ o => atomReg d o && a.isS
  | .atomOrI32 d a _ o => atomReg d o && a.isS
  | .atomXorI32 d a _ o => atomReg d o && a.isS
  | .atomXchgI32 d a _ o => atomReg d o && a.isS
  | .atomCasI32 d a _ _ => d.isPair && a.isS
  | .fence _ => true
  | .valset d => d.isP
  | .vclr => true
  | .fadd d a b _ _ => d.isS && a.isS && b.ok
  | .fsub d a b _ _ => d.isS && a.isS && b.ok
  | .fmul d a b _ _ => d.isS && a.isS && b.ok
  | .ffma d a b _ _ => d.isS && a.isS && b.ok
  | .fmin d a b _ => d.isS && a.isS && b.ok
  | .fmax d a b _ => d.isS && a.isS && b.ok
  | .fsgn d a b _ _ => d.isS && a.isS && b.ok
  | .fcmp d a b _ _ => d.isP && a.isS && b.ok
  | .frcp d a _ => d.isS && a.isS
  | .frsq d a _ => d.isS && a.isS
  | .fexp2 d a _ => d.isS && a.isS
  | .flog2 d a _ => d.isS && a.isS
  | .fcvt d a _ _ _ _ => d.isS && a.isS
  | .fcvti d a _ _ _ => d.isS && a.isS
  | .icvtf d a _ _ _ => d.isS && a.isS
  | .vadd d a b _ _ => d.isS && a.isS && b.ok
  | .vmul d a b _ _ => d.isS && a.isS && b.ok
  | .vand d a b => d.isS && a.isS && b.ok
  | .vor d a b => d.isS && a.isS && b.ok
  | .vshf d a b => d.isS && a.isS && b.ok
  | .vbcast d a => d.isS && a.isS
  | .vredadd d a _ _ => d.isS && a.isS
  | .vredmax d a _ => d.isS && a.isS
  | .vsel d a b p => d.isS && a.isS && b.ok && p.isP
  | .vpack d a b _ _ => d.isS && a.isS && b.ok
  | .vunpk d a _ _ => d.isS && a.isS
  | .vlane d a b => d.isS && a.isS && b.ok
  | .vins d a b => d.isS && a.isS && b.ok
  | .vfma d a b _ _ => d.isS && a.isS && b.ok
  | .erw _ a b _ => a.isS && b.ok
  | .erd _ a _ => a.isS
  | .mlease => true
  | .mfree => true
  | .mma _ _ => true
  | .mmas _ _ => true
  | .mgath _ => true
  | .accrd _ => true
  | .accwr _ => true
  | .accz => true
  | .vecop _ => true
  | .cpy => true
  | .cpyd => true
  | .ifill => true
  | .coll _ _ => true
  | .tlwait _ a b => a.isS && b.ok
  | .tlread _ a => a.isS
  | .phreg a => a.isS
  | .phdrop a => a.isS
  | .phsig a => a.isS
  | .phwait a b => a.isS && b.ok
  | .phsw a => a.isS
  | .bind a b => a.isPair && b.ok
  | .unbind a b => a.isPair && b.ok
  | .tkget a => a.isS
  | .tkdone => true
  | .fwait a => a.isS
  | .bmsg => true
  | .cbsync a b => a.isS && b.ok
  | .qld _ a _ => a.isS
  | .qmov _ a => a.isS
  | .qset _ _ => true
  | .fmtset f a => decide (f.toNat < 8) && a.isS

/-- Every other field holds a value its map row accepts (R43 to R55), and an event's places exist (R11). -/
def Instr.valsOk : Instr → Bool
  | .bundleIssue core => decide (core < 256)
  | .fatalStop g => decide (g < 1024)
  | .resultLand g _ => decide (g < 1024)
  | .branchResolve g => decide (g < 1024)
  | .armStallTimeout g => decide (g < 1024)
  | .commitBufferRelease core => decide (core < 256)
  | .leaseGrant cl => decide (cl < 64)
  | .leaseRunLimit cl => decide (cl < 64)
  | .leaseIdlePass cl => decide (cl < 64)
  | .tdtDispatch core _ => decide (core < 256)
  | .engineCommandComplete cl _ => decide (cl < 64)
  | .copyStart core _ => decide (core < 256)
  | .copyComplete core _ => decide (core < 256)
  | .collComplete _ _ => true
  | .ifillComplete core => decide (core < 256)
  | .sliceLineFill slice _ => decide (slice < 96)
  | .writeTransaction core _ => decide (core < 256)
  | .mwaitTimeout g => decide (g < 1024)
  | .mwaitSpuriousWake g => decide (g < 1024)
  | .ldfPerform g _ => decide (g < 1024)
  | .futureAnswer g _ => decide (g < 1024)
  | .fwaitBackoffExpire g => decide (g < 1024)
  | .qntFlushFull cl _ => decide (cl < 64)
  | .qntFlushTimeout cl _ => decide (cl < 64)
  | .badgerMsgArrive slice => decide (slice < 96)
  | .badgerHandlerStart slice => decide (slice < 96)
  | .badgerPfetch slice _ => decide (slice < 96)
  | .badgerRdata slice _ => decide (slice < 96)
  | .badgerWdata slice _ _ => decide (slice < 96)
  | .badgerDone slice _ => decide (slice < 96)
  | .badgerBudgetExpire slice => decide (slice < 96)
  | .badgerAbort slice => decide (slice < 96)
  | .hbmRefresh ctrl _ => decide (ctrl < 8)
  | .hbmForcedRefresh ctrl _ _ => decide (ctrl < 8)
  | .eccUncorrectable _ _ => true
  | .tinv _ => true
  | .tinvComplete => true
  | .qtailDoorbell q _ => decide (q < 64)
  | .queueEntryRead die => decide (die < 2)
  | .launch q => decide (q < 64)
  | .wait q => decide (q < 64)
  | .waitRetire q => decide (q < 64)
  | .signal q => decide (q < 64)
  | .copy q => decide (q < 64)
  | .copyCommandComplete q => decide (q < 64)
  | .mark q => decide (q < 64)
  | .launchReserving _ => true
  | .gangPlace _ => true
  | .gangRetire _ => true
  | .preempt _ => true
  | .contextDrain g => decide (g < 1024)
  | .crewSave _ _ => true
  | .gangRestore _ => true
  | .functionLevelReset vf => decide (vf < 16)
  | .slotTableTurn => true
  | .cntSample cl _ => decide (cl < 64)
  | .sampleBreakdown cl _ _ _ => decide (cl < 64)
  | .powerOnReset => true
  | .bringupStageDone _ _ => true
  | .throttle => true
  | .throttleRelease => true
  | .thermalTrip => true
  | .flitReceive link _ => decide (link < 16)
  | .linkRetrain link => decide (link < 16)
  | .linkRetrainDone link _ => decide (link < 16)
  | .form _ => true
  | .keyNonceRequest _ => true
  | .keyDelivery _ => true
  | .evidenceRequest _ _ _ => true
  | .evidenceTimeout _ => true
  | .worldRelease _ => true
  | .cfenceWrite _ => true
  | .sidebandMessage _ => true
  | .registerWrite _ _ _ _ => true
  | .uncorrectableHardwareError core => decide (core < 256)
  | .powerLoss => true
  | .nop _ gn gp _ _ => decide (gp.toNat < 48) && !(gn && decide (gp = 0#6))
  | .pt _ _ => true
  | .ptr _ _ => true
  | .br _ _ _ _ => true
  | .call _ => true
  | .callt _ _ => true
  | .ret => true
  | .loop _ depth => decide (1 ≤ depth.toNat ∧ depth.toNat ≤ 6)
  | .bswap _ => true
  | .ifence => true
  | .trap _ => true
  | .resume => true
  | .yield => true
  | .exit => true
  | .add _ _ _ _ => true
  | .sub _ _ _ _ => true
  | .mul _ _ _ _ => true
  | .mulh _ _ _ _ => true
  | .div _ _ _ _ => true
  | .rem _ _ _ _ => true
  | .and _ _ _ _ => true
  | .or _ _ _ _ => true
  | .xor _ _ _ _ => true
  | .andn _ _ _ _ => true
  | .shl _ _ _ _ => true
  | .shr _ _ _ _ => true
  | .sar _ _ _ _ => true
  | .min _ _ _ _ => true
  | .max _ _ _ _ => true
  | .sel _ _ _ _ => true
  | .clz _ _ _ => true
  | .popc _ _ _ => true
  | .ext _ _ _ _ => true
  | .ins _ _ _ _ => true
  | .mov _ _ _ => true
  | .movh _ _ _ => true
  | .lea _ _ _ _ _ => true
  | .cmp _ _ _ _ _ => true
  | .pand _ _ _ => true
  | .por _ _ _ => true
  | .pxor _ _ _ => true
  | .pnot _ _ => true
  | .pmov _ _ => true
  | .pany _ _ => true
  | .pall _ _ => true
  | .ppack _ a => a.isP8
  | .addRi _ _ _ => true
  | .andRi _ _ _ => true
  | .orRi _ _ _ => true
  | .xorRi _ _ _ => true
  | .shlRi _ _ _ => true
  | .shrRi _ _ _ => true
  | .sarRi _ _ _ => true
  | .punpk d _ => d.isP8
  | .mfc _ _ => true
  | .mtc _ _ => true
  | .icvt _ _ _ _ => true
  | .winset _ _ _ _ => true
  | .ldI8 _ _ _ o => o.isLoad
  | .ldI16 _ _ _ o => o.isLoad
  | .ldI32 _ _ _ o => o.isLoad
  | .ldI64 _ _ _ o => o.isLoad
  | .ldN8 _ _ _ o => o.isLoad
  | .ldN16 _ _ _ o => o.isLoad
  | .ldN32 _ _ _ o => o.isLoad
  | .ldvec _ _ _ o => o.isLoad
  | .ldv _ _ _ o => o.isLoad
  | .ldf _ _ _ => true
  | .vget _ _ _ => true
  | .probe _ _ _ => true
  | .pft d _ _ => decide (d.toNat < 2)
  | .mwait _ _ _ => true
  | .st8 _ _ _ o => o.isStore
  | .st16 _ _ _ o => o.isStore
  | .st32 _ _ _ o => o.isStore
  | .st64 _ _ _ o => o.isStore
  | .stvec _ _ _ o => o.isStore
  | .stf _ _ _ => true
  | .casv _ _ _ o => o.isCasv
  | .rel _ _ _ => true
  | .atomAdd _ _ _ _ => true
  | .atomMin _ _ _ _ => true
  | .atomMax _ _ _ _ => true
  | .atomAnd _ _ _ _ => true
  | .atomOr _ _ _ _ => true
  | .atomXor _ _ _ _ => true
  | .atomXchg _ _ _ _ => true
  | .atomCas _ _ _ o => decide (o ≠ .spc)
  | .atomAddI32 _ _ _ _ => true
  | .atomMinI32 _ _ _ _ => true
  | .atomMaxI32 _ _ _ _ => true
  | .atomAndI32 _ _ _ _ => true
  | .atomOrI32 _ _ _ _ => true
  | .atomXorI32 _ _ _ _ => true
  | .atomXchgI32 _ _ _ _ => true
  | .atomCasI32 _ _ _ o => decide (o ≠ .spc)
  | .fence _ => true
  | .valset _ => true
  | .vclr => true
  | .fadd _ _ _ t _ => t.isScalar
  | .fsub _ _ _ t _ => t.isScalar
  | .fmul _ _ _ t _ => t.isScalar
  | .ffma _ _ _ t _ => t.isScalar
  | .fmin _ _ _ t => t.isScalar
  | .fmax _ _ _ t => t.isScalar
  | .fsgn _ _ _ t _ => t.isScalar
  | .fcmp _ _ _ t _ => t.isScalar
  | .frcp _ _ _ => true
  | .frsq _ _ _ => true
  | .fexp2 _ _ _ => true
  | .flog2 _ _ _ => true
  | .fcvt _ _ srnd st dt m => st.isFloat && dt.isFloat && (!srnd || decide (m = .rne))
  | .fcvti _ _ _ t _ => t.isScalar
  | .icvtf _ _ _ t _ => t.isScalar
  | .vadd _ _ _ t _ => t.isLane
  | .vmul _ _ _ t _ => t.isLane
  | .vand _ _ _ => true
  | .vor _ _ _ => true
  | .vshf _ _ _ => true
  | .vbcast _ _ => true
  | .vredadd _ _ t _ => t.isLane
  | .vredmax _ _ t => t.isLane
  | .vsel _ _ _ _ => true
  | .vpack _ _ _ t _ => t.isPackable
  | .vunpk _ _ t k => t.isPackable && (match t with | .narrow _ => true | _ => decide (k.toNat < 2))
  | .vlane _ _ _ => true
  | .vins _ _ _ => true
  | .vfma _ _ _ t _ => t.isLane
  | .erw e _ _ n => decide (e.toNat < 10) && decide (n.toNat < 63)
  | .erd e _ _ => decide (e.toNat < 10)
  | .mlease => true
  | .mfree => true
  | .mma x y => mmaPair x y
  | .mmas x y => mmaPair x y
  | .mgath _ => true
  | .accrd _ => true
  | .accwr _ => true
  | .accz => true
  | .vecop _ => true
  | .cpy => true
  | .cpyd => true
  | .ifill => true
  | .coll t o => collType t o
  | .tlwait e _ _ => decide (e.toNat < 10)
  | .tlread e _ => decide (e.toNat < 10)
  | .phreg _ => true
  | .phdrop _ => true
  | .phsig _ => true
  | .phwait _ _ => true
  | .phsw _ => true
  | .bind _ _ => true
  | .unbind _ _ => true
  | .tkget _ => true
  | .tkdone => true
  | .fwait _ => true
  | .bmsg => true
  | .cbsync _ _ => true
  | .qld _ _ _ => true
  | .qmov _ _ => true
  | .qset _ _ => true
  | .fmtset _ _ => true

/-- A well-formed instruction. -/
def Instr.wf (i : Instr) : Bool := i.regsOk && i.valsOk

end Sys2Proof
end

