-- ==== Sys2Proof/Decode.lean ====
section
/-! DEFINITION. Decoding the bundle stream (R33 to R57) and encoding one syllable, both written from the maps of
02_encoding. Decoding is total: what is no legal syllable is answered with its reason of R57. -/

namespace Sys2Proof

/-- The slots in their fixed order (R12). -/
inductive Slot where
  | c | a0 | a1 | l | s | f | x | q
  deriving DecidableEq, Repr, Inhabited

/-- The reasons of R57. -/
inductive Reason where
  | undefinedOp | classMismatch | registerRange | reservedNonzero | valueNotAccepted | guardEncoding
  deriving DecidableEq, Repr, Inhabited

/-- The reason code that ESTAT holds (R57). -/
def Reason.code : Reason → Nat
  | .undefinedOp => 1
  | .classMismatch => 2
  | .registerRange => 3
  | .reservedNonzero => 4
  | .valueNotAccepted => 5
  | .guardEncoding => 6

/-- The slot index (R57): 0 to 7 for C to Q. -/
def Slot.index : Slot → Nat
  | .c => 0 | .a0 => 1 | .a1 => 2 | .l => 3 | .s => 4 | .f => 5 | .x => 6 | .q => 7

/-- The slot of an index. -/
def Slot.ofIndex : Nat → Slot
  | 0 => .c | 1 => .a0 | 2 => .a1 | 3 => .l | 4 => .s | 5 => .f | 6 => .x | _ => .q

/-- A bundle header (R34). -/
structure Header where
  mask : Byte
  stop : Bool
  gn   : Bool
  gp   : Reg
  hint : BitVec 4
  bimm : BitVec 12
  deriving DecidableEq, Repr, Inhabited

/-- The fields of a syllable by position (R41). -/
def opOf (w : Syl) : Byte := w.extractLsb' 24 8
def dOf (w : Syl) : Reg := w.extractLsb' 18 6
def aOf (w : Syl) : Reg := w.extractLsb' 12 6
def bOf (w : Syl) : Reg := w.extractLsb' 6 6
def fOf (w : Syl) : Reg := w.extractLsb' 0 6
def immOf (w : Syl) : BitVec 12 := w.extractLsb' 0 12
def offOf (w : Syl) : Byte := w.extractLsb' 4 8
def ordOf (w : Syl) : BitVec 3 := w.extractLsb' 1 3
def m0Of (w : Syl) : BitVec 1 := w.extractLsb' 0 1
def engOf (w : Syl) : BitVec 4 := w.extractLsb' 20 4
def xaOf (w : Syl) : Reg := w.extractLsb' 14 6
def xbOf (w : Syl) : Reg := w.extractLsb' 8 6
def cmdOf (w : Syl) : Byte := w.extractLsb' 0 8
def q0Of (w : Syl) : BitVec 2 := w.extractLsb' 18 2
def btOf (w : Syl) : BitVec 2 := w.extractLsb' 22 2
def lowOf (w : Syl) : BitVec 24 := w.extractLsb' 0 24

/-- A B field (R39): 62 is BIMM. -/
def srcOf (b : Reg) : Src := if b = 62#6 then .bimm else .reg b

/-- ITYPE codes (R43). -/
def ityOf : BitVec 3 → ITy
  | 0#3 => .i8 | 1#3 => .i16 | 2#3 => .i32 | 3#3 => .i64
  | 4#3 => .n8 | 5#3 => .n16 | 6#3 => .n32 | _ => .n64

/-- Conditions of CMP (R43); 0b110 and 0b111 are illegal. -/
def condOf : BitVec 3 → Option Cond
  | 0#3 => some .eq | 1#3 => some .ne | 2#3 => some .lt
  | 3#3 => some .le | 4#3 => some .gt | 5#3 => some .ge | _ => none

/-- Type codes (R44); 0xD to 0xF are reserved. -/
def ftyOf : BitVec 4 → Option FTy
  | 0#4 => some (.narrow 0) | 1#4 => some (.narrow 1) | 2#4 => some (.narrow 2) | 3#4 => some (.narrow 3)
  | 4#4 => some (.narrow 4) | 5#4 => some (.narrow 5) | 6#4 => some (.narrow 6) | 7#4 => some (.narrow 7)
  | 8#4 => some .bf16 | 9#4 => some .fp16 | 10#4 => some .fp32 | 11#4 => some .fp64 | 12#4 => some .int8
  | _ => none

/-- Rounding modes (R44). -/
def rmOf : BitVec 2 → Rm
  | 0#2 => .rne | 1#2 => .rtz | 2#2 => .rup | _ => .rdn

/-- ORD values (R45). -/
def ordCode : BitVec 3 → Ord
  | 0#3 => .unp | 1#3 => .com | 2#3 => .nor | 3#3 => .qnt
  | 4#3 => .spc | 5#3 => .acq | 6#3 => .rel | _ => .ar

/-- Scopes of FENCE (R52). -/
def scopeOf : BitVec 3 → Option Scope
  | 0#3 => some .ctx | 1#3 => some .core | 2#3 => some .clu | 3#3 => some .dev | 4#3 => some .pod | _ => none

/-- Control-register numbers (R50). -/
def cregOf : BitVec 12 → Option CReg
  | 0#12 => some .epc | 1#12 => some .estat | 2#12 => some .thv | 3#12 => some .slim | 4#12 => some .ftb
  | 5#12 => some .rqb | 6#12 => some .rqn | 7#12 => some .world | 8#12 => some .rngs | 9#12 => some .safeord
  | _ => none

/-- Sign selections of FSGN (R53). -/
def sgnOf : BitVec 2 → Option SgnOp
  | 0#2 => some .copy | 1#2 => some .neg | 2#2 => some .xor | _ => none

/-- Conditions of FCMP (R53). -/
def fcondOf : BitVec 2 → FCond
  | 0#2 => .eq | 1#2 => .lt | 2#2 => .le | _ => .un

/-- Space tags of LEA (R49). -/
def spaceOf : BitVec 4 → Option Space
  | 0#4 => some .dev | 1#4 => some .spd | 2#4 => some .gsp | 3#4 => some .loc | 4#4 => some .rmt | _ => none

/-- Operation codes of VECOP (R190). -/
def vopOf : Byte → Option VOp
  | 0x00#8 => some .copy | 0x01#8 => some .add | 0x02#8 => some .sub | 0x03#8 => some .mul
  | 0x04#8 => some .axpy | 0x05#8 => some .max | 0x06#8 => some .min | 0x07#8 => some .scale
  | 0x08#8 => some .relu | 0x09#8 => some .exp2 | 0x0A#8 => some .exp | 0x0B#8 => some .log2
  | 0x0C#8 => some .rcp | 0x0D#8 => some .rsqrt | 0x10#8 => some .rsum | 0x11#8 => some .rmax
  | 0x20#8 => some .srnd | _ => none

/-- Operation codes of COLL (R193). -/
def copOf : BitVec 4 → Option COp
  | 0#4 => some .asum | 1#4 => some .rsum | 2#4 => some .amax | 3#4 => some .bcast | 4#4 => some .agath | _ => none

/-- What a syllable answers: the lowest reason of R57 that applies, where its register fields, its reserved fields or
its other values are not legal. -/
def judge (regs reserved : Bool) (i : Option Instr) : Except Reason Instr :=
  if !regs then .error .registerRange
  else if !reserved then .error .reservedNonzero
  else match i with
    | none => .error .valueNotAccepted
    | some i => if i.valsOk then .ok i else .error .valueNotAccepted

/-- RR with an integer type and MOD 0 (R43, R49). Whether a nonzero MOD of an operation that has none is a reserved field
(reason 4) or a value not accepted (reason 5) the manual leaves open: it is 4 here, the model's choice (log 26). -/
def decInt (w : Syl) (k : Reg → Reg → Src → ITy → Instr) : Except Reason Instr :=
  judge ((dOf w).isS && (aOf w).isS && (srcOf (bOf w)).ok) (decide ((fOf w).extractLsb' 0 3 = 0#3))
    (some (k (dOf w) (aOf w) (srcOf (bOf w)) (ityOf ((fOf w).extractLsb' 3 3))))

/-- CLZ and POPC (R49). -/
def decCnt (w : Syl) (k : Reg → Reg → ITy → Instr) : Except Reason Instr :=
  judge ((dOf w).isS && (aOf w).isS) (decide (bOf w = 0#6) && decide ((fOf w).extractLsb' 0 3 = 0#3))
    (some (k (dOf w) (aOf w) (ityOf ((fOf w).extractLsb' 3 3))))

/-- EXT and INS (R49). -/
def decExt (w : Syl) (k : Reg → Reg → BitVec 6 → BitVec 6 → Instr) : Except Reason Instr :=
  judge ((dOf w).isS && (aOf w).isS) true (some (k (dOf w) (aOf w) (bOf w) (fOf w)))

/-- RI with two scalars and an immediate (R49). -/
def decImm (w : Syl) (k : Reg → Reg → BitVec 12 → Instr) : Except Reason Instr :=
  judge ((dOf w).isS && (aOf w).isS) true (some (k (dOf w) (aOf w) (immOf w)))

/-- RI shifts (R49). -/
def decCount (w : Syl) (k : Reg → Reg → BitVec 6 → Instr) : Except Reason Instr :=
  judge ((dOf w).isS && (aOf w).isS) (decide (bOf w = 0#6)) (some (k (dOf w) (aOf w) (fOf w)))

/-- Two-source predicate logic (R49). -/
def decP3 (w : Syl) (k : Reg → Reg → Reg → Instr) : Except Reason Instr :=
  judge ((dOf w).isP && (aOf w).isP && (bOf w).isP) (decide (fOf w = 0#6)) (some (k (dOf w) (aOf w) (bOf w)))

/-- One-source predicate logic (R49). -/
def decP2 (w : Syl) (k : Reg → Reg → Instr) : Except Reason Instr :=
  judge ((dOf w).isP && (aOf w).isP) (decide (immOf w = 0#12)) (some (k (dOf w) (aOf w)))

/-- M form with an ordering (R41, R51, R52); `rd` is the range of the D field. -/
def decMem (w : Syl) (rd : Reg → Bool) (k : Reg → Reg → Byte → Ord → Instr) : Except Reason Instr :=
  judge (rd (dOf w) && (aOf w).isS) (decide (m0Of w = 0#1))
    (some (k (dOf w) (aOf w) (offOf w) (ordCode (ordOf w))))

/-- M form that accepts .unp alone (R51, R52). -/
def decMem0 (w : Syl) (rd : Reg → Bool) (k : Reg → Reg → Byte → Instr) : Except Reason Instr :=
  judge (rd (dOf w) && (aOf w).isS) (decide (m0Of w = 0#1))
    (if ordOf w = 0#3 then some (k (dOf w) (aOf w) (offOf w)) else none)

/-- ATOM (R52): a pair under .spc. -/
def decAtom (w : Syl) (k : Reg → Reg → Byte → Ord → Instr) : Except Reason Instr :=
  decMem w (fun d => atomReg d (ordCode (ordOf w))) k

/-- F slot, two sources with type and rounding (R53). -/
def decF3 (w : Syl) (k : Reg → Reg → Src → FTy → Rm → Instr) : Except Reason Instr :=
  judge ((dOf w).isS && (aOf w).isS && (srcOf (bOf w)).ok) true
    ((ftyOf ((fOf w).extractLsb' 2 4)).map fun t =>
      k (dOf w) (aOf w) (srcOf (bOf w)) t (rmOf ((fOf w).extractLsb' 0 2)))

/-- FMIN and FMAX: F 1:0 reserved (R53). -/
def decF3n (w : Syl) (k : Reg → Reg → Src → FTy → Instr) : Except Reason Instr :=
  judge ((dOf w).isS && (aOf w).isS && (srcOf (bOf w)).ok) (decide ((fOf w).extractLsb' 0 2 = 0#2))
    ((ftyOf ((fOf w).extractLsb' 2 4)).map fun t => k (dOf w) (aOf w) (srcOf (bOf w)) t)

/-- The FP32 functions of one source (R53). -/
def decF1 (w : Syl) (k : Reg → Reg → Rm → Instr) : Except Reason Instr :=
  judge ((dOf w).isS && (aOf w).isS) (decide (bOf w = 0#6))
    (if (fOf w).extractLsb' 2 4 = 0xA#4 then some (k (dOf w) (aOf w) (rmOf ((fOf w).extractLsb' 0 2))) else none)

/-- FCVTI and ICVTF (R53). -/
def decFI (w : Syl) (k : Reg → Reg → ITy → FTy → Rm → Instr) : Except Reason Instr :=
  judge ((dOf w).isS && (aOf w).isS) (decide ((bOf w).extractLsb' 3 3 = 0#3))
    ((ftyOf ((fOf w).extractLsb' 2 4)).map fun t =>
      k (dOf w) (aOf w) (ityOf ((bOf w).extractLsb' 0 3)) t (rmOf ((fOf w).extractLsb' 0 2)))

/-- Three vectors, F reserved (R53). -/
def decV3 (w : Syl) (k : Reg → Reg → Src → Instr) : Except Reason Instr :=
  judge ((dOf w).isS && (aOf w).isS && (srcOf (bOf w)).ok) (decide (fOf w = 0#6))
    (some (k (dOf w) (aOf w) (srcOf (bOf w))))

/-- SEL and VSEL (R49, R53). -/
def decSel (w : Syl) (k : Reg → Reg → Src → Reg → Instr) : Except Reason Instr :=
  judge ((dOf w).isS && (aOf w).isS && (srcOf (bOf w)).ok && (fOf w).isP) true
    (some (k (dOf w) (aOf w) (srcOf (bOf w)) (fOf w)))

/-- X form that uses neither A nor B and belongs to one engine (R47, R54); `cmd` reads CMD, `low` is true where its
low four bits are reserved. -/
def decX0 (w : Syl) (eng : BitVec 4) (reserved : Bool) (cmd : Option Instr) : Except Reason Instr :=
  judge true (reserved && decide (xaOf w = 0#6) && decide (xbOf w = 0#6))
    (if engOf w = eng then cmd else none)

/-- X form with operand A alone (R54). -/
def decXA (w : Syl) (eng : BitVec 4) (k : Reg → Instr) : Except Reason Instr :=
  judge (xaOf w).isS (decide (xbOf w = 0#6) && decide (cmdOf w = 0#8))
    (if engOf w = eng then some (k (xaOf w)) else none)

/-- C form whose only field is BT (R48). -/
def decBT (w : Syl) (k : BitVec 2 → Instr) : Except Reason Instr :=
  judge true (decide (w.extractLsb' 0 22 = 0#22)) (some (k (btOf w)))

/-- C form with no field (R48). -/
def decC0 (w : Syl) (i : Instr) : Except Reason Instr := judge true (decide (lowOf w = 0#24)) (some i)

/-- The C map (R48). -/
def decodeC (w : Syl) : Except Reason Instr :=
  match opOf w with
  | 0x00#8 => judge true true (some (.pt (btOf w) (w.extractLsb' 0 22)))
  | 0x01#8 => judge (aOf w).isS (decide (w.extractLsb' 18 4 = 0#4) && decide (immOf w = 0#12))
      (some (.ptr (btOf w) (aOf w)))
  | 0x02#8 => judge (aOf w).isP (decide (w.extractLsb' 18 2 = 0#2) && decide (immOf w = 0#12))
      (some (.br (btOf w) (w.getLsbD 21) (w.getLsbD 20) (aOf w)))
  | 0x03#8 => decBT w .call
  | 0x04#8 => judge (aOf w).isS (decide (dOf w = 0#6)) (some (.callt (aOf w) (immOf w)))
  | 0x05#8 => decC0 w .ret
  | 0x06#8 => judge true (decide (w.extractLsb' 0 17 = 0#17))
      (some (.loop (w.extractLsb' 20 4) (w.extractLsb' 17 3)))
  | 0x07#8 => decBT w .bswap
  | 0x08#8 => decC0 w .ifence
  | 0x09#8 => judge true (decide (w.extractLsb' 12 12 = 0#12)) (some (.trap (immOf w)))
  | 0x0A#8 => decC0 w .resume
  | 0x0B#8 => decC0 w .yield
  | 0x0C#8 => decC0 w .exit
  | _ => .error .undefinedOp

/-- The A map (R49, R50). -/
def decodeA (w : Syl) : Except Reason Instr :=
  match opOf w with
  | 0x10#8 => decInt w .add
  | 0x11#8 => decInt w .sub
  | 0x12#8 => decInt w .mul
  | 0x13#8 => decInt w .mulh
  | 0x14#8 => decInt w .div
  | 0x15#8 => decInt w .rem
  | 0x16#8 => decInt w .and
  | 0x17#8 => decInt w .or
  | 0x18#8 => decInt w .xor
  | 0x19#8 => decInt w .andn
  | 0x1A#8 => decInt w .shl
  | 0x1B#8 => decInt w .shr
  | 0x1C#8 => decInt w .sar
  | 0x1D#8 => decInt w .min
  | 0x1E#8 => decInt w .max
  | 0x1F#8 => decSel w .sel
  | 0x20#8 => decCnt w .clz
  | 0x21#8 => decCnt w .popc
  | 0x22#8 => decExt w .ext
  | 0x23#8 => decExt w .ins
  | 0x24#8 => judge ((dOf w).isS && (srcOf (bOf w)).ok)
      (decide (aOf w = 0#6) && decide ((fOf w).extractLsb' 0 3 = 0#3))
      (some (.mov (dOf w) (srcOf (bOf w)) (ityOf ((fOf w).extractLsb' 3 3))))
  | 0x25#8 => decImm w .movh
  | 0x26#8 => judge ((dOf w).isS && (aOf w).isS && (srcOf (bOf w)).ok) true
      ((spaceOf ((fOf w).extractLsb' 2 4)).map fun sp =>
        .lea (dOf w) (aOf w) (srcOf (bOf w)) sp ((fOf w).extractLsb' 0 2))
  | 0x27#8 => judge ((dOf w).isP && (aOf w).isS && (srcOf (bOf w)).ok) true
      ((condOf ((fOf w).extractLsb' 0 3)).map fun c =>
        .cmp (dOf w) (aOf w) (srcOf (bOf w)) (ityOf ((fOf w).extractLsb' 3 3)) c)
  | 0x28#8 => decP3 w .pand
  | 0x29#8 => decP3 w .por
  | 0x2A#8 => decP3 w .pxor
  | 0x2B#8 => decP2 w .pnot
  | 0x2C#8 => decP2 w .pmov
  | 0x2D#8 => decP2 w .pany
  | 0x2E#8 => decP2 w .pall
  | 0x2F#8 => judge ((dOf w).isS && (aOf w).isP) (decide (immOf w = 0#12)) (some (.ppack (dOf w) (aOf w)))
  | 0x30#8 => decImm w .addRi
  | 0x31#8 => decImm w .andRi
  | 0x32#8 => decImm w .orRi
  | 0x33#8 => decImm w .xorRi
  | 0x34#8 => decCount w .shlRi
  | 0x35#8 => decCount w .shrRi
  | 0x36#8 => decCount w .sarRi
  | 0x38#8 => judge ((dOf w).isP && (aOf w).isS) (decide (immOf w = 0#12)) (some (.punpk (dOf w) (aOf w)))
  | 0x39#8 => judge (dOf w).isS (decide (aOf w = 0#6)) ((cregOf (immOf w)).map fun r => .mfc (dOf w) r)
  | 0x3A#8 => judge (aOf w).isS (decide (dOf w = 0#6)) ((cregOf (immOf w)).map fun r => .mtc (aOf w) r)
  | 0x3B#8 => judge ((dOf w).isS && (aOf w).isS) (decide (bOf w = 0#6))
      (some (.icvt (dOf w) (aOf w) (ityOf ((fOf w).extractLsb' 3 3)) (ityOf ((fOf w).extractLsb' 0 3))))
  | 0x3C#8 => judge ((dOf w).is8 && (aOf w).isS && (srcOf (bOf w)).ok) (decide ((fOf w).extractLsb' 2 4 = 0#4))
      (if (fOf w).extractLsb' 1 1 = 0#1 then some (.winset (dOf w) (aOf w) (srcOf (bOf w)) ((fOf w).getLsbD 0)) else none)
  | _ => .error .undefinedOp

/-- The L map (R51). -/
def decodeL (w : Syl) : Except Reason Instr :=
  match opOf w with
  | 0x50#8 => decMem w Reg.isS .ldI8
  | 0x51#8 => decMem w Reg.isS .ldI16
  | 0x52#8 => decMem w Reg.isS .ldI32
  | 0x53#8 => decMem w Reg.isS .ldI64
  | 0x54#8 => decMem w Reg.isS .ldN8
  | 0x55#8 => decMem w Reg.isS .ldN16
  | 0x56#8 => decMem w Reg.isS .ldN32
  | 0x57#8 => decMem w Reg.isS .ldvec
  | 0x58#8 => decMem w Reg.isS .ldv
  | 0x59#8 => decMem0 w Reg.isS .ldf
  | 0x5A#8 => decMem0 w Reg.isS .vget
  | 0x5B#8 => decMem0 w Reg.isS .probe
  | 0x5C#8 => decMem0 w (fun _ => true) .pft
  | 0x5D#8 => decMem0 w Reg.isS .mwait
  | _ => .error .undefinedOp

/-- The S map (R52). -/
def decodeS (w : Syl) : Except Reason Instr :=
  match opOf w with
  | 0x60#8 => decMem w Reg.isS .st8
  | 0x61#8 => decMem w Reg.isS .st16
  | 0x62#8 => decMem w Reg.isS .st32
  | 0x63#8 => decMem w Reg.isS .st64
  | 0x64#8 => decMem w Reg.isS .stvec
  | 0x65#8 => decMem0 w Reg.isS .stf
  | 0x66#8 => decMem w Reg.isPair .casv
  | 0x67#8 => decMem0 w Reg.isS .rel
  | 0x68#8 => decAtom w .atomAdd
  | 0x69#8 => decAtom w .atomMin
  | 0x6A#8 => decAtom w .atomMax
  | 0x6B#8 => decAtom w .atomAnd
  | 0x6C#8 => decAtom w .atomOr
  | 0x6D#8 => decAtom w .atomXor
  | 0x6E#8 => decAtom w .atomXchg
  | 0x6F#8 => decMem w Reg.isPair .atomCas
  | 0x70#8 => decAtom w .atomAddI32
  | 0x71#8 => decAtom w .atomMinI32
  | 0x72#8 => decAtom w .atomMaxI32
  | 0x73#8 => decAtom w .atomAndI32
  | 0x74#8 => decAtom w .atomOrI32
  | 0x75#8 => decAtom w .atomXorI32
  | 0x76#8 => decAtom w .atomXchgI32
  | 0x77#8 => decMem w Reg.isPair .atomCasI32
  | 0x78#8 => judge true (decide (dOf w = 0#6) && decide (aOf w = 0#6) && decide (w.extractLsb' 3 9 = 0#9))
      ((scopeOf (w.extractLsb' 0 3)).map .fence)
  | 0x79#8 => judge (dOf w).isP (decide (w.extractLsb' 0 18 = 0#18)) (some (.valset (dOf w)))
  | 0x7A#8 => decC0 w .vclr
  | _ => .error .undefinedOp

/-- The F map (R53). -/
def decodeF (w : Syl) : Except Reason Instr :=
  match opOf w with
  | 0x80#8 => decF3 w .fadd
  | 0x81#8 => decF3 w .fsub
  | 0x82#8 => decF3 w .fmul
  | 0x83#8 => decF3 w .ffma
  | 0x84#8 => decF3n w .fmin
  | 0x85#8 => decF3n w .fmax
  | 0x86#8 => judge ((dOf w).isS && (aOf w).isS && (srcOf (bOf w)).ok) true
      ((ftyOf ((fOf w).extractLsb' 2 4)).bind fun t => (sgnOf ((fOf w).extractLsb' 0 2)).map fun g =>
        .fsgn (dOf w) (aOf w) (srcOf (bOf w)) t g)
  | 0x87#8 => judge ((dOf w).isP && (aOf w).isS && (srcOf (bOf w)).ok) true
      ((ftyOf ((fOf w).extractLsb' 2 4)).map fun t =>
        .fcmp (dOf w) (aOf w) (srcOf (bOf w)) t (fcondOf ((fOf w).extractLsb' 0 2)))
  | 0x88#8 => decF1 w .frcp
  | 0x89#8 => decF1 w .frsq
  | 0x8A#8 => decF1 w .fexp2
  | 0x8B#8 => decF1 w .flog2
  | 0x8C#8 => judge ((dOf w).isS && (aOf w).isS) true
      ((ftyOf ((fOf w).extractLsb' 2 4)).bind fun dt => (ftyOf ((bOf w).extractLsb' 0 4)).bind fun st =>
        if (bOf w).extractLsb' 5 1 = 0#1 then
          some (.fcvt (dOf w) (aOf w) ((bOf w).getLsbD 4) st dt (rmOf ((fOf w).extractLsb' 0 2)))
        else none)
  | 0x8D#8 => decFI w .fcvti
  | 0x8E#8 => decFI w .icvtf
  | 0x90#8 => decF3 w .vadd
  | 0x91#8 => decF3 w .vmul
  | 0x92#8 => decV3 w .vand
  | 0x93#8 => decV3 w .vor
  | 0x94#8 => decV3 w .vshf
  | 0x95#8 => judge ((dOf w).isS && (aOf w).isS) (decide (immOf w = 0#12)) (some (.vbcast (dOf w) (aOf w)))
  | 0x96#8 => judge ((dOf w).isS && (aOf w).isS) (decide (bOf w = 0#6))
      ((ftyOf ((fOf w).extractLsb' 2 4)).map fun t => .vredadd (dOf w) (aOf w) t (rmOf ((fOf w).extractLsb' 0 2)))
  | 0x97#8 => judge ((dOf w).isS && (aOf w).isS)
      (decide (bOf w = 0#6) && decide ((fOf w).extractLsb' 0 2 = 0#2))
      ((ftyOf ((fOf w).extractLsb' 2 4)).map fun t => .vredmax (dOf w) (aOf w) t)
  | 0x98#8 => decSel w .vsel
  | 0x99#8 => decF3 w .vpack
  | 0x9A#8 => judge ((dOf w).isS && (aOf w).isS) (decide (bOf w = 0#6))
      ((ftyOf ((fOf w).extractLsb' 2 4)).map fun t => .vunpk (dOf w) (aOf w) t ((fOf w).extractLsb' 0 2))
  | 0x9B#8 => decV3 w .vlane
  | 0x9C#8 => decV3 w .vins
  | 0x9D#8 => decF3 w .vfma
  | _ => .error .undefinedOp

/-- The X map (R54). -/
def decodeX (w : Syl) : Except Reason Instr :=
  match opOf w with
  | 0xC0#8 => judge ((xaOf w).isS && (srcOf (xbOf w)).ok) (decide (w.extractLsb' 6 2 = 0#2))
      (some (.erw (engOf w) (xaOf w) (srcOf (xbOf w)) (fOf w)))
  | 0xC1#8 => judge (xaOf w).isS (decide (xbOf w = 0#6) && decide (w.extractLsb' 6 2 = 0#2))
      (some (.erd (engOf w) (xaOf w) (fOf w)))
  | 0xC2#8 => decX0 w 0#4 (decide (cmdOf w = 0#8)) (some .mlease)
  | 0xC3#8 => decX0 w 0#4 (decide (cmdOf w = 0#8)) (some .mfree)
  | 0xC4#8 => decX0 w 0#4 true ((ftyOf (w.extractLsb' 4 4)).bind fun x => (ftyOf (w.extractLsb' 0 4)).map (.mma x))
  | 0xC5#8 => decX0 w 0#4 true ((ftyOf (w.extractLsb' 4 4)).bind fun x => (ftyOf (w.extractLsb' 0 4)).map (.mmas x))
  | 0xC6#8 => decX0 w 1#4 (decide (w.extractLsb' 0 4 = 0#4)) ((ftyOf (w.extractLsb' 4 4)).map .mgath)
  | 0xC7#8 => decX0 w 0#4 (decide (w.extractLsb' 0 4 = 0#4)) ((ftyOf (w.extractLsb' 4 4)).map .accrd)
  | 0xC8#8 => decX0 w 0#4 (decide (w.extractLsb' 0 4 = 0#4)) ((ftyOf (w.extractLsb' 4 4)).map .accwr)
  | 0xC9#8 => decX0 w 0#4 (decide (cmdOf w = 0#8)) (some .accz)
  | 0xCA#8 => decX0 w 2#4 true ((vopOf (cmdOf w)).map .vecop)
  | 0xCB#8 => decX0 w 3#4 (decide (cmdOf w = 0#8)) (some .cpy)
  | 0xCC#8 => decX0 w 3#4 (decide (cmdOf w = 0#8)) (some .cpyd)
  | 0xCD#8 => decX0 w 9#4 (decide (cmdOf w = 0#8)) (some .ifill)
  | 0xCE#8 => decX0 w 4#4 true
      ((ftyOf (w.extractLsb' 4 4)).bind fun t => (copOf (w.extractLsb' 0 4)).map (.coll t))
  | 0xD0#8 => judge ((xaOf w).isS && (srcOf (xbOf w)).ok) (decide (cmdOf w = 0#8))
      (some (.tlwait (engOf w) (xaOf w) (srcOf (xbOf w))))
  | 0xD1#8 => judge (xaOf w).isS (decide (xbOf w = 0#6) && decide (cmdOf w = 0#8))
      (some (.tlread (engOf w) (xaOf w)))
  | 0xD2#8 => decXA w 5#4 .phreg
  | 0xD3#8 => decXA w 5#4 .phdrop
  | 0xD4#8 => decXA w 5#4 .phsig
  | 0xD5#8 => judge ((xaOf w).isS && (srcOf (xbOf w)).ok) (decide (cmdOf w = 0#8))
      (if engOf w = 5#4 then some (.phwait (xaOf w) (srcOf (xbOf w))) else none)
  | 0xD6#8 => decXA w 5#4 .phsw
  | 0xD7#8 => judge ((xaOf w).isPair && (srcOf (xbOf w)).ok) (decide (engOf w = 0#4) && decide (cmdOf w = 0#8))
      (some (.bind (xaOf w) (srcOf (xbOf w))))
  | 0xD8#8 => judge ((xaOf w).isPair && (srcOf (xbOf w)).ok) (decide (engOf w = 0#4) && decide (cmdOf w = 0#8))
      (some (.unbind (xaOf w) (srcOf (xbOf w))))
  | 0xD9#8 => decXA w 6#4 .tkget
  | 0xDA#8 => decX0 w 6#4 (decide (cmdOf w = 0#8)) (some .tkdone)
  | 0xDB#8 => decXA w 7#4 .fwait
  | 0xDC#8 => decX0 w 8#4 (decide (cmdOf w = 0#8)) (some .bmsg)
  | 0xDD#8 => judge ((xaOf w).isS && (srcOf (xbOf w)).ok) (decide (engOf w = 0#4) && decide (cmdOf w = 0#8))
      (some (.cbsync (xaOf w) (srcOf (xbOf w))))
  | _ => .error .undefinedOp

/-- The Q map (R55). -/
def decodeQ (w : Syl) : Except Reason Instr :=
  match opOf w with
  | 0xE0#8 => judge (aOf w).isS (decide (q0Of w = 0#2)) (some (.qld (engOf w) (aOf w) (immOf w)))
  | 0xE1#8 => judge (aOf w).isS (decide (q0Of w = 0#2) && decide (immOf w = 0#12)) (some (.qmov (engOf w) (aOf w)))
  | 0xE2#8 => judge true (decide (q0Of w = 0#2) && decide (aOf w = 0#6) && decide (w.extractLsb' 8 4 = 0#4))
      (some (.qset (engOf w) (cmdOf w)))
  | 0xE3#8 => judge (decide ((engOf w).toNat < 8) && (aOf w).isS) (decide (q0Of w = 0#2) && decide (immOf w = 0#12))
      (some (.fmtset (engOf w) (aOf w)))
  | _ => .error .undefinedOp

/-- The class of an OP (R40), by the slot that stands for it; none for 0xE8 to 0xFF. -/
def classOf (op : Byte) : Option Slot :=
  let n := op.toNat
  if n < 0x10 then some .c
  else if n < 0x50 then some .a0
  else if n < 0x60 then some .l
  else if n < 0x80 then some .s
  else if n < 0xC0 then some .f
  else if n < 0xE0 then some .x
  else if n < 0xE8 then some .q
  else none

/-- A slot executes operations of its own class (R12, R40). -/
def Slot.cls : Slot → Slot
  | .a1 => .a0
  | k => k

/-- The map of a class. -/
def decodeClass (k : Slot) (w : Syl) : Except Reason Instr :=
  match k with
  | .c => decodeC w
  | .a0 | .a1 => decodeA w
  | .l => decodeL w
  | .s => decodeS w
  | .f => decodeF w
  | .x => decodeX w
  | .q => decodeQ w

/-- One syllable in its slot (R40, R57). -/
def decodeSyl (k : Slot) (w : Syl) : Except Reason Instr :=
  match classOf (opOf w) with
  | none => .error .undefinedOp
  | some y => if y = k.cls then decodeClass k w else .error .classMismatch

/-- The header's fields (R34). -/
def headerOf (w : Syl) : Header where
  mask := w.extractLsb' 24 8
  stop := w.getLsbD 23
  gn   := w.getLsbD 22
  gp   := w.extractLsb' 16 6
  hint := w.extractLsb' 12 4
  bimm := w.extractLsb' 0 12

/-- The guard encoding of R38. -/
def Header.guardOk (h : Header) : Bool := decide (h.gp.toNat < 48) && !(h.gn && decide (h.gp = 0#6))

/-- The slots a mask fills, in order (R33). -/
def slotsOf (mask : Byte) : List Slot :=
  [Slot.c, .a0, .a1, .l, .s, .f, .x, .q].filter fun k => mask.getLsbD k.index

/-- The bytes of a bundle with this header (R33): 4 + 4·n. -/
def Header.len (h : Header) : Nat := 4 + 4 * (slotsOf h.mask).length

/-- One syllable of a bundle as it is read: its slot, its bits, and what it decodes to. -/
structure SylIn where
  slot : Slot
  bits : Syl
  dec  : Except Reason Instr
  deriving Repr

/-- A 32-bit word of four little-endian bytes (R6); bytes that are missing read as 0. -/
def wordOfBytes : List Byte → Syl
  | [] => 0
  | [a] => 0#24 ++ a
  | [a, b] => 0#16 ++ b ++ a
  | [a, b, c] => 0#8 ++ c ++ b ++ a
  | a :: b :: c :: d :: _ => d ++ c ++ b ++ a

/-- The syllables of the filled slots, read from the bytes that follow the header. -/
def decodeSyls : List Slot → List Byte → List SylIn
  | [], _ => []
  | k :: ks, bs => ⟨k, wordOfBytes (bs.take 4), decodeSyl k (wordOfBytes (bs.take 4))⟩ :: decodeSyls ks (bs.drop 4)

/-- A bundle as it is read: its header and its syllables (R33). -/
structure BundleIn where
  hdr  : Header
  syls : List SylIn
  deriving Repr

/-- The bundle that a list of bytes begins with; total on any bytes. -/
def decodeBundle (bs : List Byte) : BundleIn :=
  let h := headerOf (wordOfBytes (bs.take 4))
  ⟨h, decodeSyls (slotsOf h.mask) (bs.drop 4)⟩

/-- Slot index and reason of the first illegal syllable, lowest slot first (R57). -/
def firstIllegalSyl : List SylIn → Option (Nat × Reason)
  | [] => none
  | y :: ys =>
    match y.dec with
    | .error r => some (y.slot.index, r)
    | .ok _ => firstIllegalSyl ys

/-- Slot index and reason of an illegal bundle (R56, R57): the header, with slot index 8, first. -/
def firstIllegal (b : BundleIn) : Option (Nat × Reason) :=
  if b.hdr.guardOk then firstIllegalSyl b.syls else some (8, .guardEncoding)

/-- The instructions of a legal bundle in slot order; a NOP bundle is one instruction (R35). -/
def BundleIn.instrs (b : BundleIn) : List Instr :=
  match b.syls with
  | [] => [.nop b.hdr.stop b.hdr.gn b.hdr.gp b.hdr.hint b.hdr.bimm]
  | ys => ys.filterMap fun y => match y.dec with
    | .ok i => some i
    | .error _ => none

/-! ### Encoding -/

/-- RR form (R41). -/
def rrWord (op : Byte) (d a b f : BitVec 6) : Syl := op ++ d ++ a ++ b ++ f

/-- RI form (R41). -/
def riWord (op : Byte) (d a : BitVec 6) (imm : BitVec 12) : Syl := op ++ d ++ a ++ imm

/-- M form (R41). -/
def mWord (op : Byte) (d a : BitVec 6) (off : Byte) (o : BitVec 3) : Syl := op ++ d ++ a ++ off ++ o ++ 0#1

/-- X form (R41). -/
def xWord (op : Byte) (e : BitVec 4) (a b : BitVec 6) (cmd : Byte) : Syl := op ++ e ++ a ++ b ++ cmd

/-- Q form (R41). -/
def qWord (op : Byte) (q : BitVec 4) (a : BitVec 6) (imm : BitVec 12) : Syl := op ++ q ++ 0#2 ++ a ++ imm

/-- C form (R41). -/
def cWord (op : Byte) (low : BitVec 24) : Syl := op ++ low

/-- Header (R34). -/
def hdrWord (h : Header) : Syl :=
  h.mask ++ BitVec.ofBool h.stop ++ BitVec.ofBool h.gn ++ h.gp ++ h.hint ++ h.bimm

def Src.code : Src → BitVec 6
  | .reg r => r
  | .bimm => 62

def ITy.code : ITy → BitVec 3
  | .i8 => 0 | .i16 => 1 | .i32 => 2 | .i64 => 3 | .n8 => 4 | .n16 => 5 | .n32 => 6 | .n64 => 7

def Cond.code : Cond → BitVec 3
  | .eq => 0 | .ne => 1 | .lt => 2 | .le => 3 | .gt => 4 | .ge => 5

def FTy.code : FTy → BitVec 4
  | .narrow k => 0#1 ++ k
  | .bf16 => 8 | .fp16 => 9 | .fp32 => 10 | .fp64 => 11 | .int8 => 12

def Rm.code : Rm → BitVec 2
  | .rne => 0 | .rtz => 1 | .rup => 2 | .rdn => 3

def Ord.code : Ord → BitVec 3
  | .unp => 0 | .com => 1 | .nor => 2 | .qnt => 3 | .spc => 4 | .acq => 5 | .rel => 6 | .ar => 7

def Scope.code : Scope → BitVec 3
  | .ctx => 0 | .core => 1 | .clu => 2 | .dev => 3 | .pod => 4

def CReg.code : CReg → BitVec 12
  | .epc => 0 | .estat => 1 | .thv => 2 | .slim => 3 | .ftb => 4
  | .rqb => 5 | .rqn => 6 | .world => 7 | .rngs => 8 | .safeord => 9

def SgnOp.code : SgnOp → BitVec 2
  | .copy => 0 | .neg => 1 | .xor => 2

def FCond.code : FCond → BitVec 2
  | .eq => 0 | .lt => 1 | .le => 2 | .un => 3

def Space.code : Space → BitVec 4
  | .dev => 0 | .spd => 1 | .gsp => 2 | .loc => 3 | .rmt => 4

def VOp.code : VOp → Byte
  | .copy => 0x00 | .add => 0x01 | .sub => 0x02 | .mul => 0x03 | .axpy => 0x04 | .max => 0x05 | .min => 0x06
  | .scale => 0x07 | .relu => 0x08 | .exp2 => 0x09 | .exp => 0x0A | .log2 => 0x0B | .rcp => 0x0C
  | .rsqrt => 0x0D | .rsum => 0x10 | .rmax => 0x11 | .srnd => 0x20

def COp.code : COp → BitVec 4
  | .asum => 0 | .rsum => 1 | .amax => 2 | .bcast => 3 | .agath => 4

/-- The word of a syllable, or of a NOP bundle (R34, R48 to R55); a machine event has none. -/
def encode : Instr → Option Syl
  | .bundleIssue _ => none
  | .fatalStop _ => none
  | .resultLand _ _ => none
  | .branchResolve _ => none
  | .armStallTimeout _ => none
  | .commitBufferRelease _ => none
  | .leaseGrant _ => none
  | .leaseRunLimit _ => none
  | .leaseIdlePass _ => none
  | .tdtDispatch _ _ => none
  | .engineCommandComplete _ _ => none
  | .copyStart _ _ => none
  | .copyComplete _ _ => none
  | .collComplete _ _ => none
  | .ifillComplete _ => none
  | .sliceLineFill _ _ => none
  | .writeTransaction _ _ => none
  | .mwaitTimeout _ => none
  | .mwaitSpuriousWake _ => none
  | .ldfPerform _ _ => none
  | .futureAnswer _ _ => none
  | .fwaitBackoffExpire _ => none
  | .qntFlushFull _ _ => none
  | .qntFlushTimeout _ _ => none
  | .badgerMsgArrive _ => none
  | .badgerHandlerStart _ => none
  | .badgerPfetch _ _ => none
  | .badgerRdata _ _ => none
  | .badgerWdata _ _ _ => none
  | .badgerDone _ _ => none
  | .badgerBudgetExpire _ => none
  | .badgerAbort _ => none
  | .hbmRefresh _ _ => none
  | .hbmForcedRefresh _ _ _ => none
  | .eccUncorrectable _ _ => none
  | .tinv _ => none
  | .tinvComplete => none
  | .qtailDoorbell _ _ => none
  | .queueEntryRead _ => none
  | .launch _ => none
  | .wait _ => none
  | .waitRetire _ => none
  | .signal _ => none
  | .copy _ => none
  | .copyCommandComplete _ => none
  | .mark _ => none
  | .launchReserving _ => none
  | .gangPlace _ => none
  | .gangRetire _ => none
  | .preempt _ => none
  | .contextDrain _ => none
  | .crewSave _ _ => none
  | .gangRestore _ => none
  | .functionLevelReset _ => none
  | .slotTableTurn => none
  | .cntSample _ _ => none
  | .sampleBreakdown _ _ _ _ => none
  | .powerOnReset => none
  | .bringupStageDone _ _ => none
  | .throttle => none
  | .throttleRelease => none
  | .thermalTrip => none
  | .flitReceive _ _ => none
  | .linkRetrain _ => none
  | .linkRetrainDone _ _ => none
  | .form _ => none
  | .keyNonceRequest _ => none
  | .keyDelivery _ => none
  | .evidenceRequest _ _ _ => none
  | .evidenceTimeout _ => none
  | .worldRelease _ => none
  | .cfenceWrite _ => none
  | .sidebandMessage _ => none
  | .registerWrite _ _ _ _ => none
  | .uncorrectableHardwareError _ => none
  | .powerLoss => none
  | .nop stop gn gp hint bimm => some (hdrWord ⟨0, stop, gn, gp, hint, bimm⟩)
  | .pt bt off => some (cWord 0x00 (bt ++ off))
  | .ptr bt a => some (cWord 0x01 (bt ++ 0#4 ++ a ++ 0#12))
  | .br bt arm neg p => some (cWord 0x02 (bt ++ BitVec.ofBool arm ++ BitVec.ofBool neg ++ 0#2 ++ p ++ 0#12))
  | .call bt => some (cWord 0x03 (bt ++ 0#22))
  | .callt a sig => some (cWord 0x04 (0#6 ++ a ++ sig))
  | .ret => some (cWord 0x05 0)
  | .loop len depth => some (cWord 0x06 (len ++ depth ++ 0#17))
  | .bswap bt => some (cWord 0x07 (bt ++ 0#22))
  | .ifence => some (cWord 0x08 0)
  | .trap code => some (cWord 0x09 (0#12 ++ code))
  | .resume => some (cWord 0x0A 0)
  | .yield => some (cWord 0x0B 0)
  | .exit => some (cWord 0x0C 0)
  | .add d a b t => some (rrWord 0x10 d a b.code (t.code ++ 0#3))
  | .sub d a b t => some (rrWord 0x11 d a b.code (t.code ++ 0#3))
  | .mul d a b t => some (rrWord 0x12 d a b.code (t.code ++ 0#3))
  | .mulh d a b t => some (rrWord 0x13 d a b.code (t.code ++ 0#3))
  | .div d a b t => some (rrWord 0x14 d a b.code (t.code ++ 0#3))
  | .rem d a b t => some (rrWord 0x15 d a b.code (t.code ++ 0#3))
  | .and d a b t => some (rrWord 0x16 d a b.code (t.code ++ 0#3))
  | .or d a b t => some (rrWord 0x17 d a b.code (t.code ++ 0#3))
  | .xor d a b t => some (rrWord 0x18 d a b.code (t.code ++ 0#3))
  | .andn d a b t => some (rrWord 0x19 d a b.code (t.code ++ 0#3))
  | .shl d a b t => some (rrWord 0x1A d a b.code (t.code ++ 0#3))
  | .shr d a b t => some (rrWord 0x1B d a b.code (t.code ++ 0#3))
  | .sar d a b t => some (rrWord 0x1C d a b.code (t.code ++ 0#3))
  | .min d a b t => some (rrWord 0x1D d a b.code (t.code ++ 0#3))
  | .max d a b t => some (rrWord 0x1E d a b.code (t.code ++ 0#3))
  | .sel d a b p => some (rrWord 0x1F d a b.code p)
  | .clz d a t => some (rrWord 0x20 d a 0 (t.code ++ 0#3))
  | .popc d a t => some (rrWord 0x21 d a 0 (t.code ++ 0#3))
  | .ext d a len1 pos => some (rrWord 0x22 d a len1 pos)
  | .ins d a len1 pos => some (rrWord 0x23 d a len1 pos)
  | .mov d b t => some (rrWord 0x24 d 0 b.code (t.code ++ 0#3))
  | .movh d a imm => some (riWord 0x25 d a imm)
  | .lea d a b sp sh => some (rrWord 0x26 d a b.code (sp.code ++ sh))
  | .cmp d a b t c => some (rrWord 0x27 d a b.code (t.code ++ c.code))
  | .pand d a b => some (rrWord 0x28 d a b 0)
  | .por d a b => some (rrWord 0x29 d a b 0)
  | .pxor d a b => some (rrWord 0x2A d a b 0)
  | .pnot d a => some (rrWord 0x2B d a 0 0)
  | .pmov d a => some (rrWord 0x2C d a 0 0)
  | .pany d a => some (rrWord 0x2D d a 0 0)
  | .pall d a => some (rrWord 0x2E d a 0 0)
  | .ppack d a => some (rrWord 0x2F d a 0 0)
  | .addRi d a imm => some (riWord 0x30 d a imm)
  | .andRi d a imm => some (riWord 0x31 d a imm)
  | .orRi d a imm => some (riWord 0x32 d a imm)
  | .xorRi d a imm => some (riWord 0x33 d a imm)
  | .shlRi d a cnt => some (rrWord 0x34 d a 0 cnt)
  | .shrRi d a cnt => some (rrWord 0x35 d a 0 cnt)
  | .sarRi d a cnt => some (rrWord 0x36 d a 0 cnt)
  | .punpk d a => some (rrWord 0x38 d a 0 0)
  | .mfc d r => some (riWord 0x39 d 0 r.code)
  | .mtc a r => some (riWord 0x3A 0 a r.code)
  | .icvt d a dt st => some (rrWord 0x3B d a 0 (dt.code ++ st.code))
  | .winset d a b part => some (rrWord 0x3C d a b.code (0#5 ++ BitVec.ofBool part))
  | .ldI8 d a off o => some (mWord 0x50 d a off o.code)
  | .ldI16 d a off o => some (mWord 0x51 d a off o.code)
  | .ldI32 d a off o => some (mWord 0x52 d a off o.code)
  | .ldI64 d a off o => some (mWord 0x53 d a off o.code)
  | .ldN8 d a off o => some (mWord 0x54 d a off o.code)
  | .ldN16 d a off o => some (mWord 0x55 d a off o.code)
  | .ldN32 d a off o => some (mWord 0x56 d a off o.code)
  | .ldvec d a off o => some (mWord 0x57 d a off o.code)
  | .ldv d a off o => some (mWord 0x58 d a off o.code)
  | .ldf d a off => some (mWord 0x59 d a off 0)
  | .vget d a off => some (mWord 0x5A d a off 0)
  | .probe d a off => some (mWord 0x5B d a off 0)
  | .pft d a off => some (mWord 0x5C d a off 0)
  | .mwait d a off => some (mWord 0x5D d a off 0)
  | .st8 d a off o => some (mWord 0x60 d a off o.code)
  | .st16 d a off o => some (mWord 0x61 d a off o.code)
  | .st32 d a off o => some (mWord 0x62 d a off o.code)
  | .st64 d a off o => some (mWord 0x63 d a off o.code)
  | .stvec d a off o => some (mWord 0x64 d a off o.code)
  | .stf d a off => some (mWord 0x65 d a off 0)
  | .casv d a off o => some (mWord 0x66 d a off o.code)
  | .rel d a off => some (mWord 0x67 d a off 0)
  | .atomAdd d a off o => some (mWord 0x68 d a off o.code)
  | .atomMin d a off o => some (mWord 0x69 d a off o.code)
  | .atomMax d a off o => some (mWord 0x6A d a off o.code)
  | .atomAnd d a off o => some (mWord 0x6B d a off o.code)
  | .atomOr d a off o => some (mWord 0x6C d a off o.code)
  | .atomXor d a off o => some (mWord 0x6D d a off o.code)
  | .atomXchg d a off o => some (mWord 0x6E d a off o.code)
  | .atomCas d a off o => some (mWord 0x6F d a off o.code)
  | .atomAddI32 d a off o => some (mWord 0x70 d a off o.code)
  | .atomMinI32 d a off o => some (mWord 0x71 d a off o.code)
  | .atomMaxI32 d a off o => some (mWord 0x72 d a off o.code)
  | .atomAndI32 d a off o => some (mWord 0x73 d a off o.code)
  | .atomOrI32 d a off o => some (mWord 0x74 d a off o.code)
  | .atomXorI32 d a off o => some (mWord 0x75 d a off o.code)
  | .atomXchgI32 d a off o => some (mWord 0x76 d a off o.code)
  | .atomCasI32 d a off o => some (mWord 0x77 d a off o.code)
  | .fence sc => some (riWord 0x78 0 0 (0#9 ++ sc.code))
  | .valset d => some (riWord 0x79 d 0 0)
  | .vclr => some (riWord 0x7A 0 0 0)
  | .fadd d a b t m => some (rrWord 0x80 d a b.code (t.code ++ m.code))
  | .fsub d a b t m => some (rrWord 0x81 d a b.code (t.code ++ m.code))
  | .fmul d a b t m => some (rrWord 0x82 d a b.code (t.code ++ m.code))
  | .ffma d a b t m => some (rrWord 0x83 d a b.code (t.code ++ m.code))
  | .fmin d a b t => some (rrWord 0x84 d a b.code (t.code ++ 0#2))
  | .fmax d a b t => some (rrWord 0x85 d a b.code (t.code ++ 0#2))
  | .fsgn d a b t g => some (rrWord 0x86 d a b.code (t.code ++ g.code))
  | .fcmp d a b t c => some (rrWord 0x87 d a b.code (t.code ++ c.code))
  | .frcp d a m => some (rrWord 0x88 d a 0 (0xA#4 ++ m.code))
  | .frsq d a m => some (rrWord 0x89 d a 0 (0xA#4 ++ m.code))
  | .fexp2 d a m => some (rrWord 0x8A d a 0 (0xA#4 ++ m.code))
  | .flog2 d a m => some (rrWord 0x8B d a 0 (0xA#4 ++ m.code))
  | .fcvt d a srnd st dt m => some (rrWord 0x8C d a (0#1 ++ BitVec.ofBool srnd ++ st.code) (dt.code ++ m.code))
  | .fcvti d a i t m => some (rrWord 0x8D d a (0#3 ++ i.code) (t.code ++ m.code))
  | .icvtf d a i t m => some (rrWord 0x8E d a (0#3 ++ i.code) (t.code ++ m.code))
  | .vadd d a b t m => some (rrWord 0x90 d a b.code (t.code ++ m.code))
  | .vmul d a b t m => some (rrWord 0x91 d a b.code (t.code ++ m.code))
  | .vand d a b => some (rrWord 0x92 d a b.code 0)
  | .vor d a b => some (rrWord 0x93 d a b.code 0)
  | .vshf d a b => some (rrWord 0x94 d a b.code 0)
  | .vbcast d a => some (rrWord 0x95 d a 0 0)
  | .vredadd d a t m => some (rrWord 0x96 d a 0 (t.code ++ m.code))
  | .vredmax d a t => some (rrWord 0x97 d a 0 (t.code ++ 0#2))
  | .vsel d a b p => some (rrWord 0x98 d a b.code p)
  | .vpack d a b t m => some (rrWord 0x99 d a b.code (t.code ++ m.code))
  | .vunpk d a t k => some (rrWord 0x9A d a 0 (t.code ++ k))
  | .vlane d a b => some (rrWord 0x9B d a b.code 0)
  | .vins d a b => some (rrWord 0x9C d a b.code 0)
  | .vfma d a b t m => some (rrWord 0x9D d a b.code (t.code ++ m.code))
  | .erw e a b n => some (xWord 0xC0 e a b.code (0#2 ++ n))
  | .erd e a n => some (xWord 0xC1 e a 0 (0#2 ++ n))
  | .mlease => some (xWord 0xC2 0 0 0 0)
  | .mfree => some (xWord 0xC3 0 0 0 0)
  | .mma x y => some (xWord 0xC4 0 0 0 (x.code ++ y.code))
  | .mmas x y => some (xWord 0xC5 0 0 0 (x.code ++ y.code))
  | .mgath t => some (xWord 0xC6 1 0 0 (t.code ++ 0#4))
  | .accrd t => some (xWord 0xC7 0 0 0 (t.code ++ 0#4))
  | .accwr t => some (xWord 0xC8 0 0 0 (t.code ++ 0#4))
  | .accz => some (xWord 0xC9 0 0 0 0)
  | .vecop o => some (xWord 0xCA 2 0 0 o.code)
  | .cpy => some (xWord 0xCB 3 0 0 0)
  | .cpyd => some (xWord 0xCC 3 0 0 0)
  | .ifill => some (xWord 0xCD 9 0 0 0)
  | .coll t o => some (xWord 0xCE 4 0 0 (t.code ++ o.code))
  | .tlwait e a b => some (xWord 0xD0 e a b.code 0)
  | .tlread e a => some (xWord 0xD1 e a 0 0)
  | .phreg a => some (xWord 0xD2 5 a 0 0)
  | .phdrop a => some (xWord 0xD3 5 a 0 0)
  | .phsig a => some (xWord 0xD4 5 a 0 0)
  | .phwait a b => some (xWord 0xD5 5 a b.code 0)
  | .phsw a => some (xWord 0xD6 5 a 0 0)
  | .bind a b => some (xWord 0xD7 0 a b.code 0)
  | .unbind a b => some (xWord 0xD8 0 a b.code 0)
  | .tkget a => some (xWord 0xD9 6 a 0 0)
  | .tkdone => some (xWord 0xDA 6 0 0 0)
  | .fwait a => some (xWord 0xDB 7 a 0 0)
  | .bmsg => some (xWord 0xDC 8 0 0 0)
  | .cbsync a b => some (xWord 0xDD 0 a b.code 0)
  | .qld q a imm => some (qWord 0xE0 q a imm)
  | .qmov q a => some (qWord 0xE1 q a 0)
  | .qset q c => some (qWord 0xE2 q 0 (0#4 ++ c))
  | .fmtset f a => some (qWord 0xE3 f a 0)

/-- The slot in which a word of this class stands, the first of its class (R40). -/
def slotOfWord (w : Syl) : Option Slot := classOf (opOf w)

/-- The four bytes of a word, lowest address first (R6). -/
def bytesOfWord (w : Syl) : List Byte :=
  [w.extractLsb' 0 8, w.extractLsb' 8 8, w.extractLsb' 16 8, w.extractLsb' 24 8]

/-- The header of a bundle that holds one syllable, in this slot, and nothing else. -/
def soloHeader (k : Slot) : Header := ⟨1#8 <<< k.index, false, false, 0, 0, 0⟩

/-- The bytes of the smallest bundle that holds this table word: a word whose top byte is 0 and whose header fields
are legal is a NOP bundle's header (R35), any other word stands in the first slot of its class. -/
def bundleOfWord (w : Syl) : List Byte :=
  if opOf w = 0#8 && (headerOf w).guardOk then bytesOfWord w
  else
    match slotOfWord w with
    | none => bytesOfWord (hdrWord (soloHeader .c)) ++ bytesOfWord w
    | some k => bytesOfWord (hdrWord (soloHeader k)) ++ bytesOfWord w

/-- The instruction that this model's decoder reads from a word of the opcode table. -/
def decodeTableWord (nbits w : Nat) : Option Instr :=
  if nbits = 32 then
    let b := decodeBundle (bundleOfWord (BitVec.ofNat 32 w))
    match firstIllegal b, b.instrs with
    | none, [i] => some i
    | _, _ => none
  else none

end Sys2Proof
end

