-- ==== Sys2Proof/Machine/State.lean ====
section
/-! DEFINITION. The state of the module: what 01_machine R28 to R32 and the chapters it names give it, and a few
fields of the model's own (agenda, turn, fresh, cur, iss, rnd), logs 3, 4, 12 and 18. Everything is plain data. -/

namespace Sys2Proof.Machine
open Sys2Proof

/-- A sparse table by place number, keys rising. -/
abbrev Tab (α : Type) := List (Nat × α)

/-- Memory in its canonical form: addresses strictly rising, no byte 0 (an unlisted address reads 0, R380). -/
abbrev Mem := List Host.Cell

/-- Why a step stops. -/
inductive Fault where
  /-- Raised by `step` alone, when the agenda names an instruction that is not well-formed (a place that R11 does not
  number). Safe: the hardware has no such step. -/
  | illFormed
  deriving DecidableEq, Repr, Inhabited

/-- What the model gives no meaning. -/
inductive Refusal where
  /-- Raised by an arm of `exec` whose instruction has no meaning yet. Safe: nothing is claimed of it. -/
  | notModelled (mnemonic : String)
  deriving DecidableEq, Repr, Inhabited

/-- A register that a result lands in (R28). -/
inductive RegN where
  | s (r : Nat) | v (r : Nat) | p (r : Nat) | q (r : Nat) | bt (r : Nat)
  deriving DecidableEq, Repr, Inhabited

/-- One write of a result; a narrower register takes the low bits. -/
structure Wr where
  reg : RegN
  val : Vec
  deriving DecidableEq, Repr, Inhabited

/-- A pair of the validation set (R227): the line by member index and 1024-byte line number of its IA. -/
structure VPair where
  member : Nat
  line   : Nat
  ver    : Word
  deriving DecidableEq, Repr, Inhabited

/-- A validation set with its FAILED bit (R227). -/
structure VSet where
  pairs  : List VPair
  failed : Bool
  deriving DecidableEq, Repr, Inhabited

/-- A window descriptor (R316). -/
structure Window where
  w0 : Word
  w1 : Word
  deriving DecidableEq, Repr, Inhabited

/-- Where an access is performed, or the cause that stops it at issue (R199, R317, R328). `pol` is the policy of a device
address (R204): 0 normal, 1 stream, 2 L1-bypass, 3 persist. -/
inductive Place where
  | bank (cl off : Nat)
  | home (ia : Nat) (w : Window) (pol : Nat)
  | remote (member ia : Nat) (w : Window)
  | bad (cause : Nat)
  deriving DecidableEq, Repr, Inhabited

/-- The identity of a synchronisation object (R255). -/
inductive ObjId where
  | lockDev (member ia : Nat)
  | lockSpad (cl off : Nat)
  | phaser (cl off : Nat)
  | timeline (eng : Nat)
  | pool
  deriving DecidableEq, Repr, Inhabited

/-- A binding entry (R256, R305). -/
structure Bind where
  obj   : ObjId
  raw   : Word               -- the object as given
  base  : Word
  ctl   : Word               -- LEN, SCOPE and KIND as given
  spans : List (Nat × Nat)   -- IA ranges fixed when filled: start, bytes
  deriving DecidableEq, Repr, Inhabited

/-- A captured engine command (R177 to R181). -/
structure Cmd where
  instr   : Instr
  g       : Nat
  eng     : Nat
  n       : Word
  regs    : List Word        -- registers 0 to 15 of the engine
  fmts    : List Syl         -- f0 to f7
  qa      : Word
  qb      : Word
  win     : List Window
  world   : Word
  ins     : List (Nat × Nat) -- scratchpad ranges read: first and last byte
  outs    : List (Nat × Nat)
  taint   : List (Nat × Nat) -- bytes a store overlapped (R181)
  rng     : Word             -- VRNG before the draws (R191)
  aux     : List Word        -- control-block contents read at capture
  tenure  : Nat              -- tenure in which the matrix queue accepted it
  at_     : Nat              -- number of the step of its capture
  deriving DecidableEq, Repr, Inhabited

/-- A command of the X slot as it waits for the memory operations before it (R224, R264, R303): an engine command still to
be entered, a badger message, a phaser or task command, one with no effect left but its completion, a CBSYNC, and the acquire
of a TLWAIT that waits for one (R313). -/
inductive SyncCmd where
  | submit (c : Cmd)
  | bmsg (c : Cmd)
  | phreg (cl off : Nat)
  | phdrop (cl off : Nat)
  | phsig (cl off : Nat)
  | phwait (cl off : Nat)
  | tkget (d : Nat)
  | tkdone
  | done
  | tlwait
  | cbsync (spans : List (Nat × Nat))
  deriving DecidableEq, Repr, Inhabited

/-- The kinds of operation of the memory queue: those of the L and S slots (R221), LDF apart, the function-table read of a
CALLT, which a CBSYNC holds (R313), and the X-slot commands that follow them, with engine and number (for a TLWAIT, the value
waited for). -/
inductive MemKind where
  | load (ty : Option ITy)              -- of an integer type, or of 32 bytes
  | store (n : Nat)
  | ldv
  | vget
  | casv
  | atom (code : Nat) (w64 : Bool)
  | stf
  | rel
  | probe
  | fence (sc : Scope)
  | callt
  | sync (e : Nat) (n : Word) (c : SyncCmd)
  deriving DecidableEq, Repr, Inhabited

/-- A memory operation that has issued: its place, its destination D, its operands (the data stored, and the second operand of
a pair or the 32 bytes of STVEC), the LDF sent last before it, and the bindings that apply to it (R305). -/
structure MemOp where
  kind  : MemKind
  ord   : Ord
  place : Place
  dest  : Nat
  x     : Word
  y     : Vec
  syl   : Syl
  slot  : Nat
  step  : Nat
  ldf   : Nat
  binds : List (Option Bind)
  deriving DecidableEq, Repr, Inhabited

/-- How an operation that is unfinished at a stop is treated (R112, R242): completed, recorded with words 2-3, words
4-5 and K, part of a transfer's record (R147), or left to complete in handler mode (R183). -/
inductive RecForm where
  | completed
  | recorded (opa opb : Word) (keep : Bool)
  | transfer
  | stays
  deriving DecidableEq, Repr, Inhabited

/-- An operation that has issued and whose bound has not passed (R19 to R23). -/
structure Op where
  syl    : Syl
  slot   : Nat
  bimm   : BitVec 12
  step   : Nat
  bound  : Nat
  dests  : List RegN         -- registers undefined inside the bound
  wr     : List Wr           -- writes still to come, without those superseded (R21)
  flags  : Byte
  landed : Bool
  late   : Bool              -- of variable latency (R23)
  form   : RecForm
  ldv    : Option VPair      -- the pair that joins a validation set at landing (R227)
  check  : Option VSet       -- the set a VALSET took (R228)
  sup    : List RegN         -- destinations superseded by a younger landing (R348)
  hold   : Vec               -- second operand kept unseen (R242)
  mem    : Option MemOp      -- a memory operation that waits in the memory queue or at its slice (R206, R224)
  first  : Bool              -- it was sent at a stop and lands before the handler's first bundle (R242)
  away   : Option Nat        -- the remote member that it was performed at (R385)
  deriving DecidableEq, Repr, Inhabited

/-- The kinds of transfer (R142). -/
inductive XferKind where
  | br | call | callt | ret | bswap
  deriving DecidableEq, Repr, Inhabited

/-- A transfer that has issued and not reached its target (R142 to R150). -/
structure Xfer where
  kind   : XferKind
  syl    : Syl
  step   : Nat
  left   : Nat               -- delay bundles still to issue
  target : Word              -- target, or the entry address of a CALLT whose entry has not arrived
  home   : Word              -- address of the transfer's bundle
  fall   : Word              -- address of the bundle that follows the second delay bundle, once it is known
  arm_   : Bool              -- fetch is on the predicted arm (R146)
  p      : Nat
  neg    : Bool
  arm    : Bool
  val    : Option Byte       -- the value v of R145 once its writers are known
  entry  : Option (Word × Word) -- the CALLT entry read at issue: target, signature and reserved bits
  landed : Bool              -- the CALLT entry has arrived
  sig    : BitVec 12
  lost   : List RegN        -- destinations that a younger landing has written (R348)
  blocked : Bool            -- a stall on its arm has become a late-result block (R146)
  deriving DecidableEq, Repr, Inhabited

/-- The state of the active LOOP (R151). -/
structure LoopSt where
  start : Word
  size  : Nat                -- bundles in the body
  pos   : Nat
  cnt   : List (BitVec 32)
  deriving DecidableEq, Repr, Inhabited

/-- A tentative bundle on a predicted arm (R146). -/
structure Tent where
  addr  : Word
  stop  : Bool
  entry : Bool               -- holds a commit-buffer entry
  deriving DecidableEq, Repr, Inhabited

/-- What a stop sets aside (R345). -/
structure Aside where
  vset : VSet
  loop : Option LoopSt
  xfer : Option Xfer         -- re-armed by a reissue that then faulted (R349)
  step : Nat                 -- step of the handler's first bundle
  deriving DecidableEq, Repr, Inhabited

/-- What the machine keeps of a record it wrote (R348, R351, R242, R243). -/
structure Written where
  step : Nat                 -- step and slot of its syllable (R344)
  slot : Nat
  w0   : Syl
  w1   : Syl
  w6   : Syl
  w7   : Syl
  opa  : Word
  opb  : Word
  bimm : BitVec 12
  hold : Vec
  addr : Word                -- address of the bundle of a commit-buffer entry
  set  : Option VSet
  sup  : List RegN
  ldf  : Nat                 -- the LDF it stands for
  xfer : Option Xfer
  deriving DecidableEq, Repr, Inhabited

/-- A syllable to be executed: from a bundle, from the record queue or from the commit buffer. `ov` holds the captured
words that take the place of operands A and B. -/
structure Todo where
  instr : Instr
  slot  : Nat
  syl   : Syl
  bimm  : BitVec 12
  step  : Nat
  ov    : Option (Word × Word)
  rec_  : Option Written
  deriving DecidableEq, Repr, Inhabited

/-- A RESUME in progress (R349): whether the handler's operations are still awaited, the records still to be reissued, the LDF
records reissued before them, and the step of the handler's first bundle. -/
structure Redo where
  start : Bool
  todo  : List Todo
  again : List Written
  step  : Nat
  deriving DecidableEq, Repr, Inhabited

/-- A phaser record (R301). -/
structure PhRec where
  phase : Word
  nreg  : BitVec 32
  narr  : BitVec 32
  nnext : BitVec 32
  deriving DecidableEq, Repr, Inhabited

/-- A phaser registration (R302). -/
structure PhReg where
  cl   : Nat
  off  : Nat
  owed : Word
  deriving DecidableEq, Repr, Inhabited

/-- Where an LDF stands (R210, R235). -/
inductive LdfAt where
  | sent | deferred | answering | answered
  deriving DecidableEq, Repr, Inhabited

/-- An LDF that no FWAIT has covered (R235, R311, R312). -/
structure Ldf where
  id     : Nat
  syl    : Syl
  step   : Nat
  dest   : Nat
  va     : Word
  ia     : Nat
  member : Nat
  world  : Byte
  at_    : LdfAt
  val    : Word
  kind   : Nat               -- 0 value, 1 NACK, 2 abort (R312)
  time   : Nat               -- clock of the answer
  gone   : Bool              -- its destination is no longer to be written (R350, R354)
  deriving DecidableEq, Repr, Inhabited

/-- The monitor of an MWAIT (R239). -/
structure Monitor where
  line  : Nat
  since : Nat
  limit : Nat
  woken : Bool
  deriving DecidableEq, Repr, Inhabited

/-- The pending wait of a PHSW (R303). -/
structure PhWait where
  cl    : Nat
  off   : Nat
  phase : Word
  syl   : Syl
  step  : Nat
  ptr   : Word
  deriving DecidableEq, Repr, Inhabited

/-- The device output ranges of a completed command of an engine (R265): its number, the scope of its TLWAIT, and the
ranges as IA and bytes. -/
structure OutDev where
  eng   : Nat
  n     : Word
  scope : Scope
  spans : List (Nat × Nat)
  deriving DecidableEq, Repr, Inhabited

/-- What a hardware context is doing (R15, R16, R354). -/
inductive Status where
  | idle | ready | waiting | fatal | exited | drained
  deriving DecidableEq, Repr, Inhabited

/-- One hardware context (R28). -/
structure Ctx where
  status  : Status
  pc      : Word
  s       : Vector Word 32
  v       : Vector Vec 32
  p       : Vector Byte 48
  q       : Vector Word 16
  f       : Vector Syl 8
  l       : Vector (BitVec 32) 6
  bt      : Vector Word 4
  win     : Vector Window 8
  epc     : Word
  estat   : Word             -- without HM, which `hm` holds
  thv     : Word
  slim    : Word
  ftb     : Word
  rqb     : Word
  rqn     : Word
  world   : Word
  rngs    : Word
  safeord : Word
  hm      : Bool
  drain   : Bool             -- in drain mode (R354)
  eng     : Vector (Vector Word 64) 10
  tl      : Vector Word 10
  done    : List (Nat × Word) -- (engine, number) completed beyond the prefix (R178)
  vset    : VSet
  loop    : Option LoopSt
  steps   : Nat
  pend    : List Op          -- oldest first
  xfer    : Option Xfer
  tent    : List Tent
  aside   : Option Aside
  written : List Written
  regs    : List PhReg
  binds   : List (Option Bind) -- 16 entries; trailing empty ones may be absent
  ldfs    : List Ldf
  nb      : Nat
  nextLdf : Nat
  task    : Option Nat
  monitor : Option Monitor
  phsw    : Option PhWait
  waitPh  : Option (Nat × Nat × Word × Nat) -- phaser and phase that the blocked bundle waits for (R301), and when it blocked
  redo    : Option Redo
  ending  : Bool             -- it has exited, and R286 waits for the commands before its EXIT
  yielded : Bool
  backoff : Option Nat       -- clock at which an FWAIT's back-off ends
  skipBp  : Bool
  async   : Option Nat       -- cause of a pending asynchronous fatal stop
  report  : List (Nat × Nat × Nat) -- scope-checker reports due: scope, releasing context, IA of the line (R373)
  blocked : Option Nat       -- clock at which the present block began
  outDev  : List OutDev
  retSeq  : Word
  cause   : Nat              -- cause of the fatal stop taken
  deriving DecidableEq, Repr, Inhabited

/-- What one task has buffered in an L1 line (R292): the context that holds it, its bytes, and the default class of the window
of the last of its stores (R206). -/
structure TaskBuf where
  g    : Nat
  mask : BitVec 256
  data : Mem
  cls  : BitVec 2
  deriving DecidableEq, Repr, Inhabited

/-- A line of an L1 (R204, R292); byte masks have bit i for byte i. -/
structure L1Line where
  data  : Mem                -- the bytes as the core's loads see them
  valid : BitVec 256
  dirty : BitVec 256         -- bytes that stores outside tasks have written and that have not gone home
  pdata : Mem                -- the values of the dirty bytes
  bufs  : List TaskBuf
  by_   : Tab (BitVec 256)   -- the dirty bytes each context has stored to since its last release (R322)
  all_  : Tab (BitVec 256)   -- the dirty bytes each context has stored to
  cls   : BitVec 2           -- default class of the window of the last store outside tasks (R206)
  pol   : Nat                -- policy of the last access (R204)
  lru   : Nat
  deriving DecidableEq, Repr, Inhabited

/-- An entry of the tile dependency table (R180). -/
structure TdtEntry where
  cmd     : Cmd
  started : Bool
  deriving DecidableEq, Repr, Inhabited

/-- A commit-buffer entry (R146, R182). -/
structure CbEntry where
  g        : Nat
  syl      : Syl
  bimm     : BitVec 12
  opa      : Word
  opb      : Word
  hold     : Vec             -- further operands (the object and base of a BIND)
  step     : Nat
  addr     : Word            -- address of its bundle (R371)
  released : Bool
  deriving DecidableEq, Repr, Inhabited

/-- What a safe-point table says of a bundle, beside its ordinal (R82): the live registers and the frame. -/
structure SafeMap where
  slive : BitVec 32
  vlive : BitVec 32
  plive : BitVec 48
  frame : BitVec 32
  deriving DecidableEq, Repr, Inhabited

/-- One control core (R29). -/
structure Core where
  ispad   : Mem
  undef   : List (Nat × Nat) -- start and length of undefined instruction bytes (R249)
  aRun    : Bool
  bRun    : Bool
  l1      : Tab L1Line       -- keyed by (IA / 256) * 256 + world
  tdt     : List TdtEntry
  cbuf    : List CbEntry
  loopBuf : Tab (List Byte)  -- bundles held, by address
  loopOf  : Nat              -- the context they are held for
  world   : Byte
  running : Option Nat       -- hardware context x with the issue slot
  last    : Nat              -- hardware context that left last
  stalled : Option Nat       -- clock at which the arm stall began (R146)
  smap    : Tab (BitVec 32)  -- safe-point ordinal by bundle address (R366)
  lives   : Tab SafeMap      -- what a safe-point table says of those bundles (R82)
  fenced  : Bool
  frozen  : Nat              -- clock up to which a sample freezes issue (R371)
  deriving DecidableEq, Repr, Inhabited

/-- The operand latch (R164, R187). -/
structure Latch where
  rows  : Mem                -- byte b of row r at r * 256 + b
  ty    : Option FTy
  owner : Option (Nat × Nat) -- context and tenure
  deriving DecidableEq, Repr, Inhabited

/-- A range of the scoreboard (R247). -/
structure BoardRange where
  lo    : Nat
  hi    : Nat
  dest  : Bool
  core  : Nat
  g     : Nat
  n     : Word
  deriving DecidableEq, Repr, Inhabited

/-- An entry of the near combiner (R234). -/
structure Comb where
  ia     : Nat
  member : Nat
  world  : Byte
  op     : Nat
  w64    : Bool
  base   : Word
  pend   : Word
  count  : Nat
  since  : Nat
  g      : Nat
  deriving DecidableEq, Repr, Inhabited

/-- A counter that has wrapped, until its record is written (R371): the counter, the bundle's context, address and step, and
SAFEORD and the reference clock at the event. -/
structure Hit where
  cnt  : Nat
  g    : Nat
  addr : Word
  step : Nat
  ord  : Nat
  time : Nat
  deriving DecidableEq, Repr, Inhabited

/-- A sampled request that has not landed or been performed (R372): the counter, and the context, bundle address, step and
slot of the memory syllable. -/
structure Sample where
  cnt  : Nat
  g    : Nat
  addr : Word
  step : Nat
  slot : Nat
  deriving DecidableEq, Repr, Inhabited

/-- The debug block of a cluster (R365). -/
structure Dbg where
  bp      : Vector Word 8
  step    : Word
  owlBase : Word
  owlSize : Word
  owlHead : Word
  owlRead : Word
  owlCtl  : Word
  cnt     : Vector Word 4
  retBase : Word
  lost    : Nat
  sample  : List Sample
  hits    : List Hit
  deriving DecidableEq, Repr, Inhabited

/-- One cluster (R30). -/
structure Cluster where
  spad    : Mem
  acc     : Tab Syl          -- cell of row r and column c at r * 128 + c; an unlisted cell is 0
  holder  : Option Nat
  tenure  : Nat              -- tenures so far
  runN    : Nat
  runT    : Nat
  paired  : Bool             -- an MGATH has been accepted and its consumer has not (R159)
  reqs    : List Nat
  mq      : List Cmd
  latch   : Latch
  vq      : List Cmd
  active  : Tab PhRec        -- the records of active phasers as their engine keeps them, by offset (R269, R302)
  broken  : List Nat         -- those whose records a context has stored into since (R301)
  board   : List BoardRange
  comb    : List Comb
  crew    : Option (Nat × Nat) -- gang and crew index
  dbg     : Dbg
  deriving DecidableEq, Repr, Inhabited

/-- A line resident in an L2 slice (R205 to R208). -/
structure Line where
  ver    : Word
  cls    : BitVec 2
  world  : Byte
  tenant : Nat
  data   : Mem               -- by byte offset; ciphertext for a protected world (R207)
  filled : BitVec 4          -- sectors present
  dirty  : BitVec 4
  poison : BitVec 4
  lru    : Nat
  deriving DecidableEq, Repr, Inhabited

/-- An entry of the deferral buffer (R210). -/
structure Defer where
  g     : Nat
  id    : Nat
  ia    : Nat
  world : Byte
  deriving DecidableEq, Repr, Inhabited

/-- An event of a badger core (R212 to R214). -/
structure BEvent where
  kind   : Nat               -- 0 miss, 1 fill, 2 evict, 3 msg
  ia     : Nat
  info   : Word
  ver    : Word
  msg0   : Word
  msg1   : Word
  tenant : Nat
  g      : Nat               -- sender of a msg
  n      : Word              -- its ENG 8 number
  world  : Byte              -- world of the reply word
  deriving DecidableEq, Repr, Inhabited

/-- An installed badger image (R212, R216). -/
structure Image where
  tenant  : Nat
  bytes   : List Byte
  entries : List (Option Nat) -- entry offsets for miss, fill, evict, msg
  enabled : Bool
  deriving DecidableEq, Repr, Inhabited

/-- The RV64IMAC core that runs a handler (R214): its program counter, its registers, and the bytes that an LR has
reserved: address and number. -/
structure Rv where
  pc   : Word
  x    : Vector Word 32
  resv : Option (Nat × Nat)
  deriving DecidableEq, Repr, Inhabited

/-- What a handler asks of its slice (R214), once the code has come to it: a read of RDATA into register rd, a write of
WDATA, PFETCH or DONE, or the abort that it has brought on (R215). -/
inductive PortReq where
  | rdata (rd : Nat)
  | wdata (v : Word)
  | pfetch (ia : Word)
  | done
  | abort
  deriving DecidableEq, Repr, Inhabited

/-- A handler in progress (R214, R215), with its ports RADDR, WADDR, REPLY and STATUS. -/
structure Handler where
  ev    : BEvent
  since : Nat                -- reference clock of its start
  rv    : Rv
  req   : Option PortReq
  raddr : Word
  waddr : Word
  reply : Option Word
  err   : Bool
  deriving DecidableEq, Repr, Inhabited

/-- A sector fill the slice waits for (R208, R272). -/
structure Fill where
  ia     : Nat
  world  : Byte
  cls    : BitVec 2
  tenant : Nat
  g      : Nat
  deriving DecidableEq, Repr, Inhabited

/-- Who learns how a waiting write ended: its context, which takes the fatal stop of a page fault or of poison (R322), nobody,
or a tenant, by the notice that follows the write (R294). -/
inductive LateEnd where
  | ctx
  | nobody
  | notice (tenant code : Nat) (detail : Word)
  deriving DecidableEq, Repr, Inhabited

/-- A transaction that waits for its slice or for the memory side (R206, R323): a write of cells of one line with the
kind of its answers (R312), or a .unp atomic of a combiner's flush. -/
inductive LateTxn where
  | write (line : Nat) (world : Byte) (cls : BitVec 2) (tenant g : Nat) (tag : Scope × Nat) (cells : List (Nat × Byte))
      (must : Bool) (kind : Nat) (fin : LateEnd)
  | atom (ia : Nat) (world : Byte) (cls : BitVec 2) (tenant g code : Nat) (w64 : Bool) (x : Word)
  deriving DecidableEq, Repr, Inhabited

/-- One L2 slice (R31). -/
structure Slice where
  hwm     : Word
  lines   : Tab Line         -- by line number of the IA
  clsq    : Vector Word 16
  tags    : Tab (Scope × Nat) -- the scope checker's tags, by line number (R373)
  defer   : List Defer       -- oldest first
  fills   : List Fill
  coming  : List BEvent      -- messages on their way
  events  : List BEvent      -- oldest first
  images  : Tab Image        -- by place, 0 to 7
  hmem    : Mem              -- handler memory, 64 KiB (R212)
  handler : Option Handler
  drops   : Word
  nacks   : Word
  aborts  : Word
  overrun : Vector Nat 16
  deriving DecidableEq, Repr, Inhabited

/-- A gang launch record as read at acceptance (R279). -/
structure LaunchRec where
  bytes : List Byte          -- 192 bytes
  deriving DecidableEq, Repr, Inhabited

/-- A task of a pool as the task unit keeps it (R291 to R294). -/
structure TaskSt where
  ready  : Option Nat        -- ready time while on the ready queue
  first  : Nat               -- ready time it keeps on a failure
  holder : Option Nat
  failed : List Nat          -- cores on which it has failed
  done   : Bool
  prio   : Nat
  deriving DecidableEq, Repr, Inhabited

/-- A task pool (R291, R307). -/
structure Pool where
  desc   : Word
  base   : Word
  fault  : Word
  tasks  : List TaskSt
  halted : Bool
  wins   : List Window
  world  : Word
  deriving DecidableEq, Repr, Inhabited

/-- What the device keeps of a saved crew (R355): the draw that stands for the bytes it wrote of its own layout, each
member's context, the cores and the cluster. -/
structure SavedCrew where
  draw    : Nat
  ctxs    : List (Nat × Ctx)
  cores   : List Core
  cluster : Nat
  active  : Tab PhRec
  broken  : List Nat
  spad    : Mem
  acc     : Tab Syl
  deriving DecidableEq, Repr, Inhabited

/-- How far a gang has come (R280 to R288, R353 to R356). -/
inductive Phase where
  | waiting | running | draining | saved | over
  deriving DecidableEq, Repr, Inhabited

/-- What fills half A at a placement (R282), with the safe points of its bundles (R82, R366). -/
structure Half where
  words : List Nat
  smap  : Tab (BitVec 32)
  lives : Tab SafeMap
  deriving DecidableEq, Repr, Inhabited

/-- What a gang first started with, for a relaunch that finds it no longer (R288, log 121): WINTAB, half A and the pool. -/
structure GangStart where
  wintab : List Byte
  half   : Half
  pool   : Option Pool
  deriving DecidableEq, Repr, Inhabited

/-- A gang from the acceptance of its LAUNCH (R279) on. -/
structure Gang where
  id      : Nat
  queue   : Nat
  tenant  : Nat
  rec_    : LaunchRec
  phase   : Phase
  head    : Option Nat       -- clock at which it reached the head of its queue
  tested  : Bool             -- R280 has been tested (LAUNCH)
  reserving : Bool
  block   : List Nat         -- clusters it occupies, in crew order
  target  : List Nat         -- block it reserves while waiting
  starts  : Nat              -- started entries written
  first   : Option GangStart
  pool    : Option Pool
  image   : List Byte        -- its badger image section, empty where it names none
  save    : Word             -- save area of a pre-emption
  dtab    : List (Word × Word × Word)
  saved   : Tab SavedCrew    -- by crew index
  fell    : List Nat         -- contexts whose drain was the fallback stop
  deriving DecidableEq, Repr, Inhabited

/-- A command accepted from a queue (R275, R276). -/
structure QCmd where
  op      : Nat
  seq     : Word
  bytes   : List Byte        -- the 64-byte entry
  gid     : Nat              -- its number: the gang's for a LAUNCH
  started : Bool
  deriving DecidableEq, Repr, Inhabited

/-- A command queue (R274). -/
structure Queue where
  base  : Word
  size  : Word
  head  : BitVec 32
  tail  : BitVec 32
  ctl   : Word
  jbase : Word
  jsize : Word
  jhead : BitVec 32
  jread : BitVec 32
  jlost : BitVec 32
  jbad  : Bool               -- a write to the journal ring has met a page fault (R289)
  jwait : List (List Byte)   -- entries that wait to be written, because the memory side holds the write (R289, R323)
  cmds  : List QCmd          -- accepted and not retired, oldest first
  deriving DecidableEq, Repr, Inhabited

/-- A key slot (R324, R330, R332). -/
structure KeySlot where
  world   : Byte
  tenant  : Nat
  mem     : BitVec 512       -- memory key pair
  kt      : Option (BitVec 256)
  content : Option (BitVec 512) -- content and transit keys, derived from kt (R330)
  transit : Option (BitVec 512)
  mr      : BitVec 256
  digests : List (BitVec 256)
  deriving DecidableEq, Repr, Inhabited

/-- A Dalter link (R382, R383). -/
structure Link where
  up      : Bool
  txKey   : BitVec 256
  rxKey   : BitVec 256
  txId    : BitVec 32
  rxId    : BitVec 32
  txCount : Nat
  rxCount : Nat
  txSeq   : BitVec 12
  rxSeq   : BitVec 12        -- last received in order
  unacked : List (List Byte) -- flits sent and not acknowledged, oldest first
  held    : List (List Byte × List Byte) -- header and payload of flits that wait for a place
  inbox   : List (List Byte) -- flits delivered to this device, header and plaintext
  replays : List Nat         -- how often each of the kept flits has been replayed, oldest first
  training : Bool
  nak      : Bool            -- a NAK waits for a place (R383)
  deriving DecidableEq, Repr, Inhabited

/-- The status of a mailbox answer (R324, R330, R333). -/
inductive MailStat where
  | ok | refused | exhausted | keyslotFull
  deriving DecidableEq, Repr, Inhabited

/-- What leaves the module (R378, R330, R335, R383, R388, R200), the accesses of host memory with their requester (R375), and
a completion with Unsupported Request (R374). -/
inductive Out where
  | msix (fn : Option Nat) (vector : Nat)
  | mailbox (status : MailStat) (answer : List Byte)
  | flit (link : Nat) (bytes : List Byte)
  | sideband (answer : List Byte)
  | remoteWrite (member addr : Nat) (data : List Byte) (world : Byte)
  | remoteOp (member addr : Nat) (syl : Syl) (operands : List Byte) (world : Byte)
  | hostWrite (fn : Option Nat) (addr : Nat) (data : List Byte)
  | hostRead (fn : Option Nat) (addr n : Nat)
  | unsupported (fn : Option Nat) (off n : Nat)
  deriving DecidableEq, Repr, Inhabited

/-- A participant's COLL in progress (R192 to R195). -/
structure CollWait where
  seq    : Word
  die    : Nat
  core   : Nat
  cmd    : Cmd
  deriving DecidableEq, Repr, Inhabited

/-- A collective that has failed (R195): its SEQ, the COLLST of every participant, and the contexts of this module that its
group names and that have still to arrive. -/
structure CollEnd where
  seq  : Word
  stat : Nat
  left : List Nat
  deriving DecidableEq, Repr, Inhabited

/-- A reader's copy of a control block (R269). -/
structure CbCopy where
  reader : Nat
  gid    : Nat               -- the gang that caused the read
  world  : Byte
  block  : Nat × Nat         -- the block it is a part of: first IA and bytes
  ia     : Nat
  bytes  : List Byte
  deriving DecidableEq, Repr, Inhabited

/-- Pod evidence being gathered (R335). -/
structure Gather where
  world   : Byte
  nonce   : BitVec 256
  records : List (Nat × List Byte)
  deriving DecidableEq, Repr, Inhabited

/-- An entry of an MSI-X table (R378): the message's address and data, and whether the vector is masked. -/
structure MsixEntry where
  addr   : Word
  data   : BitVec 32
  masked : Bool
  deriving DecidableEq, Repr, Inhabited

/-- The capabilities of one PCI Express function (R374): its MSI-X table with the enable and the mask of the function and its
pending bits, device control, ACS control, the status and the mask of AER's uncorrectable errors, and on the PF SR-IOV control:
VF Enable in bit 0 and NumVFs in bits 31:16 (log 119). -/
structure PcieFn where
  enable  : Bool
  fmask   : Bool
  table   : Tab MsixEntry
  pending : BitVec 64
  devCtl  : BitVec 16
  acsCtl  : BitVec 16
  aerStat : BitVec 32
  aerMask : BitVec 32
  sriov   : BitVec 32
  deriving DecidableEq, Repr, Inhabited

/-- The management space's registers (R375, R376, R379, R381, R387) and firmware's own state. -/
structure Mgmt where
  stage    : Nat
  ready    : Bool
  fail     : Bool
  throt    : Bool
  pcap     : Nat
  clkMHz   : Nat
  thCount  : Nat
  queues   : Tab Queue
  qassign  : Tab Byte
  owners   : Tab Byte
  grants   : Tab Word        -- word i of the block at 0x02_0100
  ageb     : Nat
  slots    : List (List Byte)  -- slot tables in force, dies A and B (absent entries are 0)
  slotsNew : List (List Byte)  -- as written, in force at the next frame
  ptroot   : Word
  tinvBase : Word
  tinvLen  : Word
  tbusy    : Bool
  forced   : Tab Word        -- forced-refresh clocks by controller
  postponed : Tab Nat        -- postponed refreshes by controller * 2^16 + bank
  dumpBase : Word
  dumpHead : Nat
  preempt  : Word
  pstate   : Nat
  pcode    : Nat
  cfence   : BitVec 64
  cfenceFw : BitVec 64       -- bits that firmware set
  pcie     : Tab PcieFn      -- the PF as 0, VF v as v + 1
  rr       : List Nat        -- queue served last by each die
  arbiter  : Nat             -- die granted last
  nextGid  : Nat
  deriving DecidableEq, Repr, Inhabited

/-- The trust controller and the pod (R324 to R335, R382 to R385). -/
structure Trust where
  slots     : List KeySlot
  keyDraw   : Option Nat     -- draw of the encapsulation key handed out (R330)
  xmss      : Nat            -- next one-time index (R333)
  fwm       : Option (BitVec 256) -- measurement of the firmware in force after an update (R334, R388)
  fwNext    : Option (BitVec 256) -- that of an update accepted, in force from the next reset on (R388)
  mbox      : List Byte      -- the mailbox block as it reads (R375, log 120)
  gather    : Option Gather
  links     : Tab Link
  roster    : List Byte      -- roster block as written (R384)
  members   : List (BitVec 256) -- DEVIDs of the formed roster, in member order
  myIdx     : Nat
  routes    : Tab Nat        -- link by member
  deriving DecidableEq, Repr, Inhabited

/-- A syllable fault noted while a bundle issues (R340). -/
structure SylFault where
  slot  : Nat
  cause : Nat
  syl   : Syl
  opa   : Word
  opb   : Word
  hold  : Vec
  keep  : Bool
  bound : Nat
  ldv   : Bool
  dests : List RegN
  xfer  : Option Xfer        -- the transfer that a faulting CALLT stands for
  deriving DecidableEq, Repr, Inhabited

/-- Effects that take place at the end of a bundle, in slot order (R126, R175, R198, R228, R336). -/
inductive EndEff where
  | mtc (r : CReg) (v : Word)
  | erw (e n : Nat) (v : Word)
  | fmt (f : Nat) (d : Syl)
  | win (n : Nat) (part : Bool) (val : Word)
  | vclr
  | rngs (v : Word)
  | covered (ids : List Nat)  -- LDFs that an FWAIT has covered (R311)
  deriving DecidableEq, Repr, Inhabited

/-- What is being issued. -/
inductive Mode where
  | none | bundle | reissue | release
  deriving DecidableEq, Repr, Inhabited

/-- The bundle being issued (log 18): its context is `State.cur`. -/
structure Iss where
  mode   : Mode
  addr   : Word
  len    : Nat
  stop   : Bool
  bimm   : BitVec 12
  slot   : Nat
  syl    : Syl
  step   : Nat
  ov     : Option (Word × Word)
  rec_   : Option Written
  todo   : List Todo
  ends   : List EndEff
  faults : List SylFault
  trap   : Option (BitVec 12)
  exit   : Bool
  resume : Bool
  moved  : Bool              -- the PC has been set (a NOP bundle or a loop that is not entered)
  again  : List Written      -- LDF records reissued before a fault, to be recorded again (R349)
  wait   : Bool              -- the syllable being reissued cannot be performed yet (R349)
  deriving DecidableEq, Repr, Inhabited

/-- A leaf (R321). -/
structure Pte where
  v     : Bool
  w     : Bool
  fx    : Bool
  mig   : Bool
  cls   : BitVec 2
  tier  : Bool
  world : Byte
  pa    : Nat
  deriving DecidableEq, Repr, Inhabited

/-- The module. -/
structure State where
  ctxs     : Tab Ctx
  cores    : Tab Core
  clusters : Tab Cluster
  slices   : Tab Slice
  hbm      : Mem
  far      : Mem
  tlb      : Tab (Option Pte) -- page-table entries that the memory side keeps, by page number (R322)
  late     : List LateTxn    -- transactions that wait for their slice or for the memory side, oldest first
  poison   : List Nat        -- poisoned 256-byte sectors of memory, by IA / 256 (R219)
  hostMem  : Mem             -- host memory, as the device reads it (R274)
  hostBad  : List Nat        -- 4 KiB pages of host memory whose accesses complete with an error (R275)
  mg       : Mgmt
  trust    : Trust
  gangs    : List Gang
  colls    : List CollWait
  collEnds : List CollEnd
  collLost : List Nat        -- contexts whose gang has failed, until the next gang takes their place (R195)
  cbCopies : List CbCopy
  outbox   : List Out
  clock    : Nat             -- arithmetic clocks since READY
  refClock : Nat             -- reference clocks since READY
  refPart  : Nat             -- part of the next one, in 720720ths, a multiple of every legal ratio of the clocks (R387)
  agenda   : List Instr      -- the model's own: what the outside and the other agents do next (log 3)
  turn     : Nat             -- the model's own: the core that issues when the agenda is empty (log 3)
  fresh    : Nat             -- the model's own: number of the step, which counts free values (log 4)
  rnd      : Nat             -- the model's own: random draws made (log 12)
  cur      : Nat             -- the model's own: context of the bundle being issued (log 18)
  iss      : Iss
  deriving DecidableEq, Repr, Inhabited

/-- A validation set as it is after VCLR (R228). -/
def VSet.empty : VSet := ⟨[], false⟩

/-- A context that no crew has taken (log 5). -/
def Ctx.idle : Ctx where
  status := .idle
  pc := 0
  s := Vector.replicate 32 0
  v := Vector.replicate 32 0
  p := Vector.replicate 48 0
  q := Vector.replicate 16 0
  f := Vector.replicate 8 0
  l := Vector.replicate 6 0
  bt := Vector.replicate 4 0
  win := Vector.replicate 8 ⟨0, 0⟩
  epc := 0
  estat := 0
  thv := 0
  slim := 0
  ftb := 0
  rqb := 0
  rqn := 0
  world := 0
  rngs := 0
  safeord := 0
  hm := false
  drain := false
  eng := Vector.replicate 10 (Vector.replicate 64 0)
  tl := Vector.replicate 10 0
  done := []
  vset := VSet.empty
  loop := none
  steps := 0
  pend := []
  xfer := none
  tent := []
  aside := none
  written := []
  regs := []
  binds := []
  ldfs := []
  nb := 0
  nextLdf := 0
  task := none
  monitor := none
  phsw := none
  waitPh := none
  redo := none
  ending := false
  yielded := false
  backoff := none
  skipBp := false
  async := none
  report := []
  blocked := none
  outDev := []
  retSeq := 0
  cause := 0

/-- A core before any placement (R380, log 5). -/
def Core.init : Core where
  ispad := []
  undef := []
  aRun := true
  bRun := false
  l1 := []
  tdt := []
  cbuf := []
  loopBuf := []
  loopOf := 0
  world := 0
  running := none
  last := 3
  stalled := none
  smap := []
  lives := []
  fenced := false
  frozen := 0

/-- A debug block at READY (R381). -/
def Dbg.init : Dbg where
  bp := Vector.replicate 8 0
  step := 0
  owlBase := 0
  owlSize := 0
  owlHead := 0
  owlRead := 0
  owlCtl := 0
  cnt := Vector.replicate 4 0
  retBase := 0
  lost := 0
  sample := []
  hits := []

/-- A cluster before any placement (R380, R381). -/
def Cluster.init : Cluster where
  spad := []
  acc := []
  holder := none
  tenure := 0
  runN := 0
  runT := 0
  paired := false
  reqs := []
  mq := []
  latch := ⟨[], none, none⟩
  vq := []
  active := []
  broken := []
  board := []
  comb := []
  crew := none
  dbg := Dbg.init

/-- A slice at READY (R208, R381): HWM 0, no line resident, every quota 16. -/
def Slice.init : Slice where
  hwm := 0
  lines := []
  clsq := Vector.replicate 16 0x10101010#64
  tags := []
  defer := []
  fills := []
  coming := []
  events := []
  images := []
  hmem := []
  handler := none
  drops := 0
  nacks := 0
  aborts := 0
  overrun := Vector.replicate 16 0

/-- A queue at READY (R381). -/
def Queue.init : Queue := ⟨0, 0, 0, 0, 0, 0, 0, 0, 0, 0, false, [], []⟩

/-- A link before bring-up has trained it (log 1). -/
def Link.init : Link := ⟨false, 0, 0, 0, 0, 0, 0, 0, 0, [], [], [], [], false, false⟩

/-- A vector of an MSI-X table at reset: masked (log 119). -/
def MsixEntry.init : MsixEntry := ⟨0, 0, true⟩

/-- A function's capabilities at reset (log 119): payloads of 128 bytes and read requests of 512 are the standard's. -/
def PcieFn.init : PcieFn := ⟨false, false, [], 0, 0x2810, 0, 0, 0, 0⟩

/-- The management space at READY (R381). -/
def Mgmt.init : Mgmt where
  stage := 7
  ready := true
  fail := false
  throt := false
  pcap := 1800
  clkMHz := 1600
  thCount := 0
  queues := []
  qassign := []
  owners := []
  grants := []
  ageb := 4194304
  slots := []
  slotsNew := []
  ptroot := 0
  tinvBase := 0
  tinvLen := 0
  tbusy := false
  forced := []
  postponed := []
  dumpBase := 0
  dumpHead := 0
  preempt := 0
  pstate := 0
  pcode := 0
  cfence := 0
  cfenceFw := 0
  pcie := []
  rr := [31, 63]
  arbiter := 1
  nextGid := 0

/-- The trust controller at READY (R381): every key slot free, the roster empty. -/
def Trust.init : Trust where
  slots := []
  keyDraw := none
  xmss := 0
  fwm := none
  fwNext := none
  mbox := []
  gather := none
  links := []
  roster := []
  members := []
  myIdx := 0
  routes := []

/-- Nothing is being issued. -/
def Iss.none : Iss where
  mode := .none
  addr := 0
  len := 0
  stop := false
  bimm := 0
  slot := 0
  syl := 0
  step := 0
  ov := Option.none
  rec_ := Option.none
  todo := []
  ends := []
  faults := []
  trap := Option.none
  exit := false
  resume := false
  moved := false
  again := []
  wait := false

/-- The module right after reset: READY, with memory zero and nothing placed (R380, R381, logs 1 and 5). -/
def State.reset : State where
  ctxs := []
  cores := []
  clusters := []
  slices := []
  hbm := []
  far := []
  tlb := []
  late := []
  poison := []
  hostMem := []
  hostBad := []
  mg := Mgmt.init
  trust := Trust.init
  gangs := []
  colls := []
  collEnds := []
  collLost := []
  cbCopies := []
  outbox := []
  clock := 0
  refClock := 0
  refPart := 0
  agenda := []
  turn := 0
  fresh := 0
  rnd := 0
  cur := 0
  iss := Iss.none

end Sys2Proof.Machine
end

