-- ==== Sys2Proof/Machine/Data.lean ====
section
/-! DEFINITION. Plain operations on the data of State: sparse tables, memories in canonical form, register files,
little-endian bytes (R6), and the accessors of State's parts. -/

namespace Sys2Proof.Machine
open Sys2Proof

/-! ### Tables -/

/-- Entry k of a table, or what an absent entry stands for. -/
def Tab.get {α : Type} (t : Tab α) (k : Nat) (d : α) : α :=
  match t with
  | [] => d
  | (i, x) :: r => if i = k then x else Tab.get r k d

/-- Entry k, if the table lists it. -/
def Tab.get? {α : Type} (t : Tab α) (k : Nat) : Option α :=
  match t with
  | [] => none
  | (i, x) :: r => if i = k then some x else Tab.get? r k

/-- The table with entry k set, keys kept rising. -/
def Tab.put {α : Type} (t : Tab α) (k : Nat) (x : α) : Tab α :=
  match t with
  | [] => [(k, x)]
  | (i, y) :: r => if k < i then (k, x) :: (i, y) :: r else if i = k then (k, x) :: r else (i, y) :: Tab.put r k x

/-- The table without entry k. -/
def Tab.del {α : Type} (t : Tab α) (k : Nat) : Tab α := t.filter fun e => e.1 != k

/-! ### Memory -/

/-- The byte at an address: what no entry lists reads 0 (R380). -/
def Mem.get (m : Mem) (a : Nat) : Byte :=
  match m with
  | [] => 0
  | (k, b) :: r => if k = a then b else Mem.get r a

/-- Insertion of a nonzero byte, addresses kept rising. -/
def Mem.ins (m : Mem) (a : Nat) (b : Byte) : Mem :=
  match m with
  | [] => [(a, b)]
  | (k, c) :: r => if a < k then (a, b) :: (k, c) :: r else if k = a then (a, b) :: r else (k, c) :: Mem.ins r a b

/-- The memory with one byte written; a byte 0 leaves no entry. -/
def Mem.set (m : Mem) (a : Nat) (b : Byte) : Mem :=
  if b = 0#8 then m.filter fun c => c.1 != a else Mem.ins m a b

/-- The canonical form: addresses strictly rising and no byte 0. -/
abbrev Mem.wf (m : Mem) : Prop := m.Pairwise (fun x y => x.1 < y.1) ∧ ∀ c ∈ m, c.2 ≠ 0#8

/-- n bytes from an address on, lowest first. -/
def Mem.read (m : Mem) (a n : Nat) : List Byte := (List.range n).map fun i => m.get (a + i)

/-- The memory with these bytes written from an address on. -/
def Mem.write (m : Mem) (a : Nat) (bs : List Byte) : Mem :=
  match bs with
  | [] => m
  | b :: r => Mem.write (m.set a b) (a + 1) r

/-- The memory without the bytes from a on, n of them: they read 0. -/
def Mem.clear (m : Mem) (a n : Nat) : Mem := m.filter fun c => !(decide (a ≤ c.1) && decide (c.1 < a + n))

/-! ### Little-endian values (R6) -/

/-- The number that bytes hold, lowest byte first. -/
def leNat : List Byte → Nat
  | [] => 0
  | b :: r => b.toNat + 256 * leNat r

/-- The n low bytes of a number, lowest first. -/
def leBytes : Nat → Nat → List Byte
  | 0, _ => []
  | n + 1, x => BitVec.ofNat 8 x :: leBytes n (x / 256)

/-- A 64-bit word of bytes. -/
def leWord (bs : List Byte) : Word := BitVec.ofNat 64 (leNat bs)

/-- Bits hi:lo of a word, as a number (R6). -/
def bits (w : Word) (hi lo : Nat) : Nat := w.toNat / 2 ^ lo % 2 ^ (hi + 1 - lo)

/-- Bit i of a word. -/
def bit (w : Word) (i : Nat) : Bool := w.getLsbD i

/-- A slice of a list of bytes. -/
def sub (bs : List Byte) (a n : Nat) : List Byte := (bs.drop a).take n

/-- The number in bytes a to a + n − 1. -/
def fld (bs : List Byte) (a n : Nat) : Nat := leNat (sub bs a n)

/-- Do two ranges of first and last byte meet? -/
def meets (x y : Nat × Nat) : Bool := decide (x.1 ≤ y.2) && decide (y.1 ≤ x.2)

/-! ### Register files -/

/-- Element i, or a value for an index that does not exist. -/
def vget {α : Type} {n : Nat} (v : Vector α n) (i : Nat) (d : α) : α := v[i]?.getD d

/-- The file with element i replaced. -/
def vput {α : Type} {n : Nat} (v : Vector α n) (i : Nat) (x : α) : Vector α n := v.setIfInBounds i x

/-! ### Parts of the state -/

/-- Context g (R11). -/
def State.ctx (s : State) (g : Nat) : Ctx := s.ctxs.get g Ctx.idle

/-- The state with context g replaced. -/
def State.setCtx (s : State) (g : Nat) (c : Ctx) : State := { s with ctxs := s.ctxs.put g c }

/-- The context of the bundle being issued. -/
def State.me (s : State) : Ctx := s.ctx s.cur

/-- The state with the current context replaced. -/
def State.setMe (s : State) (c : Ctx) : State := s.setCtx s.cur c

/-- Core number d·128 + c·4 + k. -/
def State.core (s : State) (k : Nat) : Core := s.cores.get k Core.init

/-- The state with a core replaced. -/
def State.setCore (s : State) (k : Nat) (c : Core) : State := { s with cores := s.cores.put k c }

/-- Cluster number d·32 + c. -/
def State.cl (s : State) (k : Nat) : Cluster := s.clusters.get k Cluster.init

/-- The state with a cluster replaced. -/
def State.setCl (s : State) (k : Nat) (c : Cluster) : State := { s with clusters := s.clusters.put k c }

/-- Module slice (R11). -/
def State.slice (s : State) (k : Nat) : Slice := s.slices.get k Slice.init

/-- The state with a slice replaced. -/
def State.setSlice (s : State) (k : Nat) (c : Slice) : State := { s with slices := s.slices.put k c }

/-- Queue q (R274). -/
def State.queue (s : State) (q : Nat) : Queue := s.mg.queues.get q Queue.init

/-- The state with a queue replaced. -/
def State.setQueue (s : State) (q : Nat) (c : Queue) : State :=
  { s with mg := { s.mg with queues := s.mg.queues.put q c } }

/-- The places of a context (R11): g = d·512 + c·16 + k·4 + x. -/
def coreOf (g : Nat) : Nat := g / 4
def clusterOf (g : Nat) : Nat := g / 16
def dieOf (g : Nat) : Nat := g / 512

/-- Member number of a context in its crew (R25): core m mod 4, hardware context m div 4. -/
def memberOf (g : Nat) : Nat := g % 4 * 4 + g / 4 % 4

/-- The context of member m at a cluster (R25). -/
def ctxOfMember (cl m : Nat) : Nat := cl * 16 + m % 4 * 4 + m / 4

/-- The gang with this number. -/
def State.gang? (s : State) (gid : Nat) : Option Gang := s.gangs.find? fun x => x.id == gid

/-- The state with a gang replaced. -/
def State.setGang (s : State) (x : Gang) : State :=
  { s with gangs := s.gangs.map fun y => if y.id = x.id then x else y }

/-- The gang and crew index of a context. -/
def State.gangOf (s : State) (g : Nat) : Option (Gang × Nat) :=
  match (s.cl (clusterOf g)).crew with
  | none => none
  | some (gid, j) => (s.gang? gid).map fun x => (x, j)

/-- Fields of a launch record (R279). -/
def LaunchRec.spad (r : LaunchRec) : Nat := fld r.bytes 24 4
def LaunchRec.localBytes (r : LaunchRec) : Nat := fld r.bytes 28 4
def LaunchRec.crewSize (r : LaunchRec) : Nat := fld r.bytes 20 1
def LaunchRec.shape (r : LaunchRec) : Nat := fld r.bytes 21 1
def LaunchRec.world (r : LaunchRec) : Nat := fld r.bytes 22 1
def LaunchRec.flags (r : LaunchRec) : Nat := fld r.bytes 23 1

/-- Rows and columns of a gang shape (R26). -/
def shapeOf : Nat → Nat × Nat
  | 0 => (1, 1) | 1 => (1, 2) | 2 => (2, 2) | 3 => (2, 4) | _ => (4, 4)

/-- Crews of a gang. -/
def LaunchRec.crews (r : LaunchRec) : Nat := (shapeOf r.shape).1 * (shapeOf r.shape).2

/-- Scratchpad size S, local size and crew size of the gang a context belongs to; without a gang, all are 0. -/
def State.sizes (s : State) (g : Nat) : Nat × Nat × Nat :=
  match s.gangOf g with
  | none => (0, 0, 0)
  | some (x, _) => (x.rec_.spad, x.rec_.localBytes, x.rec_.crewSize)

/-- The cluster of crew j of the gang a context belongs to. -/
def State.crewCluster (s : State) (g j : Nat) : Option Nat :=
  match s.gangOf g with
  | none => none
  | some (x, _) => x.block[j]?

/-- The tenant that owns a cluster (R273, R375), if any. -/
def State.tenantOf (s : State) (cl : Nat) : Option Nat :=
  let b := s.mg.owners.get cl 0#8
  if b.getLsbD 7 then some (b.toNat % 16) else none

/-- The state with a message leaving the module. -/
def State.send (s : State) (o : Out) : State := { s with outbox := s.outbox ++ [o] }

/-- An undefined value (R9) of this step at a place. -/
def State.free (s : State) (place index : Nat) : Vec := Config.free s.fresh place index

end Sys2Proof.Machine
end

