-- ==== Sys2Proof/Machine/Crypto.lean ====
section
/-! DEFINITION. The outside algorithms that the manual names and that can be computed: AES-256 with XTS (IEEE 1619,
R246, R325) and GCM (R330, R331, R382), SHAKE256 (R76, R330 to R335, R384) and CRC-32C (R80, R382). ML-KEM and XMSS
stand in Config (log 12). -/

namespace Sys2Proof.Machine
open Sys2Proof

/-! ### AES-256 -/

/-- Multiplication by x in the field of AES. -/
def xtime (a : Byte) : Byte := (a <<< 1) ^^^ (if a.getLsbD 7 then 0x1B#8 else 0#8)

/-- Product in the field of AES, over the bits of b from i up. -/
def gmulBits (a b : Byte) : Nat → Nat → Byte
  | 0, _ => 0#8
  | n + 1, i => (if b.getLsbD i then a else 0#8) ^^^ gmulBits (xtime a) b n (i + 1)

def gmul (a b : Byte) : Byte := gmulBits a b 8 0

/-- The inverse, a^254. -/
def ginv (a : Byte) : Byte :=
  let a2 := gmul a a
  let a3 := gmul a2 a
  let a6 := gmul a3 a3
  let a12 := gmul a6 a6
  let a15 := gmul a12 a3
  let a30 := gmul a15 a15
  let a60 := gmul a30 a30
  let a120 := gmul a60 a60
  let a126 := gmul a120 a6
  let a127 := gmul a126 a
  gmul a127 a127

/-- The S-box and its inverse. -/
def sbox (a : Byte) : Byte :=
  let b := ginv a
  b ^^^ b.rotateLeft 1 ^^^ b.rotateLeft 2 ^^^ b.rotateLeft 3 ^^^ b.rotateLeft 4 ^^^ 0x63#8
def sboxInv (a : Byte) : Byte :=
  ginv (a.rotateLeft 1 ^^^ a.rotateLeft 3 ^^^ a.rotateLeft 6 ^^^ 0x05#8)

/-- Byte-wise exclusive or. -/
def xorBytes : List Byte → List Byte → List Byte
  | x :: xs, y :: ys => (x ^^^ y) :: xorBytes xs ys
  | _, _ => []

/-- Key words n to 59 of AES-256, each of four bytes, given those before in reverse order. -/
def keyWords : Nat → Nat → Byte → List (List Byte) → List (List Byte)
  | 0, _, _, ws => ws.reverse
  | n + 1, i, rc, ws =>
    let p := ws.headD []
    let old := ws.getD 7 []
    let t := if i % 8 = 0 then
        (match p.map sbox with
        | [a, b, c, d] => [b ^^^ rc, c, d, a]
        | l => l)
      else if i % 8 = 4 then p.map sbox else p
    keyWords n (i + 1) (if i % 8 = 0 then xtime rc else rc) (xorBytes old t :: ws)

/-- A list cut into pieces of n. -/
def chunks {α : Type} (n : Nat) : Nat → List α → List (List α)
  | 0, _ => []
  | k + 1, l => if l.isEmpty then [] else l.take n :: chunks n k (l.drop n)

/-- The 15 round keys of a 32-byte key. -/
def roundKeys (key : List Byte) : List (List Byte) :=
  chunks 16 15 ((keyWords 52 8 1#8 ((chunks 4 8 key).reverse)).flatten)

/-- ShiftRows and its inverse on 16 bytes by column. -/
def shiftRows (l : List Byte) : List Byte :=
  (List.range 16).map fun i => l.getD ((i + 4 * (i % 4)) % 16) 0#8
def shiftRowsInv (l : List Byte) : List Byte :=
  (List.range 16).map fun i => l.getD ((i + 12 * (i % 4)) % 16) 0#8

/-- One column of MixColumns with the coefficients of its first row. -/
def mixColumn (k : List Byte) (c : List Byte) : List Byte :=
  (List.range 4).map fun r =>
    (List.range 4).foldl (fun acc j => acc ^^^ gmul (k.getD ((j + 4 - r) % 4) 0#8) (c.getD j 0#8)) 0#8
def mixColumns (k : List Byte) (l : List Byte) : List Byte := ((chunks 4 4 l).map (mixColumn k)).flatten

/-- AES-256 of one block. -/
def aesEnc (key block : List Byte) : List Byte :=
  match roundKeys key with
  | [] => block
  | k0 :: ks =>
    let step := fun (st : List Byte × Nat) (k : List Byte) =>
      let t := shiftRows (st.1.map sbox)
      (xorBytes (if st.2 = 14 then t else mixColumns [2, 3, 1, 1] t) k, st.2 + 1)
    (ks.foldl step (xorBytes block k0, 1)).1

/-- The inverse of AES-256 of one block. -/
def aesDec (key block : List Byte) : List Byte :=
  match (roundKeys key).reverse with
  | [] => block
  | k14 :: ks =>
    let step := fun (st : List Byte × Nat) (k : List Byte) =>
      let t := xorBytes ((shiftRowsInv st.1).map sboxInv) k
      (if st.2 = 0 then t else mixColumns [14, 11, 13, 9] t, st.2 - 1)
    (ks.foldl step (xorBytes block k14, 13)).1

/-! ### XTS (IEEE 1619) -/

/-- Multiplication of a tweak, 16 little-endian bytes, by α. -/
def mulAlpha (t : List Byte) : List Byte :=
  let n := leNat t
  leBytes 16 ((2 * n) % 2 ^ 128 ^^^ (if n ≥ 2 ^ 127 then 0x87 else 0))

/-- The blocks of a data unit under key 1, the first tweak value given. -/
def xtsBlocks (enc : Bool) (k1 : List Byte) : List Byte → List (List Byte) → List Byte
  | _, [] => []
  | t, b :: r =>
    xorBytes (if enc then aesEnc k1 (xorBytes b t) else aesDec k1 (xorBytes b t)) t ++
      xtsBlocks enc k1 (mulAlpha t) r

/-- A data unit of whole 16-byte blocks under a 64-byte key pair, key 1 first (R246, R325). -/
def xts (enc : Bool) (pair : BitVec 512) (tweak : Nat) (data : List Byte) : List Byte :=
  let k := leBytes 64 pair.toNat
  let t := aesEnc (k.drop 32) (leBytes 16 tweak)
  xtsBlocks enc (k.take 32) t (chunks 16 (data.length / 16 + 1) data)

/-! ### GCM -/

/-- Big-endian number of bytes, and back. -/
def beNat (bs : List Byte) : Nat := bs.foldl (fun a b => a * 256 + b.toNat) 0
def beBytes (n x : Nat) : List Byte := (leBytes n x).reverse

/-- Product in the field of GCM; x is read from its most significant bit. -/
def ghashMul (x : Nat) : Nat → Nat → Nat → Nat
  | 0, _, z => z
  | i + 1, v, z =>
    ghashMul x i (v / 2 ^^^ (if v % 2 = 1 then 0xE1 * 2 ^ 120 else 0)) (if x / 2 ^ i % 2 = 1 then z ^^^ v else z)

/-- A list padded with zeros to whole blocks. -/
def padBlock (bs : List Byte) : List Byte := bs ++ List.replicate ((16 - bs.length % 16) % 16) 0#8

/-- GHASH of additional data and ciphertext. -/
def ghash (h : Nat) (aad ct : List Byte) : Nat :=
  let data := padBlock aad ++ padBlock ct ++ beBytes 8 (8 * aad.length) ++ beBytes 8 (8 * ct.length)
  (chunks 16 (data.length / 16 + 1) data).foldl (fun y b => ghashMul (y ^^^ beNat b) 128 h 0) 0

/-- Counter mode from a block number on, for a 12-byte nonce. -/
def ctr (key nonce : List Byte) : Nat → List (List Byte) → List Byte
  | _, [] => []
  | n, b :: r => xorBytes b (aesEnc key (nonce ++ beBytes 4 n)) ++ ctr key nonce (n + 1) r

/-- AES-256-GCM (encryption and decryption are one stream); the tag is over the ciphertext. -/
def gcmStream (key nonce data : List Byte) : List Byte := ctr key nonce 2 (chunks 16 (data.length / 16 + 1) data)
def gcmTag (key nonce aad ct : List Byte) : List Byte :=
  let h := beNat (aesEnc key (List.replicate 16 0#8))
  xorBytes (beBytes 16 (ghash h aad ct)) (aesEnc key (nonce ++ [0, 0, 0, 1]))

/-! ### SHAKE256 -/

/-- The 24 round constants of Keccak-f[1600]. -/
def keccakRC : List Word :=
  [0x0000000000000001, 0x0000000000008082, 0x800000000000808A, 0x8000000080008000,
   0x000000000000808B, 0x0000000080000001, 0x8000000080008081, 0x8000000000008009] ++
  [0x000000000000008A, 0x0000000000000088, 0x0000000080008009, 0x000000008000000A,
   0x000000008000808B, 0x800000000000008B, 0x8000000000008089, 0x8000000000008003] ++
  [0x8000000000008002, 0x8000000000000080, 0x000000000000800A, 0x800000008000000A,
   0x8000000080008081, 0x8000000000008080, 0x0000000080000001, 0x8000000080008008]

/-- The rotation of lane x + 5·y. -/
def keccakRot : List Nat :=
  [0, 1, 62, 28, 27, 36, 44, 6, 55, 20, 3, 10, 43, 25, 39, 41, 45, 15, 21, 8, 18, 2, 61, 56, 14]

/-- One round on 25 lanes. -/
def keccakRound (a : List Word) (rc : Word) : List Word :=
  let g := fun (l : List Word) (i : Nat) => l.getD i 0
  let c := (List.range 5).map fun x => g a x ^^^ g a (x + 5) ^^^ g a (x + 10) ^^^ g a (x + 15) ^^^ g a (x + 20)
  let d := (List.range 5).map fun x => g c ((x + 4) % 5) ^^^ (g c ((x + 1) % 5)).rotateLeft 1
  let t := (List.range 25).map fun i => (g a i ^^^ g d (i % 5)).rotateLeft (keccakRot.getD i 0)
  -- lane (y, 2x + 3y) of b is lane (x, y) of t
  let b := (List.range 25).map fun i =>
    let y := i % 5
    let z := i / 5
    let x := (z + 2 * 5 - 3 * y % 5 + 5) * 3 % 5
    g t (x + 5 * y)
  let e := (List.range 25).map fun i =>
    let y := i / 5 * 5
    g b i ^^^ (~~~ (g b (y + (i + 1) % 5)) &&& g b (y + (i + 2) % 5))
  e.mapIdx fun i w => if i = 0 then w ^^^ rc else w

def keccakF (a : List Word) : List Word := keccakRC.foldl keccakRound a

/-- Absorption of 136-byte blocks. -/
def absorb (st : List Word) : List (List Byte) → List Word
  | [] => st
  | b :: r =>
    absorb (keccakF (st.mapIdx fun i w => if i < 17 then w ^^^ leWord (sub b (8 * i) 8) else w)) r

/-- SHAKE256 of a message, n bytes out, n at most 136 (R330). -/
def shake256 (n : Nat) (m : List Byte) : List Byte :=
  let k := 136 - m.length % 136
  let pad := if k = 1 then [0x9F#8] else 0x1F#8 :: (List.replicate (k - 2) 0#8 ++ [0x80#8])
  let st := absorb (List.replicate 25 0) (chunks 136 (m.length / 136 + 2) (m ++ pad))
  ((st.map fun w => leBytes 8 w.toNat).flatten).take n

/-- SHAKE256-256 and SHAKE256-512 as little-endian numbers of their bytes. -/
def shake32 (m : List Byte) : BitVec 256 := BitVec.ofNat 256 (leNat (shake256 32 m))
def shake64 (m : List Byte) : BitVec 512 := BitVec.ofNat 512 (leNat (shake256 64 m))

/-! ### CRC-32C -/

/-- Eight steps of the reflected polynomial 0x1EDC6F41. -/
def crcBits : Nat → BitVec 32 → BitVec 32
  | 0, c => c
  | n + 1, c => crcBits n ((c >>> 1) ^^^ (if c.getLsbD 0 then 0x82F63B78#32 else 0#32))

/-- CRC-32C of bytes (R80). -/
def crc32c (bs : List Byte) : BitVec 32 :=
  ~~~ (bs.foldl (fun c b => crcBits 8 (c ^^^ b.zeroExtend 32)) 0xFFFFFFFF#32)

end Sys2Proof.Machine
end

