-- ==== Sys2Proof/Machine/Xlate.lean ====
section
/-! DEFINITION. Translation: range windows and IA grants (R316 to R319), the page table (R320 to R322), and the home of
a line (R110, R205). -/

namespace Sys2Proof.Machine
open Sys2Proof

/-! ### Windows -/

def Window.v (w : Window) : Bool := bit w.w0 63
def Window.r (w : Window) : Bool := bit w.w0 62
def Window.w (w : Window) : Bool := bit w.w0 61
def Window.fx (w : Window) : Bool := bit w.w0 60
def Window.cls (w : Window) : BitVec 2 := w.w0.extractLsb' 58 2
def Window.world (w : Window) : Byte := w.w0.extractLsb' 50 8
def Window.base (w : Window) : Nat := bits w.w0 41 0
def Window.iaBase (w : Window) : Nat := bits w.w1 63 28
def Window.nblk (w : Window) : Nat := bits w.w1 27 0

/-- A window that takes part in matching (R316). -/
def Window.live (w : Window) : Bool :=
  w.v && decide (w.base + w.nblk < 2 ^ 42) && decide (w.iaBase + w.nblk < 2 ^ 36)

/-- What an access asks of its window (R316, R317). -/
structure Perm where
  r  : Bool
  w  : Bool
  fx : Bool
  deriving DecidableEq, Repr, Inhabited

def permR : Perm := ⟨true, false, false⟩
def permW : Perm := ⟨false, true, false⟩
def permRW : Perm := ⟨true, true, false⟩
def permFX : Perm := ⟨false, false, true⟩
def permNone : Perm := ⟨false, false, false⟩

/-- The outcome of R317. -/
inductive Xl where
  | ok (ia : Nat) (w : Window)
  | windowFault
  | worldViolation
  deriving DecidableEq, Repr, Inhabited

/-- The first window that covers block b (R317). -/
def findWindow (ws : List Window) (b : Nat) : Option Window :=
  ws.find? fun w => w.live && decide (w.base ≤ b) && decide (b ≤ w.base + w.nblk)

/-- translate(va, kind) for an access of n bytes, under a context's world (R317); va is at most 58 bits. -/
def translate (ws : List Window) (world : Byte) (va n : Nat) (k : Perm) : Xl :=
  let b := va / 65536
  match findWindow ws b with
  | none => .windowFault
  | some w =>
    if (k.r && !w.r) || (k.w && !w.w) || (k.fx && !w.fx) then .windowFault
    else if w.world ≠ 0 && w.world ≠ world then .worldViolation
    else if k.w && world ≠ 0 && w.world ≠ world then .worldViolation
    else if (va + n - 1) / 65536 > w.base + w.nblk then .windowFault
    else .ok ((b - w.base + w.iaBase) * 65536 + va % 65536) w

/-- Does window w map all of its blocks into one IA grant of a tenant (R319)? -/
def State.granted (s : State) (tenant : Option Nat) (w : Window) : Bool :=
  !w.v ||
  match tenant with
  | none => false
  | some t => (List.range 4).any fun i =>
      let base := (s.mg.grants.get (8 * t + 2 * i) 0#64).toNat % 2 ^ 36
      let size := (s.mg.grants.get (8 * t + 2 * i + 1) 0#64).toNat
      decide (base ≤ w.iaBase) && decide (w.iaBase + w.nblk + 1 ≤ base + size)

/-! ### The page table -/

/-- A leaf entry as it is read; an address beyond the tier's capacity counts as V = 0. -/
def pteOf (x : Word) : Pte :=
  let pa := bits x 40 16
  let tier := bit x 57
  ⟨bit x 63 && decide (pa * 65536 < (if tier then 2 ^ 40 else 2 ^ 39)), bit x 62, bit x 61, bit x 60,
    x.extractLsb' 58 2, tier, x.extractLsb' 49 8, pa⟩

/-- The node a table entry points to (R320): none where V = 0 or a reserved bit is set. -/
def nodeOf (x : Word) : Option Nat :=
  if bit x 63 && decide (bits x 62 41 = 0) && decide (bits x 11 0 = 0) then some (bits x 40 12 * 4096) else none

/-- An entry of a node in HBM. -/
def State.entry (s : State) (node i : Nat) : Word := leWord (s.hbm.read (node + 8 * i) 8)

/-- The walk of R320 through the table as it stands: the leaf, or none where the walk ends as a page fault. -/
def State.walkTable (s : State) (ia : Nat) : Option Pte :=
  let root := bits s.mg.ptroot 40 12 * 4096
  if bit s.mg.ptroot 63 then
    match nodeOf (s.entry root (ia / 2 ^ 43 % 512)) with
    | none => none
    | some n1 => match nodeOf (s.entry n1 (ia / 2 ^ 34 % 512)) with
      | none => none
      | some n2 => match nodeOf (s.entry n2 (ia / 2 ^ 25 % 512)) with
        | none => none
        | some n3 => some (pteOf (s.entry n3 (ia / 2 ^ 16 % 512)))
  else if root % 2 ^ 21 ≠ 0 then none
  else
    match nodeOf (s.entry root (ia / 2 ^ 34 % 2 ^ 18)) with
    | none => none
    | some n => if n % 2 ^ 21 ≠ 0 then none else some (pteOf (s.entry n (ia / 2 ^ 16 % 2 ^ 18)))

/-- The walk of an access: until a TINV has discarded it, an entry read before may be used in place of the table's (R322,
R323). -/
def State.walk (s : State) (ia : Nat) : Option Pte :=
  let new := s.walkTable ia
  match s.tlb.get? (ia / 65536) with
  | none => new
  | some old => if old = new then new else if (s.free 1029 (ia / 65536)).getLsbD 0 then old else new

/-- The state with the entry of a page kept as it was read. -/
def State.noteWalk (s : State) (ia : Nat) : State := { s with tlb := s.tlb.put (ia / 65536) (s.walk ia) }

/-- The leaf an access may use (R322): none where it meets a page fault. -/
def State.page (s : State) (ia : Nat) (write : Bool) (world : Byte) : Option Pte :=
  match s.walk ia with
  | none => none
  | some p => if p.v && (!write || p.w) && decide (p.world = world) then some p else none

/-- The n bytes of memory behind a page, from IA ia on (within the page). -/
def State.memRead (s : State) (p : Pte) (ia n : Nat) : List Byte :=
  (if p.tier then s.far else s.hbm).read (p.pa * 65536 + ia % 65536) n

/-- The state with bytes of memory behind a page written. -/
def State.memWrite (s : State) (p : Pte) (ia : Nat) (bs : List Byte) : State :=
  if p.tier then { s with far := s.far.write (p.pa * 65536 + ia % 65536) bs }
  else { s with hbm := s.hbm.write (p.pa * 65536 + ia % 65536) bs }

/-- home_slice (R110). -/
def homeSlice (ia : Nat) : Nat :=
  let line := ia / 1024 % 2 ^ 42
  (line ^^^ (line / 2 ^ 14) ^^^ (line / 2 ^ 28)) % 2 ^ 14 % 96

/-! ### Ciphertext (R325) -/

/-- The key slot of a world. -/
def State.slotOf (s : State) (w : Byte) : Option KeySlot := s.trust.slots.find? fun k => k.world == w

/-- One 16-byte block encrypted or decrypted under a world's memory key; world 0 is plaintext, and without an active
slot the bytes are undefined (R324). -/
def State.memCrypt (s : State) (enc : Bool) (world : Byte) (ia : Nat) (block : List Byte) : List Byte :=
  if world = 0 then block
  else match s.slotOf world with
    | none => leBytes block.length (s.free 1024 (ia / 16)).toNat
    | some k => xts enc k.mem (ia / 16) block

/-- Whole blocks from a 16-byte-aligned IA on. -/
def State.cryptRange (s : State) (enc : Bool) (world : Byte) : Nat → List (List Byte) → List Byte
  | _, [] => []
  | ia, b :: r => s.memCrypt enc world ia b ++ s.cryptRange enc world (ia + 16) r

end Sys2Proof.Machine
end

