-- ==== Sys2Proof/Machine/Cache.lean ====
section
/-! DEFINITION. The memory side: lines, versions and quotas of the L2 slices (R205 to R209), write transactions, the
deferral buffer's answers (R210), monitors (R239), badger hints (R212, R213), poison (R219, R341), and the L1 of a core
(R204, R292). Operations are performed in the order the steps reach them (log 6). -/

namespace Sys2Proof.Machine
open Sys2Proof

/-- EMPTY (R210), ABORT (R215) and NACKED (R235). -/
def emptyW : Word := 0xFFFFFFFFFFFFFFFF#64
def abortW : Word := 0xFFFFFFFFFFFFFFFE#64
def nackedW : Word := 0xFFFFFFFFFFFFFFFD#64

/-- Who makes an access: world of the deciding window, default class, tenant (16 for none), context, and the scope
checker's tag a write leaves (R373). -/
structure Acc where
  world  : Byte
  cls    : BitVec 2
  tenant : Nat
  g      : Nat
  tag    : Scope × Nat
  deriving DecidableEq, Repr, Inhabited

/-- What an access at home answers. -/
inductive Res (α : Type) where
  | ok (x : α)
  | pageFault
  | poisoned
  deriving DecidableEq, Repr, Inhabited

/-- op of a combiner code at a width: 0 add, 1 min, 2 max, 3 and, 4 or, 5 xor, 6 xchg. -/
def atomOp (code : Nat) (w64 : Bool) (old x : Word) : Word :=
  let lo : BitVec 32 := old.truncate 32
  let lx : BitVec 32 := x.truncate 32
  let lt := if w64 then old.slt x else lo.slt lx
  let z := match code with
    | 0 => old + x
    | 1 => if lt then old else x
    | 2 => if lt then x else old
    | 3 => old &&& x
    | 4 => old ||| x
    | 5 => old ^^^ x
    | _ => x
  if w64 then z else (z.truncate 32 : BitVec 32).zeroExtend 64

/-! ### Badger hints and monitors -/

/-- The state with a hint event raised at a slice (R212, R213). A hint that arrives with 24 hints queued, or with the
queue's 32 places taken (DESIGN CHOICE, log 101), is dropped. -/
def State.raiseHint (s : State) (sl : Nat) (e : BEvent) : State :=
  let x := s.slice sl
  let named := x.images.any fun i => i.2.tenant == e.tenant && i.2.enabled && ((i.2.entries.getD e.kind none).isSome)
  if !named then s
  else if (x.events.filter fun y => y.kind != 3).length ≥ 24 || decide (x.events.length ≥ 32) then
    s.setSlice sl { x with drops := x.drops + 1 }
  else s.setSlice sl { x with events := x.events ++ [e] }

/-- The event of a line (R214). -/
def lineEvent (kind line : Nat) (cls : BitVec 2) (world : Byte) (dirty : Bool) (ver : Word) (tenant : Nat) : BEvent where
  kind := kind
  ia := line * 1024
  info := BitVec.ofNat 64 (cls.toNat + (if world ≠ 0 then 256 else 0) + (if dirty then 512 else 0) + world.toNat * 65536)
  ver := ver
  msg0 := 0
  msg1 := 0
  tenant := tenant
  g := 0
  n := 0
  world := world

/-- The state with every monitor on a line woken (R239). -/
def State.wake (s : State) (line : Nat) : State :=
  { s with ctxs := s.ctxs.map fun e =>
      match e.2.monitor with
      | some m => if m.line = line then (e.1, { e.2 with monitor := some { m with woken := true } }) else e
      | none => e }

/-! ### Lines -/

/-- Is a line never chosen for replacement: it holds a deferral entry (R206), or dirty bytes of a page that is
migrating, whose write-backs wait (R323)? -/
def State.pinned (s : State) (sl line : Nat) : Bool :=
  ((s.slice sl).defer.any fun d => d.ia / 1024 == line) ||
  (match (s.slice sl).lines.get? line with
  | none => false
  | some x => decide (x.dirty ≠ 0) && (match s.walk (line * 1024) with
      | some p => p.mig && p.v
      | none => false))

/-- Write-back of the dirty sectors of a leaving line (R322); sector i from k on. -/
def State.writeBack (s : State) (line : Nat) (x : Line) (k : Nat) : Nat → State
  | 0 => s
  | n + 1 =>
    let s1 := if x.dirty.getLsbD k then
        let t := s.noteWalk (line * 1024)
        match s.page (line * 1024 + 256 * k) true x.world with
        | none => t
        | some p =>
          let s2 := t.memWrite p (line * 1024 + 256 * k) (x.data.read (256 * k) 256)
          let sec := line * 4 + k
          { s2 with poison := if x.poison.getLsbD k then sec :: s2.poison.filter (· != sec)
                              else s2.poison.filter (· != sec) }
      else s
    s1.writeBack line x (k + 1) n

/-- The state after a line has left its slice (R208, R322). -/
def State.evict (s : State) (sl line : Nat) : State :=
  match (s.slice sl).lines.get? line with
  | none => s
  | some x =>
    let s1 := s.writeBack line x 0 4
    let y := s1.slice sl
    let s2 := s1.setSlice sl { y with
      lines := y.lines.del line, hwm := if y.hwm.toNat < x.ver.toNat then x.ver else y.hwm }
    (s2.wake line).raiseHint sl (lineEvent 2 line x.cls x.world (decide (x.dirty ≠ 0)) x.ver x.tenant)

/-- The lines of a set (R205). -/
def State.setLines (s : State) (sl line : Nat) : Tab Line := (s.slice sl).lines.filter fun e => e.1 % 128 == line % 128

/-- The quota of a tenant and class (R206); a value above 16 is taken as 16. -/
def State.quota (s : State) (sl tenant : Nat) (cls : BitVec 2) : Nat :=
  let q := bits (vget (s.slice sl).clsq tenant 0x10101010#64) (8 * cls.toNat + 4) (8 * cls.toNat)
  if q > 16 then 16 else q

/-- The least recently used of some lines, by number. -/
def lruLine : Tab Line → Option Nat
  | [] => none
  | e :: r => match lruLine r with
    | none => some e.1
    | some k => match Tab.get? r k with
      | some y => if e.2.lru ≤ y.lru then some e.1 else some k
      | none => some e.1

/-- The line that leaves to make room for another of this tenant and class (R206): `some none` where a way is free, none
where the access is served without allocation or waits. `must` is a version, atomic or future operation, or a badger
write. -/
def State.room (s : State) (sl line : Nat) (tenant : Nat) (cls : BitVec 2) (must : Bool) : Option (Option Nat) :=
  let ls := s.setLines sl line
  let own := ls.filter fun e => e.2.tenant == tenant && e.2.cls == cls
  let free := ls.filter fun e => !s.pinned sl e.1
  let q := s.quota sl tenant cls
  let any := if ls.length < 16 then some none else (lruLine free).map some
  if must then any
  else if q = 0 then none
  else if own.length ≥ q then (lruLine (own.filter fun e => !s.pinned sl e.1)).map some
  else any

/-- Makes room for a line (R206): the state, and whether the line may become resident. -/
def State.makeRoom (s : State) (sl line : Nat) (a : Acc) (cls : BitVec 2) (must : Bool) : State × Bool :=
  match s.room sl line a.tenant cls must with
  | none => (s, false)
  | some none => (s, true)
  | some (some v) => (s.evict sl v, true)

/-- A line that becomes resident, with no sector present: version HWM + 1 (R208). -/
def State.newLine (s : State) (sl line : Nat) (a : Acc) (cls : BitVec 2) : State :=
  let x := s.slice sl
  let y : Line := ⟨x.hwm + 1, cls, a.world, a.tenant, [], 0, 0, 0, s.fresh⟩
  s.setSlice sl { x with lines := x.lines.put line y }

/-- The state with one sector of a resident line filled from memory. The fill event goes to the tenant of the access that fills the
sector, an evict event to the one that made the line resident: the model's choice (log 132). -/
def State.fillSector (s : State) (sl ia : Nat) (p : Pte) (a : Acc) : State :=
  let line := ia / 1024
  let k := ia / 256 % 4
  let x := s.slice sl
  match x.lines.get? line with
  | none => s
  | some y =>
    let bad := s.poison.contains (ia / 256)
    let s1 := s.setSlice sl { x with lines := x.lines.put line { y with
      data := y.data.write (256 * k) (s.memRead p (ia / 256 * 256) 256)
      filled := y.filled ||| (1#4 <<< k)
      poison := if bad then y.poison ||| (1#4 <<< k) else y.poison &&& ~~~ (1#4 <<< k) } }
    s1.raiseHint sl (lineEvent 1 line y.cls a.world false y.ver a.tenant)

/-- A poisoned sector with a clean copy is discarded and fetched again, once (R341): it is clean here and sound in
memory. -/
def State.heal (s : State) (ia : Nat) (a : Acc) : State :=
  match (s.slice (homeSlice ia)).lines.get? (ia / 1024) with
  | none => s
  | some y =>
    if !y.poison.getLsbD (ia / 256 % 4) || y.dirty.getLsbD (ia / 256 % 4) || s.poison.contains (ia / 256) then s
    else match (s.noteWalk ia).page ia false a.world with
      | none => s
      | some p => (s.noteWalk ia).fillSector (homeSlice ia) ia p a

/-- A sector comes from memory to a line that is resident or becomes so (R205, R206, R322): the state, and whether the
sector is resident; `hint` says that the access raises a miss event (R212, R272). -/
def State.fetch (s : State) (ia : Nat) (a : Acc) (write must hint : Bool) : State × Res Bool :=
  let sl := homeSlice ia
  let line := ia / 1024
  match s.page ia write a.world with
  | none => (s.noteWalk ia, .pageFault)
  | some p =>
    let s0 := s.noteWalk ia
    let s1 := if hint then s0.raiseHint sl (lineEvent 0 line p.cls a.world false 0 a.tenant) else s0
    match (s1.slice sl).lines.get? line with
    | some _ => (s1.fillSector sl ia p a, .ok true)
    | none =>
      let r := s1.makeRoom sl line a p.cls must
      if r.2 then ((r.1.newLine sl line a p.cls).fillSector sl ia p a, .ok true) else (r.1, .ok false)

/-- Is the sector of ia present at its home slice? -/
def State.hasSector (s : State) (ia : Nat) : Bool :=
  match (s.slice (homeSlice ia)).lines.get? (ia / 1024) with
  | none => false
  | some y => y.filled.getLsbD (ia / 256 % 4)

/-- A sector that is being filled arrives, on behalf of the access or prefetch that asked for it (R272); it is dropped
where its slice cannot take it. -/
def State.arrive (s : State) (sl : Nat) (f : Fill) : State :=
  let x := s.slice sl
  let s1 := s.setSlice sl { x with fills := x.fills.filter fun y => y.ia / 256 != f.ia / 256 }
  if s1.hasSector f.ia then s1
  else (s1.fetch f.ia ⟨f.world, f.cls, f.tenant, f.g, (.pod, f.g)⟩ false false false).1

/-- An access that finds its sector being filled waits for that fill (R272), which arrives before it. -/
def State.awaitFill (s : State) (ia : Nat) : State :=
  match (s.slice (homeSlice ia)).fills.find? fun f => f.ia / 256 == ia / 256 with
  | none => s
  | some f => s.arrive (homeSlice ia) f

/-- Brings the sector of ia to its home slice where it is not there (R205, R206, R322): the state, and whether the
sector is resident. A sector that was being filled raises no miss event, nor does a prefetch, `hint` false (R272). -/
def State.bring (s : State) (ia : Nat) (a : Acc) (write must hint : Bool) : State × Res Bool :=
  let s0 := s.awaitFill ia
  if s0.hasSector ia then (s0.heal ia a, .ok true) else s0.fetch ia a write must hint

/-- A write of a whole sector needs no fill (R205): a line allocated for it reads no memory and takes the default class of
the window (R206). -/
def State.place (s : State) (ia : Nat) (a : Acc) (must : Bool) : State × Res Bool :=
  let sl := homeSlice ia
  let line := ia / 1024
  let s0 := s.awaitFill ia
  let room := match (s0.slice sl).lines.get? line with
    | some _ => (s0, true)
    | none =>
      let r := (s0.raiseHint sl (lineEvent 0 line a.cls a.world false 0 a.tenant)).makeRoom sl line a a.cls must
      if r.2 then (r.1.newLine sl line a a.cls, true) else (r.1, false)
  if room.2 then
    let x := room.1.slice sl
    match x.lines.get? line with
    | none => (room.1, .ok false)
    | some y => (room.1.setSlice sl { x with lines := x.lines.put line { y with
        filled := y.filled ||| (1#4 <<< (ia / 256 % 4)), poison := y.poison &&& ~~~ (1#4 <<< (ia / 256 % 4)) } }, .ok true)
  else match room.1.page ia true a.world with
    | none => (room.1.noteWalk ia, .pageFault)
    | some _ => (room.1.noteWalk ia, .ok false)

/-- The raw bytes of the home copy of one sector: resident, or straight from memory when it is served without
allocation. -/
def State.rawRead (s : State) (ia n : Nat) (a : Acc) (resident : Bool) : List Byte :=
  if resident then
    match (s.slice (homeSlice ia)).lines.get? (ia / 1024) with
    | none => []
    | some y => y.data.read (ia % 1024) n
  else match s.page ia false a.world with
    | none => []
    | some p => s.memRead p ia n

/-- The state with a line marked as used now. -/
def State.touch (s : State) (ia : Nat) : State :=
  let sl := homeSlice ia
  let x := s.slice sl
  match x.lines.get? (ia / 1024) with
  | none => s
  | some y => s.setSlice sl { x with lines := x.lines.put (ia / 1024) { y with lru := s.fresh } }

/-- Is the sector of ia poisoned where it is read? -/
def State.badSector (s : State) (ia : Nat) (resident : Bool) : Bool :=
  if resident then
    match (s.slice (homeSlice ia)).lines.get? (ia / 1024) with
    | none => false
    | some y => y.poison.getLsbD (ia / 256 % 4)
  else s.poison.contains (ia / 256)

/-- A read at the home slice of n bytes within one 16-byte-aligned group of blocks of one sector: plaintext under the
world of the access (R205, R325). `write`: it is the read of an access that also writes, such as an atomic, so that its
page needs W (R322). -/
def State.homeRead (s : State) (ia n : Nat) (a : Acc) (must : Bool) (write : Bool := false) : State × Res (List Byte) :=
  match s.bring ia a write must true with
  | (s1, .pageFault) => (s1, .pageFault)
  | (s1, .poisoned) => (s1, .poisoned)
  | (s1, .ok res) =>
    if s1.badSector ia res then (s1, .poisoned)
    else
      let lo := ia / 16 * 16
      let hi := (ia + n + 15) / 16 * 16
      let raw := s1.rawRead lo (hi - lo) a res
      let plain := if a.world = 0 then raw
        else s1.cryptRange false a.world lo (chunks 16 ((hi - lo) / 16) raw)
      (s1.touch ia, .ok (sub plain (ia - lo) n))

/-- The bytes of a word at home that LDFs are deferred on, under their world. -/
def State.peekWord (s : State) (ia : Nat) (world : Byte) : Word :=
  let lo := ia / 16 * 16
  match (s.slice (homeSlice ia)).lines.get? (ia / 1024) with
  | none => emptyW
  | some y =>
    let raw := y.data.read (lo % 1024) 16
    leWord (sub (s.memCrypt false world lo raw) (ia - lo) 8)

/-- Key of an L1 line: tagged by IA and world. -/
def l1Key (ia : Nat) (world : Byte) : Nat := ia / 256 * 256 + world.toNat

/-- The bytes that tasks have buffered in an L1 line (R292). -/
def L1Line.bufMask (l : L1Line) : BitVec 256 := l.bufs.foldl (fun m b => m ||| b.mask) 0

/-- A valid copy of the line in the L1 is updated by what an operation at home returns or stores (R204); bytes that are
dirty or buffered stay. -/
def State.l1Update (s : State) (core ia : Nat) (bs : List Byte) (world : Byte) : State :=
  let key := l1Key ia world
  let k := s.core core
  match k.l1.get? key with
  | none => s
  | some l =>
    let idx := (List.range bs.length).filter fun i =>
      l.valid.getLsbD (ia % 256 + i) && !(l.dirty ||| l.bufMask).getLsbD (ia % 256 + i)
    s.setCore core { k with l1 := k.l1.put key { l with
      data := idx.foldl (fun d i => Mem.set d (ia % 256 + i) (bs.getD i 0#8)) l.data } }

/-- The state with an LDF of a context answered: the answer is on its way (R210, R235, R312). -/
def State.answer (s : State) (g id : Nat) (val : Word) (kind : Nat) : State :=
  let c := s.ctx g
  s.setCtx g { c with ldfs := c.ldfs.map fun l =>
    if l.id = id && (l.at_ == .sent || l.at_ == .deferred) then { l with at_ := .answering, val := val, kind := kind } else l }

/-- Answers the entries deferred on a line whose word is full, in the order they were taken (R210); the returning word
updates a valid copy of the line in its core's L1 (R204). -/
def State.answerDeferred (s : State) (sl line kind : Nat) : List Defer → State
  | [] => s
  | d :: r =>
    let w := s.peekWord d.ia d.world
    let s1 := if d.ia / 1024 = line && w ≠ emptyW then
        let x := s.slice sl
        ((s.setSlice sl { x with defer := x.defer.filter fun e => !(e.g == d.g && e.id == d.id) }).answer d.g d.id w
          (if w = abortW then kind else 0)).l1Update (d.g / 4) d.ia (leBytes 8 w.toNat) d.world
      else s
    s1.answerDeferred sl line kind r

/-- The plain bytes of a block with some cells changed. -/
def patch (ia : Nat) (block : List Byte) (cells : List (Nat × Byte)) : List Byte :=
  block.mapIdx fun i b => match cells.find? fun c => c.1 == ia + i with
    | some c => c.2
    | none => b

/-- The state with cells of one resident 16-byte block changed, re-encrypted under the world (R326). -/
def State.putBlock (s : State) (ia : Nat) (world : Byte) (cells : List (Nat × Byte)) : State :=
  let sl := homeSlice ia
  let x := s.slice sl
  match x.lines.get? (ia / 1024) with
  | none => s
  | some y =>
    let old := s.memCrypt false world ia (y.data.read (ia % 1024) 16)
    let new := s.memCrypt true world ia (patch ia old cells)
    s.setSlice sl { x with lines := x.lines.put (ia / 1024) { y with
      data := y.data.write (ia % 1024) new, dirty := y.dirty ||| (1#4 <<< (ia / 256 % 4)) } }

/-- The same straight in memory, for an access served without allocation. -/
def State.putBlockMem (s : State) (ia : Nat) (world : Byte) (cells : List (Nat × Byte)) : State :=
  match s.page ia true world with
  | none => s
  | some p =>
    let old := s.memCrypt false world ia (s.memRead p ia 16)
    s.memWrite p ia (s.memCrypt true world ia (patch ia old cells))

/-- The distinct 16-byte blocks of some cells, lowest first as they occur. -/
def blocksOf : List (Nat × Byte) → List Nat
  | [] => []
  | c :: r => let b := c.1 / 16 * 16
    b :: (blocksOf r).filter (· != b)

/-- The distinct 256-byte sectors of some cells. -/
def sectorsOf : List (Nat × Byte) → List Nat
  | [] => []
  | c :: r => let b := c.1 / 256 * 256
    b :: (sectorsOf r).filter (· != b)

/-- Do cells cover a whole sector (R205)? -/
def wholeSector (cells : List (Nat × Byte)) (sec : Nat) : Bool :=
  decide ((cells.filter fun c => c.1 / 256 * 256 == sec).length ≥ 256)

/-- Brings every sector that a write touches, filling those it covers only in part (R205); answers whether the line is
resident. -/
def State.bringAll (s : State) (a : Acc) (must : Bool) (cells : List (Nat × Byte)) : List Nat → State × Res Bool
  | [] => (s, .ok true)
  | ia :: r =>
    match (if wholeSector cells ia then s.place ia a must else s.bring ia a true must true) with
    | (s1, .ok res) =>
      match s1.bringAll a must cells r with
      | (s2, .ok res2) => (s2, .ok (res && res2))
      | o => o
    | o => o

/-- Does the scope checker tag lines: is bit 5 set in the OWLCTL of any cluster (R373)? That any cluster's bit makes the slices
tag, and that a tag stays while the line is not resident, is the model's choice (log 114). -/
def State.tagging (s : State) : Bool := s.clusters.any fun c => bit c.2.dbg.owlCtl 5

/-- The event that follows a write transaction (R208, R210, R239, R373): version, deferred answers, monitors, tag. -/
def State.afterWrite (s : State) (line kind : Nat) (a : Acc) : State :=
  let sl := homeSlice (line * 1024)
  let s0 := if s.tagging then
      let x := s.slice sl
      s.setSlice sl { x with tags := x.tags.put line a.tag }
    else s
  let x := s0.slice sl
  match x.lines.get? line with
  | none => s0.wake line
  | some y =>
    let s1 := s0.setSlice sl { x with lines := x.lines.put line { y with ver := y.ver + 1, lru := s.fresh } }
    (s1.answerDeferred sl line kind (s1.slice sl).defer).wake line

/-- The line a waiting transaction writes. -/
def LateTxn.line : LateTxn → Nat
  | .write line _ _ _ _ _ _ _ _ _ => line
  | .atom ia _ _ _ _ _ _ _ => ia / 1024

/-- Does a transaction at the sector of ia wait now? One that must allocate waits while every way of its set is held
(R206); a write served without allocation waits while its page is migrating (R323), `cls` being the class it would be
allocated under, if the page's does not count; and either waits behind one that waits for the same line (R205). -/
def State.waitsAt (s : State) (ia : Nat) (a : Acc) (write must : Bool) (cls : Option (BitVec 2)) : Bool :=
  let sl := homeSlice ia
  let line := ia / 1024
  ((write || must) && s.late.any fun t => t.line == line) ||
  (((s.slice sl).lines.get? line).isNone &&
    (if must then (s.room sl line a.tenant a.cls true).isNone
    else write && match s.walk ia with
      | none => false
      | some p => p.v && p.mig && (s.room sl line a.tenant (cls.getD p.cls) false).isNone))

/-- Does a write transaction of these cells wait now? -/
def State.txnWaits (s : State) (a : Acc) (cells : List (Nat × Byte)) (must : Bool) : Bool :=
  (sectorsOf cells).any fun sec => s.waitsAt sec a true must (if wholeSector cells sec then some a.cls else none)

/-- One write transaction of these cells performed, all of one line (R205, R208). -/
def State.performTxn (s : State) (a : Acc) (cells : List (Nat × Byte)) (must : Bool) (kind : Nat) : State × Res Unit :=
  match cells with
  | [] => (s, .ok ())
  | c :: _ =>
    match s.bringAll a must cells (sectorsOf cells) with
    | (s1, .pageFault) => (s1, .pageFault)
    | (s1, .poisoned) => (s1, .poisoned)
    | (s1, .ok res) =>
      let put := fun (t : State) (b : Nat) => if res then t.putBlock b a.world cells else t.putBlockMem b a.world cells
      let s2 := (blocksOf cells).foldl put s1
      let s3 := if res then s2 else { s2 with poison := s2.poison.filter fun p => !wholeSector cells (p * 256) }
      (s3.afterWrite (c.1 / 1024) kind a, .ok ())

/-- One write transaction of these cells (R205, R208), which waits where its slice or the memory side cannot take it yet
(R206, R323). `kind` is the kind that answers to deferred LDFs carry when the word written is ABORT (R312): 2 for the
reply of an aborted handler. `fin` says who learns how a write that has waited ends. -/
def State.writeTxn (s : State) (a : Acc) (cells : List (Nat × Byte)) (must : Bool) (kind : Nat := 0)
    (fin : LateEnd := .ctx) : State × Res Unit :=
  match cells with
  | [] => (s, .ok ())
  | c :: _ =>
    if s.txnWaits a cells must then
      ({ s with late := s.late ++ [.write (c.1 / 1024) a.world a.cls a.tenant a.g a.tag cells must kind fin] }, .ok ())
    else s.performTxn a cells must kind

/-- The cells of bytes from an IA on. -/
def cellsAt (ia : Nat) : List Byte → List (Nat × Byte)
  | [] => []
  | b :: r => (ia, b) :: cellsAt (ia + 1) r

/-- The version of a line at its home slice, the line becoming resident where it is not (R209, R230). -/
def State.versionOf (s : State) (ia : Nat) (a : Acc) : State × Res Word :=
  match s.bring ia a false true true with
  | (s1, .pageFault) => (s1, .pageFault)
  | (s1, .poisoned) => (s1, .poisoned)
  | (s1, .ok _) =>
    match (s1.slice (homeSlice ia)).lines.get? (ia / 1024) with
    | none => (s1, .ok 0)
    | some y => (s1, .ok y.ver)

/-- Bytes of any length from an IA on, read at home sector by sector: `n` sectors at most. -/
def State.homeBytes (s : State) (a : Acc) : Nat → Nat → Nat → State × Res (List Byte)
  | 0, _, _ => (s, .ok [])
  | k + 1, ia, n =>
    if n = 0 then (s, .ok [])
    else
      let m := min n (256 - ia % 256)
      match s.homeRead ia m a false with
      | (s1, .ok x) =>
        match s1.homeBytes a k (ia + m) (n - m) with
        | (s2, .ok y) => (s2, .ok (x ++ y))
        | o => o
      | o => o

/-- Any number of bytes read at home. -/
def State.homeMany (s : State) (a : Acc) (ia n : Nat) : State × Res (List Byte) := s.homeBytes a (n / 256 + 2) ia n

/-- Bytes written at home, one write transaction for each 256-byte sector (R208). -/
def State.sectorWrites (s : State) (a : Acc) (fin : LateEnd) : Nat → Nat → List Byte → State × Res Unit
  | 0, _, _ => (s, .ok ())
  | k + 1, ia, bs =>
    if bs.isEmpty then (s, .ok ())
    else
      let m := 256 - ia % 256
      match s.writeTxn a (cellsAt ia (bs.take m)) false 0 fin with
      | (s1, .ok _) => s1.sectorWrites a fin k (ia + m) (bs.drop m)
      | o => o

/-- Accesses of the machine's own units: world 0, class other, no context (R279, R289, R370). -/
def unitAcc : Acc := ⟨0, 3, 16, 0, (.pod, 0)⟩

/-! ### The L1 (R204, R292) -/

/-- Mask of n bytes from offset o on. -/
def maskOf (o n : Nat) : BitVec 256 := BitVec.ofNat 256 ((2 ^ n - 1) * 2 ^ o)

/-- The offsets that a mask selects. -/
def maskIdx (m : BitVec 256) : List Nat := (List.range 256).filter fun i => m.getLsbD i

/-- The cells of a line that a mask selects. -/
def maskedCells (base : Nat) (d : Mem) (m : BitVec 256) : List (Nat × Byte) :=
  (maskIdx m).map fun i => (base + i, d.get i)

/-- Bytes of one memory laid over another where a mask selects them. -/
def Mem.over (d : Mem) (m : BitVec 256) (top : Mem) : Mem := (maskIdx m).foldl (fun d i => Mem.set d i (top.get i)) d

/-- A pending asynchronous fatal stop of a context; the first one stays (R340). -/
def State.setAsync (s : State) (g cause : Nat) : State :=
  let c := s.ctx g
  match c.async with
  | some _ => s
  | none => s.setCtx g { c with async := some cause }

/-- The lowest-numbered context of a list, else the one given. -/
def lowest (d : Nat) : List Nat → Nat
  | [] => d
  | g :: r => r.foldl min g

/-- The contexts that have stored to any byte of a mask. -/
def storers (t : Tab (BitVec 256)) (m : BitVec 256) : List Nat := (t.filter fun e => e.2 &&& m != 0).map fun e => e.1

/-- The context that a discarded write-back of the bytes m is charged with: the lowest-numbered one that stored to them
since its last release (R322), else one that stored to them (log 37). -/
def L1Line.charged (l : L1Line) (core : Nat) (m : BitVec 256) : Nat :=
  lowest (lowest (core * 4) (storers l.all_ m)) (storers l.by_ m)

/-- The marks of contexts without the bytes of a mask. -/
def unmark (t : Tab (BitVec 256)) (m : BitVec 256) : Tab (BitVec 256) :=
  (t.map fun e => (e.1, e.2 &&& ~~~ m)).filter fun e => e.2 != 0

/-- The access of a write-back of bytes of an L1 line, under the default class of a window (R206). -/
def State.l1Acc (s : State) (core key : Nat) (l : L1Line) (cls : BitVec 2) (m : BitVec 256) (tag : Scope × Nat) : Acc :=
  ⟨BitVec.ofNat 8 (key % 256), cls, (s.tenantOf (core / 4)).getD 16, l.charged core m, tag⟩

/-- Would the write-back of the dirty bytes that `sel` selects wait (R323)? -/
def State.l1Waits (s : State) (core key : Nat) (sel : BitVec 256) : Bool :=
  match (s.core core).l1.get? key with
  | none => false
  | some l => s.txnWaits (s.l1Acc core key l l.cls (l.dirty &&& sel) (.pod, 0))
      (maskedCells (key / 256 * 256) l.pdata (l.dirty &&& sel)) false

/-- The dirty bytes of an L1 line that `sel` selects sent home as one write transaction (R204, R257, R322). Bytes that the
memory side cannot take yet (R323) stay dirty here. -/
def State.l1Send (s : State) (core key : Nat) (sel : BitVec 256) (tag : Scope × Nat) : State :=
  let k := s.core core
  match k.l1.get? key with
  | none => s
  | some l =>
    let m := l.dirty &&& sel
    if m = 0 || s.l1Waits core key sel then s
    else
      let a := s.l1Acc core key l l.cls m tag
      let s1 := s.setCore core { k with l1 := k.l1.put key { l with
        dirty := l.dirty &&& ~~~ m, by_ := unmark l.by_ m, all_ := unmark l.all_ m } }
      match s1.writeTxn a (maskedCells (key / 256 * 256) l.pdata m) false with
      | (s2, .ok _) => s2
      | (s2, .pageFault) => s2.setAsync a.g 0x20
      | (s2, .poisoned) => s2.setAsync a.g 0x23

/-- Every dirty byte of an L1 line outside the tasks' buffers sent home. -/
def State.l1WriteBack (s : State) (core key : Nat) (tag : Scope × Nat) : State := s.l1Send core key (BitVec.allOnes 256) tag

/-- An L1 line invalidated: dirty bytes go home first; buffered bytes stay (R254, R292), as do bytes that cannot go home
yet. -/
def State.l1Inval (s : State) (core key : Nat) (tag : Scope × Nat) : State :=
  let s1 := s.l1WriteBack core key tag
  let k := s1.core core
  match k.l1.get? key with
  | none => s1
  | some l =>
    let keep := l.dirty ||| l.bufMask
    if keep = 0 then s1.setCore core { k with l1 := k.l1.del key }
    else s1.setCore core { k with l1 := k.l1.put key { l with
      valid := keep, data := l.bufs.foldl (fun d b => d.over (b.mask &&& ~~~ l.dirty) b.data) l.data } }

/-- An L1 line evicted (R204): never one that holds buffered bytes (R292), nor one whose dirty bytes cannot go home. -/
def State.l1Evict (s : State) (core key : Nat) : State :=
  match (s.core core).l1.get? key with
  | none => s
  | some l =>
    if !l.bufs.isEmpty || s.l1Waits core key (BitVec.allOnes 256) then s
    else
      let s1 := s.l1WriteBack core key (.ctx, l.charged core l.dirty)
      let k := s1.core core
      s1.setCore core { k with l1 := k.l1.del key }

/-- Replacement order of a policy (R204): stream lines go first, persist lines last. -/
def polRank (pol : Nat) : Nat := if pol = 1 then 0 else if pol = 3 then 2 else 1

/-- Does one L1 line leave before another (R204, log 7)? -/
def L1Line.before (x y : L1Line) : Bool :=
  decide (polRank x.pol < polRank y.pol) || (decide (polRank x.pol = polRank y.pol) && decide (x.lru ≤ y.lru))

/-- The line that leaves first of some L1 lines. -/
def lruL1 : Tab L1Line → Option Nat
  | [] => none
  | e :: r => match lruL1 r with
    | none => some e.1
    | some k => match Tab.get? r k with
      | some y => if e.2.before y then some e.1 else some k
      | none => some e.1

/-- The lines of an L1 set (R204). -/
def State.l1Set (s : State) (core key : Nat) : Tab L1Line :=
  (s.core core).l1.filter fun e => e.1 / 256 % 64 == key / 256 % 64

/-- The line that leaves to make room in an L1 set (log 7): `some none` where a way is free. -/
def State.l1Victim (s : State) (core key : Nat) : Option (Option Nat) :=
  let ls := s.l1Set core key
  if ls.length < 8 then some none
  else (lruL1 (ls.filter fun e => e.2.bufs.isEmpty && !s.l1Waits core e.1 (BitVec.allOnes 256))).map some

/-- Makes room in an L1 set: the state, and whether a line may be placed. -/
def State.l1Room (s : State) (core key : Nat) : State × Bool :=
  match s.l1Victim core key with
  | none => (s, false)
  | some none => (s, true)
  | some (some v) => (s.l1Evict core v, true)

/-- Is context x within a scope of context g (R254)? -/
def inScope (sc : Scope) (g x : Nat) : Bool :=
  match sc with
  | .ctx => g == x
  | .core => g / 4 == x / 4
  | .clu => g / 16 == x / 16
  | .dev | .pod => true

/-- What the scope checker finds when a plain load of context g fills the line of ia into its L1 (R373): a report is due,
once for the tag. -/
def State.checkFill (s : State) (g ia : Nat) : State × Option (Scope × Nat) :=
  let ctl := (s.cl (clusterOf g)).dbg.owlCtl
  if bit ctl 5 && bit ctl (16 + memberOf g) then
    let sl := homeSlice ia
    let x := s.slice sl
    match x.tags.get? (ia / 1024) with
    | some t => if inScope t.1 t.2 g then (s, none)
        else (s.setSlice sl { x with tags := x.tags.del (ia / 1024) }, some t)
    | none => (s, none)
  else (s, none)

/-- A load through the L1 of n bytes within one line (R204, R292): the bytes, and whether the line was filled. -/
def State.l1Load (s : State) (core ia n pol : Nat) (a : Acc) : State × Res (List Byte) × Bool :=
  let key := l1Key ia a.world
  let o := ia % 256
  let m := maskOf o n
  let old := (s.core core).l1.get? key
  match old with
  | some l =>
    if l.valid &&& m = m then
      let k := s.core core
      (s.setCore core { k with l1 := k.l1.put key { l with lru := s.fresh, pol := pol } }, .ok (l.data.read o n), false)
    else
      match s.homeRead (ia / 256 * 256) 256 a false with
      | (s1, .ok bs) =>
        let data := (Mem.write [] 0 bs).over (l.dirty ||| l.bufMask) l.data
        let k := s1.core core
        let l1 : L1Line := { l with data := data, valid := BitVec.allOnes 256, lru := s.fresh, pol := pol }
        (s1.setCore core { k with l1 := k.l1.put key l1 }, .ok (data.read o n), true)
      | (s1, .pageFault) => (s1, .pageFault, false)
      | (s1, .poisoned) => (s1, .poisoned, false)
  | none =>
    match s.homeRead (ia / 256 * 256) 256 a false with
    | (s1, .ok bs) =>
      let room := s1.l1Room core key
      let s2 := room.1
      let k := s2.core core
      let l1 : L1Line := ⟨Mem.write [] 0 bs, BitVec.allOnes 256, 0, [], [], [], [], a.cls, pol, s.fresh⟩
      (if room.2 then s2.setCore core { k with l1 := k.l1.put key l1 } else s2, .ok (sub bs o n), room.2)
    | (s1, .pageFault) => (s1, .pageFault, false)
    | (s1, .poisoned) => (s1, .poisoned, false)

/-- The ways of an L1 set that tasks mark (R292). -/
def State.taskWays (s : State) (core key : Nat) : Nat := ((s.l1Set core key).filter fun e => !e.2.bufs.isEmpty).length

/-- Bytes added to the buffer of a task. -/
def bufAdd (bufs : List TaskBuf) (g : Nat) (cls : BitVec 2) (m : BitVec 256) (o : Nat) (bs : List Byte) : List TaskBuf :=
  let old := (bufs.find? fun b => b.g == g).getD ⟨g, 0, [], cls⟩
  (bufs.filter fun b => b.g != g) ++ [⟨g, old.mask ||| m, old.data.write o bs, cls⟩]

/-- The bytes of a mask marked as stored by a context. -/
def mark (t : Tab (BitVec 256)) (g : Nat) (m : BitVec 256) : Tab (BitVec 256) := t.put g (t.get g 0 ||| m)

/-- A plain store into the L1 of bytes within one line (R204, R292): false where a buffered store would leave more than
six ways of its set marked, or finds no way (log 40), and nothing is stored. A buffered byte and a plain dirty one of the
same address are kept apart, since they go home at different times. -/
def State.l1Store (s : State) (core ia pol : Nat) (bs : List Byte) (a : Acc) (task : Bool) : State × Bool :=
  let key := l1Key ia a.world
  let o := ia % 256
  let m := maskOf o bs.length
  let old := (s.core core).l1.get? key
  let marked := match old with
    | some l => !l.bufs.isEmpty
    | none => false
  if task && !marked && decide (s.taskWays core key ≥ 6) then (s, false)
  else
    let s1 := match old with
      | some _ => (s, true)
      | none => s.l1Room core key
    let l : L1Line := old.getD ⟨[], 0, 0, [], [], [], [], a.cls, pol, 0⟩
    let k := s1.1.core core
    let seen : L1Line := { l with data := l.data.write o bs, valid := l.valid ||| m, lru := s.fresh, pol := pol }
    let new : L1Line := if task then { seen with bufs := bufAdd l.bufs a.g a.cls m o bs }
      else { seen with
        dirty := l.dirty ||| m, pdata := l.pdata.write o bs, cls := a.cls
        by_ := mark l.by_ a.g m, all_ := mark l.all_ a.g m }
    if s1.2 then (s1.1.setCore core { k with l1 := k.l1.put key new }, true)
    else if task then (s, false)
    else match s1.1.writeTxn a (cellsAt ia bs) false with
      | (s2, .ok _) => (s2, true)
      | (s2, .pageFault) => (s2.setAsync a.g 0x20, true)
      | (s2, .poisoned) => (s2.setAsync a.g 0x23, true)

/-- What a line shows where a task's bytes have gone: a dirty byte, another task's, or none. -/
def L1Line.without (l : L1Line) (g : Nat) (m : BitVec 256) : L1Line :=
  let bufs := l.bufs.filter fun b => b.g != g
  let rest := bufs.foldl (fun x b => x ||| b.mask) l.dirty
  { l with
    bufs := bufs, valid := l.valid &&& (~~~ m ||| rest)
    data := bufs.foldl (fun d b => d.over (b.mask &&& m) b.data) (l.data.over (l.dirty &&& m) l.pdata) }

/-- The line without the bytes that the task of a context has buffered in it. -/
def L1Line.dropBuf (l : L1Line) (g : Nat) : L1Line :=
  match l.bufs.find? fun b => b.g == g with
  | some b => l.without g b.mask
  | none => l

/-- The bytes a task has buffered are dropped from its core's L1 (R293). -/
def State.dropBuffered (s : State) (g : Nat) : State :=
  let k := s.core (coreOf g)
  s.setCore (coreOf g) { k with l1 := k.l1.map fun e => (e.1, e.2.dropBuf g) }

/-- The line of a task's buffered bytes, by its context. -/
def State.taskBuf (s : State) (core key g : Nat) : Option (L1Line × TaskBuf) :=
  match (s.core core).l1.get? key with
  | none => none
  | some l => (l.bufs.find? fun b => b.g == g).map fun b => (l, b)

/-- Would a task's commit of one line wait (R323)? -/
def State.commitWaits (s : State) (core key g : Nat) : Bool :=
  match s.taskBuf core key g with
  | none => false
  | some (l, b) => s.l1Waits core key b.mask ||
      s.txnWaits (s.l1Acc core key l b.cls 0 (.dev, g)) (maskedCells (key / 256 * 256) b.data b.mask) false

/-- One line of a task committed (R292): its buffered bytes go home as one write transaction, after the bytes of the same
addresses that were stored before them outside a task. -/
def State.commitLine (s : State) (core key g : Nat) : State :=
  match s.taskBuf core key g with
  | none => s
  | some (_, b) =>
    let s1 := s.l1Send core key b.mask (.pod, g)
    let k := s1.core core
    match k.l1.get? key with
    | none => s1
    | some l =>
      let bufs := l.bufs.filter fun x => x.g != g
      let other := bufs.foldl (fun x y => x ||| y.mask) 0
      let a : Acc := { s1.l1Acc core key l b.cls 0 (.dev, g) with g := g }
      let s2 := s1.setCore core { k with l1 := k.l1.put key { l with
        bufs := bufs, data := l.data.over (b.mask &&& ~~~ other) b.data } }
      match s2.writeTxn a (maskedCells (key / 256 * 256) b.data b.mask) false with
      | (s3, .ok _) => s3
      | (s3, .pageFault) => s3.setAsync g 0x20
      | (s3, .poisoned) => s3.setAsync g 0x23

/-- R222: the dirty bytes of the same 256-byte L1 line go home ahead of an operation performed there. -/
def State.sendFirst (s : State) (core ia : Nat) (world : Byte) (g : Nat) : State :=
  s.l1WriteBack core (l1Key ia world) (.pod, g)

/-- The L1 keys of a core that lie in an IA range. -/
def State.l1Keys (s : State) (core lo n : Nat) : List Nat :=
  (((s.core core).l1.filter fun e =>
    decide (lo < (e.1 / 256 + 1) * 256) && decide (e.1 / 256 * 256 < lo + n)).map fun e => e.1)

/-- The bytes of an L1 line that lie in an IA range. -/
def rangeMask (key lo n : Nat) : BitVec 256 :=
  let base := key / 256 * 256
  let a := lo - base
  maskOf a (min 256 (lo + n - base) - a)

/-- Write-back of a range of the L1 (R257): the dirty bytes of the range alone. -/
def State.l1SendRange (s : State) (core lo n : Nat) (tag : Scope × Nat) : State :=
  (s.l1Keys core lo n).foldl (fun t key => t.l1Send core key (rangeMask key lo n) tag) s

/-- Would the write-back of a range of the L1 wait (R323)? -/
def State.sendWaits (s : State) (core lo n : Nat) : Bool :=
  (s.l1Keys core lo n).any fun key => s.l1Waits core key (rangeMask key lo n)

/-- Invalidation of a range of the L1 (R257, R245, R265): whole lines, whose dirty bytes go home first (R254). -/
def State.l1InvalRange (s : State) (core lo n : Nat) (tag : Scope × Nat) : State :=
  (s.l1Keys core lo n).foldl (fun t key => t.l1Inval core key tag) s

/-- Write-back and invalidation of a whole L1 (R258, R285). -/
def State.l1FlushAll (s : State) (core : Nat) (tag : Scope × Nat) : State :=
  (((s.core core).l1).map fun e => e.1).foldl (fun t key => t.l1Inval core key tag) s

/-- Would the write-back of a whole L1 wait (R323)? -/
def State.flushWaits (s : State) (core : Nat) : Bool :=
  ((s.core core).l1).any fun e => s.l1Waits core e.1 (BitVec.allOnes 256)

/-- A context has released: it no longer counts as having stored to any line (R322). -/
def State.releaseMarks (s : State) (g : Nat) : State :=
  let k := s.core (coreOf g)
  s.setCore (coreOf g) { k with l1 := k.l1.map fun e => (e.1, { e.2 with by_ := e.2.by_.del g }) }

end Sys2Proof.Machine
end

