-- ==== Sys2Proof/Machine/Journal.lean ====
section
/-! DEFINITION. What the units outside a core write: journal entries and notices (R289) with their MSI-X messages
(R378), the records of the owl unit (R369, R370), and the halt of a task pool (R292 to R294). -/

namespace Sys2Proof.Machine
open Sys2Proof

/-! ### The journal -/

/-- Does a queue serve (QCTL bit 0, R274)? -/
def Queue.on (q : Queue) : Bool := bit q.ctl 0

/-- The tenant of a queue. -/
def Queue.tenant (q : Queue) : Nat := bits q.ctl 7 4

/-- Entries of the journal ring. -/
def Queue.jlen (q : Queue) : Nat := 2 ^ (bits q.jsize 4 0)

/-- Journal entries that commands in flight have reserved: started and final, or final alone (R289). -/
def reservedFor : List QCmd → Nat
  | [] => 0
  | c :: r => (if c.started then 1 else 2) + reservedFor r

/-- Journal entries that are free beyond the reserved ones; a ring of N holds N − 1 unread entries (R289), those that wait to be
written among them. -/
def Queue.jfree (q : Queue) : Nat :=
  let unread := (q.jhead.toNat + q.jlen - q.jread.toNat % q.jlen) % q.jlen + q.jwait.length
  q.jlen - 1 - unread - reservedFor q.cmds

/-- The function that owns queue q: a VF, or none for the PF (R375). -/
def State.ownerFn (s : State) (q : Nat) : Option Nat :=
  let b := s.mg.qassign.get q 0#8
  if b.getLsbD 7 then some (b.toNat % 16) else none

/-- The number of a function among the PCI Express functions: the PF is 0, VF v is v + 1. -/
def fnNo : Option Nat → Nat
  | none => 0
  | some v => v + 1

/-- The capabilities of a function (R374), and the state with them replaced. -/
def State.pfn (s : State) (fn : Option Nat) : PcieFn := s.mg.pcie.get (fnNo fn) PcieFn.init
def State.setPfn (s : State) (fn : Option Nat) (x : PcieFn) : State :=
  { s with mg := { s.mg with pcie := s.mg.pcie.put (fnNo fn) x } }

/-- Is a vector of a function masked, by itself or with its function? -/
def PcieFn.masks (x : PcieFn) (v : Nat) : Bool := x.fmask || (x.table.get v MsixEntry.init).masked

/-- A message of a vector (R378): it is sent, or kept as the vector's pending bit while the vector is masked; a function
whose MSI-X is not enabled raises none. -/
def State.raise (s : State) (fn : Option Nat) (v : Nat) : State :=
  let x := s.pfn fn
  if !x.enable then s
  else if x.masks v then s.setPfn fn { x with pending := x.pending ||| (1#64 <<< v) }
  else s.send (.msix fn v)

/-- Vectors of a function that are pending and no longer masked are sent (R378). -/
def State.sendPending (s : State) (fn : Option Nat) : State :=
  (List.range 64).foldl (fun t v =>
    let x := t.pfn fn
    if x.enable && x.pending.getLsbD v && !x.masks v then
      (t.setPfn fn { x with pending := x.pending &&& ~~~(1#64 <<< v) }).send (.msix fn v)
    else t) s

/-- The MSI-X message of a journal entry (R378): raised when IE is set and the function has the vector. -/
def State.journalMsg (s : State) (q : Nat) : State :=
  let x := s.queue q
  let v := bits x.ctl 14 9
  let fn := s.ownerFn q
  let has := match fn with
    | none => decide (4 ≤ v)
    | some _ => decide (v < 4)
  if bit x.ctl 8 && has then s.raise fn v else s

/-- A PF message for a change of status (R378). -/
def State.pfMsg (s : State) (v : Nat) : State := s.raise none v

/-- The 32 bytes of a journal entry (R289). -/
def journalBytes (seq : Word) (state code place : Nat) (time : Nat) (detail : Word) : List Byte :=
  leBytes 8 seq.toNat ++ [BitVec.ofNat 8 state, BitVec.ofNat 8 code, BitVec.ofNat 8 place] ++ leBytes 5 0 ++
    leBytes 8 time ++ leBytes 8 detail.toNat

/-- The access of a unit of the module itself, on behalf of a tenant. -/
def unitFor (tenant : Nat) : Acc := { unitAcc with tenant := tenant }

/-- Does such a write wait at the memory side (R323)? -/
def State.ringWaits (s : State) (q : Nat) (base : Word) (off : Nat) (bs : List Byte) : Bool :=
  !bit base 63 && s.txnWaits (unitFor (s.queue q).tenant) (cellsAt (bits base 62 6 * 64 + off) bs) false

/-- Bytes written for queue q to a ring in device memory (world 0, at home) or in host memory, there as a request of the
function that owns the queue (R375): the state, and whether the write was performed. -/
def State.ringWrite (s : State) (q : Nat) (base : Word) (off : Nat) (bs : List Byte) : State × Bool :=
  let a := bits base 62 6 * 64 + off
  if bit base 63 then
    (({ s with hostMem := s.hostMem.write a bs }).send (.hostWrite (s.ownerFn q) a bs), true)
  else match s.writeTxn (unitFor (s.queue q).tenant) (cellsAt a bs) false with
    | (s1, .ok _) => (s1, true)
    | (s1, .pageFault) => (s1, false)
    | (s1, .poisoned) => (s1, false)

/-- A queue with QCTL bit 0 cleared. -/
def Queue.off (q : Queue) : Queue := { q with ctl := q.ctl &&& ~~~1#64 }

/-- Where the next entry of a journal ring goes. -/
def Queue.jnext (q : Queue) : Nat := q.jhead.toNat % q.jlen * 32

/-- One journal entry written to queue q's ring (R289); a write that meets a page fault is lost and disables the queue. -/
def State.jput (s : State) (q : Nat) (bs : List Byte) : State :=
  let x := s.queue q
  let alone := decide (x.jhead.toNat % x.jlen = x.jread.toNat % x.jlen)
  if x.jbad then s.setQueue q { x with jlost := x.jlost + 1 }
  else match s.ringWrite q x.jbase x.jnext bs with
  | (s1, true) =>
    let y := s1.queue q
    let s2 := s1.setQueue q { y with jhead := BitVec.ofNat 32 ((y.jhead.toNat + 1) % y.jlen) }
    if alone then s2.journalMsg q else s2
  | (s1, false) =>
    let y := s1.queue q
    s1.setQueue q { y.off with jlost := y.jlost + 1, jbad := true }

/-- A journal entry of queue q (R289). One whose write the memory side holds (R323) waits, and with it what comes after it in
the journal and the later commands of the queue (`Queue.jwait`). -/
def State.journal (s : State) (q : Nat) (seq : Word) (state code place : Nat) (detail : Word) : State :=
  let x := s.queue q
  let bs := journalBytes seq state code place s.refClock detail
  if !x.jbad && (!x.jwait.isEmpty || s.ringWaits q x.jbase x.jnext bs) then s.setQueue q { x with jwait := x.jwait ++ [bs] }
  else s.jput q bs

/-- The notice queue of a tenant: its lowest-numbered enabled queue (R289). -/
def State.noticeQueue (s : State) (tenant : Nat) : Option Nat :=
  (List.range 64).find? fun q => (s.queue q).on && decide ((s.queue q).tenant = tenant)

/-- A notice to a tenant; without a free entry it is lost (R289). -/
def State.notice (s : State) (tenant code : Nat) (detail : Word) : State :=
  match s.noticeQueue tenant with
  | none => s
  | some q =>
    let x := s.queue q
    if x.jfree = 0 then s.setQueue q { x with jlost := x.jlost + 1 } else s.journal q 0 5 code 0 detail

/-- A notice to every tenant that has an enabled queue (link down, R289). -/
def State.noticeAll (s : State) (code : Nat) (detail : Word) : State :=
  (List.range 16).foldl (fun t k => t.notice k code detail) s

/-! ### The owl unit -/

/-- Does the cluster trace records of this kind for this member (R370)? -/
def Dbg.traces (d : Dbg) (kind member : Nat) : Bool :=
  bit d.owlCtl 0 && bit d.owlCtl (16 + member) && (kind == 5 || bit d.owlCtl kind)

/-- One record written at the head of the ring. -/
def State.owlPut (s : State) (cl : Nat) (bs : List Byte) : State :=
  let d := (s.cl cl).dbg
  let n := 2 ^ (bits d.owlSize 4 0)
  let a := bits d.owlBase 51 12 * 4096 + 32 * (bits d.owlHead 31 0 % n)
  let s1 := match s.writeTxn (unitFor ((s.tenantOf cl).getD 16)) (cellsAt a bs) false 0 .nobody with
    | (t, .ok _) => t
    | (t, .pageFault) => t
    | (t, .poisoned) => t
  let c := s1.cl cl
  s1.setCl cl { c with dbg := { c.dbg with owlHead := BitVec.ofNat 64 ((bits c.dbg.owlHead 31 0 + 1) % 2 ^ 32) } }

/-- Places left in the ring, counting OWLREAD as the host's position (R370). -/
def Dbg.room (d : Dbg) : Nat :=
  2 ^ (bits d.owlSize 4 0) - (bits d.owlHead 31 0 + 2 ^ 32 - bits d.owlRead 31 0) % 2 ^ 32

/-- The common part of a trace record and its rest (R369). -/
def owlBytes (time kind code g ord : Nat) (rest : List Byte) : List Byte :=
  leBytes 8 time ++ [BitVec.ofNat 8 kind, BitVec.ofNat 8 code] ++ leBytes 2 g ++ leBytes 4 ord ++ rest

/-- The kind 6 record of dropped records, where a place has become free (R370). -/
def State.owlLost (s : State) (cl time : Nat) : State :=
  let d := (s.cl cl).dbg
  if d.lost = 0 || d.room = 0 then s
  else
    let s1 := s.owlPut cl (owlBytes time 6 0 ((s.free 1025 0).toNat % 1024) ((s.free 1025 1).toNat % 2 ^ 32)
      (leBytes 4 d.lost ++ leBytes 12 0))
    let c := s1.cl cl
    s1.setCl cl { c with dbg := { c.dbg with lost := 0 } }

/-- A trace record of an event of context g at a reference clock, where the owl unit writes its kind (R370). -/
def State.owlAt (s : State) (time g kind code ord : Nat) (rest : List Byte) : State :=
  let cl := clusterOf g
  if !(s.cl cl).dbg.traces kind (memberOf g) then s
  else
    let s1 := s.owlLost cl time
    let d := (s1.cl cl).dbg
    if d.room = 0 then
      let c := s1.cl cl
      s1.setCl cl { c with dbg := { c.dbg with lost := d.lost + 1 } }
    else s1.owlPut cl (owlBytes time kind code g ord rest)

/-- A trace record of an event of context g now. -/
def State.owl (s : State) (g kind code ord : Nat) (rest : List Byte) : State := s.owlAt s.refClock g kind code ord rest

/-- A scope report written as a kind 5 record (R373). -/
def State.scopeRecord (s : State) (g : Nat) (r : Nat × Nat × Nat) : State :=
  s.owl g 5 r.1 (bits (s.ctx g).safeord 31 0) (leBytes 8 r.2.2 ++ leBytes 2 r.2.1 ++ leBytes 6 0)

/-- What the four counters need to know of an event (R371): its number, the bundle's context, address and step, whether it is
a STOP bundle that issues, and the slot of its sampled request (R372). -/
structure CntEv where
  ev   : Nat
  g    : Nat
  addr : Word
  step : Nat
  stop : Bool
  slot : Nat

/-- SAFEORD at an event: a STOP bundle that issues outside handler mode has set it (R366). -/
def State.eventOrd (s : State) (e : CntEv) : Nat :=
  let o := (s.core (coreOf e.g)).smap.get e.addr.toNat 0
  if e.stop && !(s.ctx e.g).hm && decide (o ≠ 0) then o.toNat else bits (s.ctx e.g).safeord 31 0

/-- A counter wraps (R371, R372): CNT_SAMPLE is next, no context of the core issues in the following clock, and the request
of a memory bundle is sampled. -/
def State.wrapped (s : State) (e : CntEv) (n : Nat) : State :=
  let c := s.cl (clusterOf e.g)
  let k := s.core (coreOf e.g)
  let s1 := (s.setCl (clusterOf e.g) { c with dbg := { c.dbg with
    hits := c.dbg.hits ++ [⟨n, e.g, e.addr, e.step, s.eventOrd e, s.refClock⟩]
    sample := if e.ev = 3 then c.dbg.sample ++ [⟨n, e.g, e.addr, e.step, e.slot⟩] else c.dbg.sample } }).setCore (coreOf e.g)
      { k with frozen := s.clock + 2 }
  { s1 with agenda := .cntSample (clusterOf e.g) n :: s1.agenda }

/-- Counter n of a cluster counts an event (R371). -/
def State.countOne (s : State) (e : CntEv) (n : Nat) : State :=
  let c := s.cl (clusterOf e.g)
  let w := vget c.dbg.cnt n 0
  if bits w 35 32 = e.ev && bit w (48 + memberOf e.g) then
    let v := bits w 31 0
    let w1 := (w &&& 0xFFFFFFFF00000000#64) ||| BitVec.ofNat 64 ((v + 1) % 2 ^ 32)
    let s1 := s.setCl (clusterOf e.g) { c with dbg := { c.dbg with cnt := vput c.dbg.cnt n w1 } }
    if v + 1 = 2 ^ 32 then s1.wrapped e n else s1
  else s

/-- An event of R371 counted by the four counters of the cluster. -/
def State.countEvent (s : State) (e : CntEv) : State := (List.range 4).foldl (fun t n => t.countOne e n) s

/-! ### Task pools -/

/-- The operations of a context that wait to be performed, oldest first. -/
def heldIn (pend : List Op) : List MemOp := pend.filterMap (·.mem)

/-- Is an operation that waits a TKDONE? -/
def MemOp.isTkdone (m : MemOp) : Bool :=
  match m.kind with
  | .sync _ _ .tkdone => true
  | _ => false

/-- The task that a context holds: none from the issue of its TKDONE on (R310). -/
def Ctx.holds (c : Ctx) : Option Nat := if (heldIn c.pend).any (·.isTkdone) then none else c.task

/-- Tasks of a pool that have committed. -/
def Pool.committed (p : Pool) : Nat := (p.tasks.filter (·.done)).length

/-- A pool halts (R294): its fault record is written where it can be, then notice 0x21 names the pool; a record that waits at the
memory side (R323) takes the notice with it. -/
def State.haltPool (s : State) (gid cause task succ g : Nat) : State :=
  match s.gang? gid with
  | none => s
  | some x => match x.pool with
    | none => s
    | some p =>
      if p.halted then s
      else
      let s1 := s.setGang { x with pool := some { p with halted := true } }
      let bs := leBytes 4 cause ++ leBytes 4 task ++ leBytes 4 succ ++ leBytes 4 p.committed ++
        leBytes 8 s.refClock ++ leBytes 8 g
      if bits p.fault 4 0 ≠ 0 || bits p.fault 63 60 ≠ 0 then s1.notice x.tenant 0x21 p.desc
      else match translate p.wins (p.world.truncate 8) (bits p.fault 57 0) 32 permW with
        | .ok ia w =>
          let a : Acc := ⟨w.world, w.cls, x.tenant, g, (.pod, g)⟩
          if s1.txnWaits a (cellsAt ia bs) false then
            (s1.writeTxn a (cellsAt ia bs) false 0 (.notice x.tenant 0x21 p.desc)).1
          else (s1.writeTxn a (cellsAt ia bs) false).1.notice x.tenant 0x21 p.desc
        | .windowFault | .worldViolation => s1.notice x.tenant 0x21 p.desc

/-- Task t of a pool replaced. -/
def Pool.setTask (p : Pool) (t : Nat) (x : TaskSt) : Pool := { p with tasks := p.tasks.set t x }

/-- The task that context g holds fails (R293): its buffered bytes go, and it is ready again with its original ready
time; the fourth failure halts the pool, and so does a full task buffer, at once (R292). -/
def State.taskFail (s : State) (g : Nat) (full : Bool) : State :=
  let c := s.ctx g
  match c.task with
  | none => s
  | some t =>
    let s1 := (s.setCtx g { c with task := none }).dropBuffered g
    match s1.gangOf g with
    | none => s1
    | some (x, _) => match x.pool with
      | none => s1
      | some p => match p.tasks[t]? with
        | none => s1
        | some k =>
          let k1 := { k with holder := none, failed := coreOf g :: k.failed, ready := if full then none else some k.first }
          let s2 := s1.setGang { x with pool := some (p.setTask t k1) }
          if full then s2.haltPool x.id 3 t 0xFFFFFFFF g
          else if k1.failed.length = 4 then s2.haltPool x.id 2 t 0xFFFFFFFF g
          else s2

/-! ### Transactions that have waited (R206, R323) -/

/-- What follows a write that had waited: the fatal stop of its context where it failed (R322, R219), or a notice. -/
def State.lateDone (s : State) (g : Nat) (fin : LateEnd) (r : Res Unit) : State :=
  match fin, r with
  | .ctx, .pageFault => s.setAsync g 0x20
  | .ctx, .poisoned => s.setAsync g 0x23
  | .notice tenant code detail, _ => s.notice tenant code detail
  | .ctx, .ok _ | .nobody, _ => s

/-- One waiting transaction, performed or still waiting behind those before it. -/
def State.retryLate (s : State) (t : LateTxn) : State :=
  match t with
  | .write _ world cls tenant g tag cells must kind fin =>
    let a : Acc := ⟨world, cls, tenant, g, tag⟩
    if s.txnWaits a cells must then { s with late := s.late ++ [t] }
    else
      let r := s.performTxn a cells must kind
      r.1.lateDone g fin r.2
  | .atom ia world cls tenant g code w64 x =>
    let a : Acc := ⟨world, cls, tenant, g, (.pod, g)⟩
    let n := if w64 then 8 else 4
    if s.waitsAt ia a true true none then { s with late := s.late ++ [t] }
    else match s.homeRead ia n a true true with
      | (s1, .ok bs) => (match s1.performTxn a (cellsAt ia (leBytes n (atomOp code w64 (leWord bs) x).toNat)) true 0 with
        | (s2, .ok _) => s2
        | (s2, .pageFault) => s2.setAsync g 0x20
        | (s2, .poisoned) => s2.setAsync g 0x23)
      | (s1, .pageFault) => s1.setAsync g 0x20
      | (s1, .poisoned) => s1.setAsync g 0x23

/-- The journal entries of a queue that have waited, at most n of them, are written as far as they can be now. -/
def State.retryJournal (s : State) (q : Nat) : Nat → State
  | 0 => s
  | n + 1 =>
    match (s.queue q).jwait with
    | [] => s
    | bs :: r =>
      if s.ringWaits q (s.queue q).jbase (s.queue q).jnext bs then s
      else ((s.setQueue q { s.queue q with jwait := r }).jput q bs).retryJournal q n

/-- The waiting transactions that can be performed now, oldest first. -/
def State.retryAll (s : State) : State :=
  let s1 := s.late.foldl State.retryLate { s with late := [] }
  (s1.mg.queues.map (·.1)).foldl (fun t q => t.retryJournal q ((t.queue q).jwait.length)) s1

end Sys2Proof.Machine
end

