-- ==== Sys2Proof/Machine/Flags.lean ====
section
/-! DEFINITION. The sticky status flags of R91 and their ORing into ESTAT (R92). Which operation sets which flag is
computed with its result: in Float for R88 to R134, in Engine arithmetic for R167 to R194. -/

namespace Sys2Proof.Machine
open Sys2Proof

def flagNX : Byte := 0x01
def flagUF : Byte := 0x02
def flagOF : Byte := 0x04
def flagDZ : Byte := 0x08
def flagNV : Byte := 0x10
def flagSA : Byte := 0x20

/-- The OR of the flags of several elements (R136). -/
def orFlags : List Byte → Byte
  | [] => 0#8
  | f :: r => f ||| orFlags r

/-- The context with flags ORed into ESTAT bits 7:0 (R91, R92). -/
def Ctx.orFlags (c : Ctx) (f : Byte) : Ctx := { c with estat := c.estat ||| f.zeroExtend 64 }

/-- The flags of a command completing for context g: ORed while it lives, discarded once it has exited (R92). -/
def State.orFlags (s : State) (g : Nat) (f : Byte) : State :=
  match (s.ctx g).status with
  | .exited | .idle => s
  | .ready | .waiting | .fatal | .drained => s.setCtx g ((s.ctx g).orFlags f)

/-- ESTAT as it is read (R342): HM in bit 24, the reserved bits 0. -/
def Ctx.estatRead (c : Ctx) : Word :=
  (c.estat &&& 0x00000FFF00FFFF3F#64) ||| (if c.hm then 0x01000000#64 else 0#64)

end Sys2Proof.Machine
end

