-- ==== Sys2Proof/Machine/Operands.lean ====
section
/-! DEFINITION. Operands: registers as a bundle reads them (R13, R19, R28), the BIMM operand (R39), captured words in
place of registers (R112, R182), effective addresses (R46) and integer types (R43, R105). -/

namespace Sys2Proof.Machine
open Sys2Proof

/-- What a register holds: s0 reads 0 and p0 reads all ones (R28). A narrower register is zero-extended. -/
def Ctx.reg (c : Ctx) (r : RegN) : Vec :=
  match r with
  | .s i => if i = 0 then 0 else (vget c.s i 0).zeroExtend 256
  | .v i => vget c.v i 0
  | .p i => if i = 0 then 0xFF else (vget c.p i 0).zeroExtend 256
  | .q i => (vget c.q i 0).zeroExtend 256
  | .bt i => (vget c.bt i 0).zeroExtend 256

/-- The context with a result written: writes to s0 and p0 are discarded (R28). -/
def Ctx.putReg (c : Ctx) (r : RegN) (x : Vec) : Ctx :=
  match r with
  | .s i => if i = 0 then c else { c with s := vput c.s i (x.truncate 64) }
  | .v i => { c with v := vput c.v i x }
  | .p i => if i = 0 then c else { c with p := vput c.p i (x.truncate 8) }
  | .q i => { c with q := vput c.q i (x.truncate 64) }
  | .bt i => { c with bt := vput c.bt i (x.truncate 64) }

/-- Is a register never undefined: s0 and p0 (R28)? -/
def RegN.fixed : RegN → Bool
  | .s i => decide (i = 0)
  | .p i => decide (i = 0)
  | .v _ | .q _ | .bt _ => false

/-- Is this operation's bound still open for a bundle that is step m (R19)? The bundle that issued it is not later. -/
def Op.open (o : Op) (m : Nat) : Bool := decide (o.step < m) && decide (m < o.step + o.bound)

/-- Is register r undefined for the bundle that is step m: inside a bound (R19, R21), or the destination of an LDF that
no FWAIT has covered (R235)? -/
def Ctx.undef (c : Ctx) (m : Nat) (r : RegN) : Bool :=
  !r.fixed &&
    (c.pend.any (fun o => o.open m && o.dests.contains r) ||
      c.ldfs.any fun l => decide (r = .s l.dest) && decide (l.step < m))

/-- Register r of the current context as operand number `idx` of the syllable being issued: undefined values are free
(R9, R19). -/
def State.src (s : State) (r : RegN) (idx : Nat) : Vec :=
  if s.me.undef s.iss.step r then s.free s.iss.slot idx else s.me.reg r

/-- Scalar, vector, predicate and scale sources. -/
def State.srcS (s : State) (r : Reg) (idx : Nat) : Word := (s.src (.s r.toNat) idx).truncate 64
def State.srcV (s : State) (r : Reg) (idx : Nat) : Vec := s.src (.v r.toNat) idx
def State.srcP (s : State) (r : Reg) (idx : Nat) : Byte := (s.src (.p r.toNat) idx).truncate 8
def State.srcQ (s : State) (r : Nat) (idx : Nat) : Word := (s.src (.q r) idx).truncate 64

/-- Operand A of the syllable: the captured word when it is reissued or released (R112, R182), else the register. -/
def State.opA (s : State) (a : Reg) : Word :=
  match s.iss.ov with
  | some o => o.1
  | none => s.srcS a 0

/-- BIMM of an A- or X-slot operation (R39): sign-extended. -/
def State.bimmI (s : State) : Word := s.iss.bimm.signExtend 64

/-- Operand B of an A- or X-slot operation: captured word, register, or BIMM (R39). -/
def State.opB (s : State) (b : Src) : Word :=
  match s.iss.ov with
  | some o => o.2
  | none => match b with
    | .reg r => s.srcS r 1
    | .bimm => s.bimmI

/-- An operand that the syllable holds itself (an RI immediate): the captured word when it is reissued (R112). -/
def State.opImm (s : State) (x : Word) : Word :=
  match s.iss.ov with
  | some o => o.2
  | none => x

/-- A predicate source that a record keeps in words 2-3 or 4-5 (R112). -/
def State.opPA (s : State) (a : Reg) : Byte :=
  match s.iss.ov with
  | some o => o.1.truncate 8
  | none => s.srcP a 0
def State.opPB (s : State) (b : Reg) : Byte :=
  match s.iss.ov with
  | some o => o.2.truncate 8
  | none => s.srcP b 1

/-- The F-slot operand derived from BIMM (R39), by the type of the operation. -/
def bimmF (t : FTy) (bimm : BitVec 12) : Word :=
  match t with
  | .fp64 => (bimm ++ 0#52)
  | .fp32 => (bimm ++ 0#20).zeroExtend 64
  | .bf16 | .fp16 => (bimm ++ 0#4).zeroExtend 64
  | .narrow _ | .int8 => bimm.zeroExtend 64

/-- Operand B of a scalar F-slot operation of type t (R39). -/
def State.opBF (s : State) (b : Src) (t : FTy) : Word :=
  match s.iss.ov with
  | some o => o.2
  | none => match b with
    | .reg r => s.srcS r 1
    | .bimm => bimmF t s.iss.bimm

/-- Eight lanes of one value (R39). -/
def splat (x : BitVec 32) : Vec := x ++ x ++ x ++ x ++ x ++ x ++ x ++ x

/-- Operand B of a vector operation of type t: each lane takes the derived 32-bit operand (R39, R135). -/
def State.opBV (s : State) (b : Src) (t : FTy) : Vec :=
  match b with
  | .reg r => s.srcV r 1
  | .bimm => splat ((bimmF t s.iss.bimm).truncate 32)

/-- Operand B of a lane operation with no floating type: BIMM zero-extended (R39). -/
def State.opBN (s : State) (b : Src) : Word :=
  match b with
  | .reg r => s.srcS r 1
  | .bimm => s.iss.bimm.zeroExtend 64

/-- Lane i of a vector (R135). -/
def lane (x : Vec) (i : Nat) : BitVec 32 := x.extractLsb' (32 * i) 32

/-- The vector of eight lanes, lowest first. -/
def ofLanes (l : Nat → BitVec 32) : Vec :=
  l 7 ++ l 6 ++ l 5 ++ l 4 ++ l 3 ++ l 2 ++ l 1 ++ l 0

/-- Width of an ITYPE (R43). -/
def tyWidth : ITy → Nat
  | .i8 | .n8 => 8
  | .i16 | .n16 => 16
  | .i32 | .n32 => 32
  | .i64 | .n64 => 64

/-- Is an ITYPE signed? -/
def tySigned : ITy → Bool
  | .i8 | .i16 | .i32 | .i64 => true
  | .n8 | .n16 | .n32 | .n64 => false

/-- The integer that the low bits of x denote at a type (R105). -/
def tyInt (t : ITy) (x : Word) : Int :=
  if tySigned t then (BitVec.ofNat (tyWidth t) x.toNat).toInt else (BitVec.ofNat (tyWidth t) x.toNat).toNat

/-- The n-bit pattern of x. -/
def tyPat (t : ITy) (x : Word) : Nat := x.toNat % 2 ^ (tyWidth t)

/-- ext(wrap(z, t), t) of an exact integer (R105, R109). -/
def tyPut (t : ITy) (z : Int) : Word :=
  if tySigned t then (BitVec.ofInt (tyWidth t) z).signExtend 64 else (BitVec.ofInt (tyWidth t) z).zeroExtend 64

/-- The effective address of an M-form operation (R46). In a reissue it is the captured address. -/
def State.ea (s : State) (a : Reg) (off : Byte) (scale : Nat) : Word :=
  match s.iss.ov with
  | some o => o.1
  | none => s.srcS a 0 + off.signExtend 64 * BitVec.ofNat 64 scale

/-- The data operand of a store or atomic: words 4-5 when it is reissued (R242), else the D register. -/
def State.opD (s : State) (d : Reg) : Word :=
  match s.iss.ov with
  | some o => o.2
  | none => s.srcS d 2

/-- The second operand of a pair operation or the vector of a STVEC: held unseen with a record (R242). -/
def State.opHold (s : State) (x : Vec) : Vec :=
  match s.iss.rec_ with
  | some w => w.hold
  | none => x

end Sys2Proof.Machine
end

