-- ==== Sys2Proof/Machine/Access.lean ====
section
/-! DEFINITION. Named operations over memory as a context sees it: the spaces of a pointer and their limits (R199 to
R203), banks, the L1 and the home slice (R204, R221 to R226), futures on their way (R210, R235), and what a release, an
acquire and a fence do (R254 to R258). -/

namespace Sys2Proof.Machine
open Sys2Proof

/-- The space tag of a pointer (R199). -/
def tagOf (va : Word) : Nat := bits va 63 60

/-- The world that a context runs under. -/
def Ctx.worldB (c : Ctx) : Byte := c.world.truncate 8

/-- Is a number an index of the roster (R328)? -/
def State.inRoster (s : State) (m : Nat) : Bool := decide (m < s.trust.members.length)

/-- The transit key of a world (R324, R327). -/
def State.transitKey (s : State) (world : Byte) : Option (BitVec 512) := (s.slotOf world).bind (·.transit)

/-- Is a tag 0x4 access in a protected world refused: this member has no transit key for the world, or the remote one has
not (R327), of which this module learns only by its refusal, a free value? -/
def State.memberRefuses (s : State) (place : Nat) (w : Window) : Bool :=
  w.world ≠ 0 && ((s.transitKey w.world).isNone || (s.free place 64).getLsbD 0)

/-- The bytes of a write as they travel to a remote member, from the 16-byte block of their first byte on: ciphertext
under the transit key, with the IA as its tweak and 0 in the bytes of a block that the write does not name (R327,
log 116). -/
def State.inTransit (s : State) (world : Byte) (ia : Nat) (bs : List Byte) : Nat × List Byte :=
  match s.transitKey world with
  | none => (ia, bs)
  | some k =>
    let lo := ia / 16 * 16
    let n := (ia + bs.length + 15) / 16 - ia / 16
    let plain := (Mem.write [] (ia - lo) bs).read 0 (16 * n)
    (lo, ((chunks 16 n plain).mapIdx fun i b => xts true k (ia / 16 + i) b).flatten)

/-- A write leaves for a remote member (R200, R327). -/
def State.sendRemote (s : State) (m ia : Nat) (w : Window) (bs : List Byte) : State :=
  let t := if w.world = 0 then (ia, bs) else s.inTransit w.world ia bs
  s.send (.remoteWrite m t.1 t.2 w.world)

/-- The two operands of an operation as they travel to a remote member: one block, in a protected world ciphertext under the
transit key as a write is (R327, log 116). -/
def State.operandsOut (s : State) (world : Byte) (ia : Nat) (x y : Word) : List Byte :=
  let bs := leBytes 8 x.toNat ++ leBytes 8 y.toNat
  if world = 0 then bs
  else match s.transitKey world with
    | none => bs
    | some k => xts true k (ia / 16) bs

/-- An STF, a CASV or an atomic leaves for a remote member (R200, R327). -/
def State.sendOp (s : State) (m ia : Nat) (world : Byte) (syl : Syl) (x y : Word) : State :=
  s.send (.remoteOp m ia syl (s.operandsOut world ia x y) world)

/-- The place of an access of n bytes by context g (R199 to R201, R317, R327, R328). Only an access with a policy other
than 10 may use the L1; a tag 0x4 access never does (R204). -/
def State.locate (s : State) (g : Nat) (va : Word) (n : Nat) (k : Perm) : Place :=
  let c := s.ctx g
  let z := s.sizes g
  match tagOf va with
  | 0 =>
    match translate c.win.toList c.worldB (bits va 57 0) n k with
    | .ok ia w => .home ia w (bits va 59 58)
    | .windowFault => .bad 0x01
    | .worldViolation => .bad 0x21
  | 1 => if bits va 59 0 + n ≤ z.1 then .bank (clusterOf g) (bits va 59 0) else .bad 0x02
  | 2 =>
    match s.crewCluster g (bits va 59 56) with
    | some cl => if bits va 55 0 + n ≤ z.1 then .bank cl (bits va 55 0) else .bad 0x02
    | none => .bad 0x02
  | 3 =>
    if bits va 59 0 + n ≤ z.2.1 then .bank (clusterOf g) (z.1 + memberOf g * z.2.1 + bits va 59 0) else .bad 0x02
  | 4 =>
    if bits va 59 58 ≠ 0 then .bad 0x02
    else match translate c.win.toList c.worldB (bits va 49 0) n k with
      | .windowFault => .bad 0x01
      | .worldViolation => .bad 0x21
      | .ok ia w =>
        let m := bits va 57 50
        if !s.inRoster m then .bad 0x22
        else if m = s.trust.myIdx then .home ia w 2
        else if s.memberRefuses s.iss.slot w then .bad 0x21
        else .remote m ia w
  | _ => .bad 0x02

/-- An access of context g through a window; `tag` is what the scope checker keeps of a write (R373). -/
def State.acc (s : State) (g : Nat) (w : Window) (tag : Scope × Nat) : Acc :=
  ⟨w.world, w.cls, (s.tenantOf (clusterOf g)).getD 16, g, tag⟩

/-- Is an address in local space below an active SLIM (R203)? -/
def Ctx.belowSlim (c : Ctx) (va : Word) : Bool :=
  tagOf va = 3 && tagOf c.slim = 3 && !c.hm && decide (va.toNat < c.slim.toNat)

/-- The checks of an L- or S-slot operation at issue (log 11): tag accepted, limit, alignment, window, stack limit.
`tags` lists the tags that R221 accepts. An atomic below SLIM takes the stack-limit stop although R221 accepts no local
address of it, because R203 names it (log 11). -/
def State.check (s : State) (g : Nat) (va : Word) (n al : Nat) (tags : List Nat) (k : Perm) (stack : Bool) : Place :=
  if !tags.contains (tagOf va) then .bad (if stack && (s.ctx g).belowSlim va then 0x05 else 0x02)
  else
    let p := s.locate g va n k
    let out := p = .bad 0x02
    if out then p
    else if va.toNat % al ≠ 0 then .bad 0x03
    else
      let c := s.ctx g
      match p with
      | .bad x => .bad x
      | q => if stack && c.belowSlim va then .bad 0x05 else q

/-! ### Banks -/

/-- A range as first and last byte. -/
def rng (off n : Nat) : Nat × Nat := (off, off + n - 1)

/-- The engine command that an operation is, while it waits in the memory queue to be entered (R264). -/
def Op.submitted (o : Op) : Option Cmd :=
  match o.mem with
  | some m => match m.kind with
    | .sync _ _ (.submit c) => some c
    | _ => none
  | none => none

/-- The engine commands that wait in the memory queues of a core's contexts. -/
def State.submittedOf (s : State) (core : Nat) : List Cmd :=
  (List.range 4).flatMap fun x => (s.ctx (core * 4 + x)).pend.filterMap (·.submitted)

/-- Is a range an output of an unfinished command of context g on engines 0, 1, 2 or 4 (R181)? -/
def State.unfinishedOut (s : State) (g off n : Nat) : Bool :=
  ((s.core (coreOf g)).tdt.any fun e => e.cmd.g == g && e.cmd.eng != 3 && e.cmd.outs.any (meets (rng off n))) ||
    ((s.ctx g).pend.filterMap (·.submitted)).any fun c => c.eng != 3 && c.outs.any (meets (rng off n))

/-- A command with the bytes of a store noted, where its ranges meet them (R181). -/
def Cmd.tainted (c : Cmd) (r : Nat × Nat) : Cmd :=
  if c.eng ≠ 3 && (c.outs.any (meets r) || c.ins.any (meets r)) then { c with taint := r :: c.taint } else c

/-- An operation with the bytes of a store noted at the command that it is. -/
def Op.tainted (o : Op) (r : Nat × Nat) : Op :=
  match o.mem with
  | some m => match m.kind with
    | .sync e n (.submit c) => { o with mem := some { m with kind := .sync e n (.submit (c.tainted r)) } }
    | _ => o
  | none => o

/-- The state with the bytes of a store noted at the unfinished commands whose ranges it meets (R181). -/
def State.taintRanges (s : State) (g off n : Nat) : State :=
  let k := s.core (coreOf g)
  let s1 := s.setCore (coreOf g) { k with tdt := k.tdt.map fun e =>
    if e.cmd.g = g then { e with cmd := e.cmd.tainted (rng off n) } else e }
  let c := s1.ctx g
  s1.setCtx g { c with pend := c.pend.map (·.tainted (rng off n)) }

/-- A load of n bytes from a bank by context g: undefined where it meets an output of an unfinished command (R181). -/
def State.bankLoad (s : State) (g cl off n : Nat) : List Byte :=
  if cl = clusterOf g && s.unfinishedOut g off n then leBytes n (s.free s.iss.slot 65).toNat
  else (s.cl cl).spad.read off n

/-- A write to a bank. -/
def State.bankWrite (s : State) (cl off : Nat) (bs : List Byte) : State :=
  let c := s.cl cl
  s.setCl cl { c with spad := c.spad.write off bs }

/-- The active phasers whose records a context's store meets: their later phases are undefined (R301). -/
def State.breakPhasers (s : State) (cl off n : Nat) : State :=
  let c := s.cl cl
  match (c.active.map (·.1)).filter fun o => meets (rng off n) (rng o 64) with
  | [] => s
  | hit => s.setCl cl { c with broken := hit ++ c.broken }

/-- A store of context g to a bank. -/
def State.bankStore (s : State) (g cl off : Nat) (bs : List Byte) : State :=
  let s1 := (s.bankWrite cl off bs).breakPhasers cl off bs.length
  if cl = clusterOf g then s1.taintRanges g off bs.length else s1

/-- Is an access to a bank held by the range scoreboard (R247)? -/
def State.held (s : State) (cl off n : Nat) (store : Bool) : Bool :=
  (s.cl cl).board.any fun b => (b.dest || store) && meets (rng off n) (b.lo, b.hi)

/-! ### The order of the memory queue (R202, R222 to R224, R254, R313) -/

/-- Is an ordering suffix an acquire, or a release (R224)? -/
def isAcq : Ord → Bool
  | .acq | .ar => true
  | .unp | .com | .nor | .qnt | .spc | .rel => false
def isRel : Ord → Bool
  | .rel | .ar => true
  | .unp | .com | .nor | .qnt | .spc | .acq => false

/-- An access within one scalar width or 32 bytes: how many bytes an operation touches. -/
def MemOp.size (m : MemOp) : Nat :=
  match m.kind with
  | .load (some t) => tyWidth t / 8
  | .load none => 32
  | .store n => n
  | .atom _ w64 => if w64 then 8 else 4
  | .ldv | .vget | .casv | .stf | .rel => 8
  | .probe => 1
  | .callt => 16
  | .fence _ | .sync _ _ _ => 0

/-- Is a command of the X slot one that later operations wait for: an acquire (R265, R266, R304), or a CBSYNC (R313)? -/
def SyncCmd.acq : SyncCmd → Bool
  | .phwait _ _ | .tkget _ | .cbsync _ | .tlwait => true
  | .submit _ | .bmsg _ | .phreg _ _ | .phdrop _ _ | .phsig _ _ | .tkdone | .done => false

/-- The ordering of an operation (R224): REL is a release (R237), a FENCE is both (R258), and every numbered command is a
release (R264), which a TLWAIT is not (R265). -/
def MemOp.acq (m : MemOp) : Bool :=
  match m.kind with
  | .fence _ => true
  | .sync _ _ c => c.acq
  | .callt | .probe => false
  | .load _ | .store _ | .ldv | .vget | .casv | .atom _ _ | .stf | .rel => isAcq m.ord
def MemOp.rls (m : MemOp) : Bool :=
  match m.kind with
  | .sync _ _ .tlwait | .callt | .probe => false
  | .fence _ | .rel | .sync _ _ _ => true
  | .load _ | .store _ | .ldv | .vget | .casv | .atom _ _ | .stf => isRel m.ord

/-- Is a device operation performed at its home slice, and not in the L1 (R204, R221, R252)? -/
def MemOp.atHome (m : MemOp) : Bool :=
  match m.kind, m.place with
  | .fence _, _ | .callt, _ | .probe, _ | .sync _ _ _, _ => false
  | .load _, .home _ _ pol => decide (pol = 2) || m.acq
  | .store _, .home _ _ pol => decide (pol = 2) || m.rls
  | _, .home _ _ _ => true
  | _, .remote _ _ _ => true
  | _, .bank _ _ => false
  | _, .bad _ => false

/-- Member, first and last byte of the device bytes that an operation touches. -/
def State.span (s : State) (m : MemOp) : Option (Nat × Nat × Nat) :=
  match m.kind, m.place with
  | .fence _, _ | .callt, _ | .probe, _ | .sync _ _ _, _ => none
  | _, .home ia _ _ => some (s.trust.myIdx, ia, ia + m.size - 1)
  | _, .remote k ia _ => some (k, ia, ia + m.size - 1)
  | _, .bank _ _ => none
  | _, .bad _ => none

/-- Does an operation keep its place behind an earlier one of its context: on overlapping bytes, or at home on one line
(R223), or in scratchpad, whose accesses take effect in issue order (R202)? -/
def State.follows (s : State) (e m : MemOp) : Bool :=
  match e.place, m.place with
  | .bank _ _, .bank _ _ => true
  | _, _ => match s.span e, s.span m with
    | some x, some y => x.1 == y.1 && (meets x.2 y.2 || (e.atHome && m.atHome && x.2.1 / 1024 == y.2.1 / 1024))
    | _, _ => false

/-- Do an operation and an LDF of its context keep their order (R223)? -/
def State.withLdf (s : State) (l : Ldf) (m : MemOp) : Bool :=
  match s.span m with
  | some x => x.1 == l.member && (meets x.2 (l.ia, l.ia + 7) || (m.atHome && x.2.1 / 1024 == l.ia / 1024))
  | none => false

/-- Has an LDF been sent before an operation issued? -/
def Ldf.precedes (l : Ldf) (m : MemOp) : Bool := decide (l.id ≤ m.ldf)

/-- Does an LDF wait for an operation issued before it: an acquire, a FENCE or a CBSYNC (R224, R238, R313), or one on its
bytes or its line (R223)? -/
def State.ldfBehind (s : State) (l : Ldf) (m : MemOp) : Bool := !l.precedes m && (m.acq || s.withLdf l m)

/-- Is an operation that waits a CBSYNC? -/
def MemOp.isCbsync (m : MemOp) : Bool :=
  match m.kind with
  | .sync _ _ (.cbsync _) => true
  | _ => false

/-! ### Futures on their way (R210, R235) -/

/-- The entry of context g's LDF with this identity changed. -/
def State.setLdf (s : State) (g id : Nat) (f : Ldf → Ldf) : State :=
  let c := s.ctx g
  s.setCtx g { c with ldfs := c.ldfs.map fun l => if l.id = id then f l else l }

/-- The access of an LDF at its slice. -/
def State.ldfAcc (s : State) (g : Nat) (l : Ldf) : Acc := ⟨l.world, 3, (s.tenantOf (clusterOf g)).getD 16, g, (.pod, g)⟩

/-- Does an LDF on its way wait: in the memory queue for an earlier operation, at its slice, which cannot take its line (R206),
or behind dirty bytes that must go there first (R222, R323)? -/
def State.ldfWaits (s : State) (g : Nat) (l : Ldf) : Bool :=
  l.at_ == .sent && ((heldIn (s.ctx g).pend).any (s.ldfBehind l) || (l.member == s.trust.myIdx &&
    (s.waitsAt l.ia (s.ldfAcc g l) false true none || s.l1Waits (coreOf g) (l1Key l.ia l.world) (BitVec.allOnes 256))))

/-- An LDF reaches its home slice (R210), unless it waits there. A full word updates a valid L1 copy (R204); the word of a
deferred or NACKed LDF does not leave the slice. -/
def State.performLdf (s : State) (g id : Nat) : State :=
  match (s.ctx g).ldfs.find? fun l => l.id == id with
  | none => s
  | some l =>
    if l.at_ ≠ .sent || s.ldfWaits g l then s
    else if l.member ≠ s.trust.myIdx then
      s.answer g id (Config.remoteRead s.fresh l.member l.ia |>.truncate 64) ((s.free 1026 id).toNat % 3)
    else
      match (s.sendFirst (coreOf g) l.ia l.world g).homeRead l.ia 8 (s.ldfAcc g l) true with
      | (s1, .pageFault) => (s1.setAsync g 0x20).answer g id 0 0
      | (s1, .poisoned) => (s1.setAsync g 0x23).answer g id 0 0
      | (s1, .ok bs) =>
        let v := leWord bs
        if v ≠ emptyW then (s1.l1Update (coreOf g) l.ia bs l.world).answer g id v 0
        else
          let sl := homeSlice l.ia
          let x := s1.slice sl
          if x.defer.length ≥ 64 then s1.answer g id nackedW 1
          else (s1.setSlice sl { x with defer := x.defer ++ [⟨g, id, l.ia, l.world⟩] }).setLdf g id
            fun l => { l with at_ := .deferred }

/-- The LDFs of a context that are on their way to a slice and satisfy a test are performed, oldest first. -/
def State.performLdfs (s : State) (g : Nat) (p : Ldf → Bool) : State :=
  ((s.ctx g).ldfs.filter fun l => l.at_ == .sent && p l).foldl (fun t l => t.performLdf g l.id) s

/-! ### Releases and acquires -/

/-- Does a scope reach beyond the core (R254)? -/
def wide : Scope → Bool
  | .ctx | .core => false
  | .clu | .dev | .pod => true

/-- Scope of a code. -/
def scopeOfNat : Nat → Scope
  | 0 => .ctx | 1 => .core | 2 => .clu | 3 => .dev | _ => .pod

/-- The code of a scope (R305, R369). -/
def scopeNat : Scope → Nat
  | .ctx => 0 | .core => 1 | .clu => 2 | .dev => 3 | .pod => 4

/-- The scope of a binding (R305). -/
def Bind.scope (b : Bind) : Scope := scopeOfNat (bits b.ctl 34 32)

/-- The bindings of a context to an object. -/
def Ctx.bound (c : Ctx) (o : ObjId) : List Bind :=
  c.binds.filterMap fun b => match b with
    | some x => if x.obj = o then some x else none
    | none => none

/-- The IA ranges of a binding written back from the L1 at its scope. -/
def State.sendSpans (s : State) (g : Nat) (sc : Scope) (spans : List (Nat × Nat)) : State :=
  spans.foldl (fun t r => t.l1SendRange (coreOf g) r.1 r.2 (sc, g)) s

/-- The IA ranges of a binding invalidated in the L1; what goes home first is no release (R373). -/
def State.dropSpans (s : State) (g : Nat) (spans : List (Nat × Nat)) : State :=
  spans.foldl (fun t r => t.l1InvalRange (coreOf g) r.1 r.2 (.pod, g)) s

/-- Does a release of an object wait, because a write-back of its bound ranges would (R323)? -/
def State.releaseWaits (s : State) (g : Nat) (o : ObjId) : Bool :=
  ((s.ctx g).bound o).any fun b => wide b.scope && b.spans.any fun r => s.sendWaits (coreOf g) r.1 r.2

/-- A release of an object (R224, R254, R257): earlier operations are performed, then the bound ranges go home. -/
def State.release (s : State) (g : Nat) (o : ObjId) : State :=
  let s1 := s.performLdfs g fun _ => true
  let s2 := ((s1.ctx g).bound o).foldl
    (fun t b => if wide b.scope then t.sendSpans g b.scope b.spans else t) s1
  s2.releaseMarks g

/-- An acquire of an object (R224, R257): the bound ranges are invalidated. -/
def State.acquire (s : State) (g : Nat) (o : ObjId) : State :=
  let s1 := s.performLdfs g fun _ => true
  ((s1.ctx g).bound o).foldl (fun t b => if wide b.scope then t.dropSpans g b.spans else t) s1

/-- The lock word that an ordered access names (R255). -/
def State.lockWord (s : State) : Place → Option ObjId
  | .bank cl off => some (.lockSpad cl (off / 8 * 8))
  | .home ia _ _ => some (.lockDev s.trust.myIdx (ia / 8 * 8))
  | .remote m ia _ => some (.lockDev m (ia / 8 * 8))
  | .bad _ => none

/-- What happens before an ordered access: the release side (R224, R257). -/
def State.before (s : State) (g : Nat) (p : Place) (rel : Bool) : State :=
  match s.lockWord p with
  | none => s
  | some o => if rel then s.release g o else s

/-- What happens after an ordered access: the acquire side (R224, R257). -/
def State.after (s : State) (g : Nat) (p : Place) (acq : Bool) : State :=
  match s.lockWord p with
  | none => s
  | some o => if acq then s.acquire g o else s

/-! ### Loads and stores -/

/-- A scope report that a fill found is due at the context's next boundary (R373); without stops, or in handler mode, it
is a record. -/
def State.noteReport (s : State) (g ia : Nat) : Option (Scope × Nat) → State
  | none => s
  | some t =>
    let c := s.ctx g
    let r := (scopeNat t.1, t.2, ia / 1024 * 1024)
    if bit (s.cl (clusterOf g)).dbg.owlCtl 6 && !c.hm then s.setCtx g { c with report := c.report ++ [r] }
    else s.scopeRecord g r

/-- The fatal stop that a page fault or poisoned data brings, pending at the next boundary (R322, R219). -/
def State.failed {α : Type} (s : State) (g : Nat) : Res α → State
  | .ok _ => s
  | .pageFault => s.setAsync g 0x20
  | .poisoned => s.setAsync g 0x23

/-- The bytes of a result, undefined where the access failed. -/
def State.bytesOr (s : State) (n : Nat) : Res (List Byte) → List Byte
  | .ok bs => bs
  | .pageFault | .poisoned => leBytes n (s.free s.iss.slot 66).toNat

/-- A home operation of a context first performs its LDFs on the line and sends the dirty bytes of the L1 line
(R222, R223). -/
def State.ahead (s : State) (g ia : Nat) (world : Byte) : State :=
  (s.performLdfs g fun l => l.ia / 1024 == ia / 1024).sendFirst (coreOf g) ia world g

/-- A plain access through the L1 first performs the context's LDFs on the bytes it overlaps (R223). -/
def State.overlapped (s : State) (g ia n : Nat) : State :=
  s.performLdfs g fun l => l.member == s.trust.myIdx && meets (l.ia, l.ia + 7) (ia, ia + n - 1)

/-- A load at home, with the L1 copy updated (R204). -/
def State.homeLoad (s : State) (g ia n : Nat) (a : Acc) (must : Bool) (write : Bool := false) :
    State × Res (List Byte) :=
  match (s.ahead g ia a.world).homeRead ia n a must write with
  | (s1, .ok bs) => (s1.l1Update (coreOf g) ia bs a.world, .ok bs)
  | o => o

/-- A plain or ordered load of n bytes at a place: the state and the bytes (R204, R225, R252). -/
def State.loadAt (s : State) (g : Nat) (p : Place) (n : Nat) (ordered : Bool) : State × List Byte :=
  match p with
  | .bank cl off => (s, s.bankLoad g cl off n)
  | .home ia w pol =>
    let a := s.acc g w (.pod, g)
    if decide (pol ≠ 2) && !ordered then
      let r := (s.overlapped g ia n).l1Load (coreOf g) ia n pol a
      let q := if r.2.2 then r.1.checkFill g ia else (r.1, none)
      ((q.1.failed g r.2.1).noteReport g ia q.2, s.bytesOr n r.2.1)
    else
      let r := s.homeLoad g ia n a false
      (r.1.failed g r.2, s.bytesOr n r.2)
  | .remote m ia _ => (s, leBytes n (Config.remoteRead s.fresh m ia).toNat)
  | .bad _ => (s, [])

/-- A store performed at once at home as one write transaction, with the L1 copy updated where it is performed. -/
def State.homeStore (s : State) (g ia : Nat) (bs : List Byte) (a : Acc) (must : Bool) : State :=
  match (s.ahead g ia a.world).writeTxn a (cellsAt ia bs) must with
  | (s1, .ok _) => s1.l1Update (coreOf g) ia bs a.world
  | (s1, .pageFault) => s1.setAsync g 0x20
  | (s1, .poisoned) => s1.setAsync g 0x23

/-- A plain or ordered store at a place (R204, R226, R252, R292); `task` says that its context holds a task. -/
def State.storeAt (s : State) (g : Nat) (p : Place) (bs : List Byte) (ordered task : Bool) : State :=
  match p with
  | .bank cl off => s.bankStore g cl off bs
  | .home ia w pol =>
    let a := s.acc g w (.pod, g)
    if decide (pol ≠ 2) && !ordered then
      match (s.overlapped g ia bs.length).l1Store (coreOf g) ia pol bs a task with
      | (s1, true) => s1
      | (s1, false) => s1.taskFail g true
    else s.homeStore g ia bs a false
  | .remote m ia w => s.sendRemote m ia w bs
  | .bad _ => s

/-! ### The near combiner (R234) -/

/-- The identity of a combiner operation (R234). -/
def atomId (code : Nat) (w64 : Bool) : Word :=
  match code with
  | 1 => if w64 then 0x7FFFFFFFFFFFFFFF#64 else 0x7FFFFFFF#64
  | 2 => if w64 then 0x8000000000000000#64 else 0x80000000#64
  | 3 => if w64 then 0xFFFFFFFFFFFFFFFF#64 else 0xFFFFFFFF#64
  | _ => 0

/-- The syllable of a .unp atomic of a combiner code (R52). -/
def atomSyl (code : Nat) (w64 : Bool) : Syl := BitVec.ofNat 32 (((if w64 then 0x68 else 0x70) + code) * 2 ^ 24)

/-- One near-combiner entry flushed: one .unp atomic at home, one write transaction. It waits where its slice cannot take
the line yet (R206). -/
def State.flushComb (s : State) (cl k : Nat) : State :=
  let c := s.cl cl
  match c.comb[k]? with
  | none => s
  | some e =>
    let s1 := s.setCl cl { c with comb := c.comb.eraseIdx k }
    if e.member ≠ s.trust.myIdx then
      s1.sendOp e.member e.ia e.world (atomSyl e.op e.w64) e.pend 0
    else s1.retryLate (.atom e.ia e.world 3 ((s.tenantOf cl).getD 16) e.g e.op e.w64 e.pend)

/-- Does the near combiner of a cluster hold, or wait for, an operation that a flush could not perform now? -/
def State.combWaits (s : State) (cl : Nat) : Bool :=
  ((s.cl cl).comb.any fun e => e.member == s.trust.myIdx &&
    s.waitsAt e.ia ⟨e.world, 3, (s.tenantOf cl).getD 16, e.g, (.pod, e.g)⟩ true true none) ||
  s.late.any fun t => match t with
    | .atom _ _ _ _ g _ _ _ => decide (g / 16 = cl)
    | .write _ _ _ _ _ _ _ _ _ _ => false

/-- Every open entry of a cluster's combiner flushed, oldest first. -/
def State.flushCombs (s : State) (cl : Nat) : State :=
  ((s.cl cl).comb).foldl (fun t _ => t.flushComb cl 0) s

/-! ### Fences (R238, R258) -/

/-- Does the scope of a FENCE flush the cluster's near combiner (R238)? -/
def combScope : Scope → Bool
  | .dev | .pod => true
  | .ctx | .core | .clu => false

/-- A FENCE of a scope by context g. -/
def State.fenceAt (s : State) (g : Nat) (sc : Scope) : State :=
  let s1 := s.performLdfs g fun _ => true
  let s2 := if combScope sc then s1.flushCombs (clusterOf g) else s1
  if wide sc then (s2.l1FlushAll (coreOf g) (sc, g)).releaseMarks g else s2.releaseMarks g

/-- Does a FENCE of a scope wait for a write-back or a flush (R206, R323)? -/
def State.fenceWaits (s : State) (g : Nat) (sc : Scope) : Bool :=
  (wide sc && s.flushWaits (coreOf g)) || (combScope sc && s.combWaits (clusterOf g))

end Sys2Proof.Machine
end

