-- ==== Sys2Proof/Machine/Phaser.lean ====
section
/-! DEFINITION. Phasers (R295, R301 to R304): their records, and what a registration, a signal and a drop do to them. -/

namespace Sys2Proof.Machine
open Sys2Proof

/-- The scratchpad place of a phaser record: tag 0x1 or 0x2, 64-byte aligned, below S (R302). -/
def State.phPlace (s : State) (g : Nat) (va : Word) : Option (Nat × Nat) :=
  if (tagOf va = 1 || tagOf va = 2) && va.toNat % 64 = 0 then
    match s.locate g va 64 permNone with
    | .bank cl off => some (cl, off)
    | .home _ _ _ | .remote _ _ _ | .bad _ => none
  else none

/-- Is the phaser at a place active (R302)? -/
def State.phActive (s : State) (cl off : Nat) : Bool := ((s.cl cl).active.get? off).isSome

/-- A phaser record in scratchpad (R301). -/
def phRead (m : Mem) (off : Nat) : PhRec :=
  ⟨leWord (m.read off 8), BitVec.ofNat 32 (leNat (m.read (off + 8) 4)), BitVec.ofNat 32 (leNat (m.read (off + 12) 4)),
    BitVec.ofNat 32 (leNat (m.read (off + 16) 4))⟩

/-- The record at a place: that of an active phaser is the engine's, read at the PHREG that activated it (R269, R301). It
is undefined once a context has stored into it while its phaser was active (R301). -/
def State.phGet (s : State) (cl off : Nat) : PhRec :=
  if (s.cl cl).broken.contains off then
    ⟨(s.free 1040 off).truncate 64, (s.free 1041 off).truncate 32, (s.free 1042 off).truncate 32,
      (s.free 1043 off).truncate 32⟩
  else ((s.cl cl).active.get? off).getD (phRead (s.cl cl).spad off)

/-- Bundles blocked on a phaser for a phase that has not completed (NWAIT). -/
def State.phWaiters (s : State) (cl off : Nat) (phase : Word) : Nat :=
  (s.ctxs.filter fun e => match e.2.waitPh with
    | some w => w.1 == cl && w.2.1 == off && decide (phase.toNat ≤ w.2.2.1.toNat)
    | none => false).length

/-- The engine's record of an active phaser replaced. -/
def State.phKeep (s : State) (cl off : Nat) (r : PhRec) : State :=
  let c := s.cl cl
  if s.phActive cl off then s.setCl cl { c with active := c.active.put off r } else s

/-- The record written in full (R301), its reserved bytes as 0 (R8). -/
def State.phPut (s : State) (cl off : Nat) (r : PhRec) : State :=
  (s.phKeep cl off r).bankWrite cl off (leBytes 8 r.phase.toNat ++ leBytes 4 r.nreg.toNat ++ leBytes 4 r.narr.toNat ++
    leBytes 4 r.nnext.toNat ++ leBytes 4 (s.phWaiters cl off r.phase) ++ (if s.phActive cl off then 1#8 else 0#8) ::
    List.replicate 39 0#8)

/-- The record written again after a wait has begun or ended. -/
def State.phTouch (s : State) (cl off : Nat) : State := s.phPut cl off (s.phGet cl off)

/-- complete(P) (R302): at most two phases complete at once, since NNEXT is 0 after the first. -/
def PhRec.complete (r : PhRec) : Nat → PhRec
  | 0 => r
  | k + 1 =>
    if r.nreg ≠ 0 && r.narr = r.nreg then
      PhRec.complete { r with phase := r.phase + 1, narr := r.nnext, nnext := 0 } k
    else r

/-- The registration of a context at a phaser. -/
def Ctx.reg? (c : Ctx) (p : Nat × Nat) : Option PhReg := c.regs.find? fun r => r.cl == p.1 && r.off == p.2

/-- The context without that registration. -/
def Ctx.unreg (c : Ctx) (p : Nat × Nat) : Ctx := { c with regs := c.regs.filter fun r => !(r.cl == p.1 && r.off == p.2) }

/-- Does the context still owe a signal that P cannot take yet: two phases ahead (R303)? -/
def State.phAhead (s : State) (r : PhReg) : Bool :=
  let p := s.phGet r.cl r.off
  !(decide (r.owed = p.phase) || decide (r.owed = p.phase + 1))

/-- PHSIG on a registration that the phaser can take (R303). -/
def State.phSignal (s : State) (g : Nat) (r : PhReg) : State :=
  let s1 := s.release g (.phaser r.cl r.off)
  let p := s1.phGet r.cl r.off
  let p1 := if r.owed = p.phase then { p with narr := p.narr + 1 } else { p with nnext := p.nnext + 1 }
  let c := s1.ctx g
  (s1.setCtx g { c with regs := c.regs.map fun x =>
    if x.cl = r.cl && x.off = r.off then { x with owed := x.owed + 1 } else x }).phPut r.cl r.off (p1.complete 3)

/-- PHDROP of a registration (R304). -/
def State.phDrop (s : State) (g : Nat) (r : PhReg) : State :=
  let p := s.phGet r.cl r.off
  let p1 := if r.owed.toNat ≥ p.phase.toNat + 1 then { p with narr := p.narr - 1 } else p
  let p2 := if r.owed = p.phase + 2 then { p1 with nnext := p1.nnext - 1 } else p1
  let p3 := ({ p2 with nreg := p2.nreg - 1 }).complete 3
  let s1 := s.setCtx g ((s.ctx g).unreg (r.cl, r.off))
  if p3.nreg = 0 then
    let c := s1.cl r.cl
    (s1.setCl r.cl { c with active := c.active.del r.off, broken := c.broken.filter (· != r.off) }).phPut r.cl r.off
      { p3 with phase := p3.phase + 1 }
  else s1.phPut r.cl r.off p3

/-- Every registration of a context dropped (R286). -/
def State.phDropAll (s : State) (g : Nat) : State := ((s.ctx g).regs).foldl (fun t r => t.phDrop g r) s

/-- A context registered (R302): an inactive phaser becomes active, its record read now. -/
def State.phRegister (s : State) (g : Nat) (p : Nat × Nat) : State :=
  let c := s.cl p.1
  let r := s.phGet p.1 p.2
  let s1 := if s.phActive p.1 p.2 then s else s.setCl p.1 { c with active := c.active.put p.2 r }
  let k := s1.ctx g
  (s1.setCtx g { k with regs := k.regs ++ [⟨p.1, p.2, r.phase⟩] }).phPut p.1 p.2 { r with nreg := r.nreg + 1 }

/-! ### Waits -/

/-- Does the phaser of a PHWAIT still have to pass the phase (R304)? -/
def State.phPending (s : State) (w : (Nat × Nat) × Word) : Bool :=
  decide ((s.phGet w.1.1 w.1.2).phase.toNat ≤ w.2.toNat)

/-- A context's bundle waits on a phaser (R301), from now on unless it does already. -/
def State.noteWait (s : State) (g : Nat) (w : (Nat × Nat) × Word) : State :=
  match (s.ctx g).waitPh with
  | some x =>
    if x.1 = w.1.1 && x.2.1 = w.1.2 && x.2.2.1 = w.2 then s
    else (s.setCtx g { s.ctx g with waitPh := some (w.1.1, w.1.2, w.2, s.fresh) }).phTouch w.1.1 w.1.2
  | none => (s.setCtx g { s.ctx g with waitPh := some (w.1.1, w.1.2, w.2, s.fresh) }).phTouch w.1.1 w.1.2

/-- The wait that a PHSW left (R303): done with once its phase has completed, when the phaser is acquired. A drain stub
does not wait (R354, R355). -/
def State.phswWait (s : State) (g : Nat) : State × Bool :=
  match (s.ctx g).phsw with
  | none => (s, false)
  | some w =>
    if (s.ctx g).drain then (s, false)
    else if s.phPending ((w.cl, w.off), w.phase) then
      (s.noteWait g ((w.cl, w.off), w.phase), true)
    else
      let s1 := s.setCtx g { s.ctx g with phsw := none, waitPh := none }
      ((s1.acquire g (.phaser w.cl w.off)).phTouch w.cl w.off, false)

end Sys2Proof.Machine
end

