-- ==== Sys2Proof/Machine/Ops.lean ====
section
/-! DEFINITION. The shared operations of a context: issuing an operation and landing its result (R19 to R23), numbering
and completing engine commands (R178, R179), noting a syllable fault, taking a stop (R343 to R348), which is the one
operation by which every exception is taken, and returning from one (R349, R351, R360). -/

namespace Sys2Proof.Machine
open Sys2Proof

abbrev Outcome := Host.Outcome State Fault Refusal

/-! ### Engine commands -/

/-- Engine register n of engine e. -/
def Ctx.er (c : Ctx) (e n : Nat) : Word := vget (vget c.eng e (Vector.replicate 64 0)) n 0

/-- The context with an engine register set. -/
def Ctx.setEr (c : Ctx) (e n : Nat) (v : Word) : Ctx :=
  { c with eng := vput c.eng e (vput (vget c.eng e (Vector.replicate 64 0)) n v) }

/-- The number given last (ISSUED, R178). -/
def Ctx.issued (c : Ctx) (e : Nat) : Word := c.er e 63

/-- A command of engine e takes the next number (R178). -/
def State.number (s : State) (g e : Nat) : State :=
  let c := s.ctx g
  (s.setCtx g (c.setEr e 63 (c.issued e + 1))).countEvent ⟨4, g, s.iss.addr, s.iss.step, s.iss.stop, 6⟩

/-- The counter raised over the completed prefix; at most as many rises as numbers are waiting. -/
def raiseTl (done : List (Nat × Word)) (e : Nat) : Nat → Word → Word
  | 0, t => t
  | k + 1, t => if done.contains (e, t + 1) then raiseTl done e k (t + 1) else t

/-- Command n of engine e completes: the timeline counter rises over a complete prefix (R178). -/
def State.complete (s : State) (g e : Nat) (n : Word) : State :=
  let c := s.ctx g
  let done := (e, n) :: c.done
  let t := raiseTl done e done.length (vget c.tl e 0)
  s.setCtx g { c with
    tl := vput c.tl e t, done := done.filter fun d => d.1 != e || decide (t.toNat < d.2.toNat) }

/-- A numbered command is refused (R179): NV, LASTREF, and completion at once. -/
def State.refuseCmd (s : State) (g e : Nat) (n : Word) : State :=
  let s1 := s.orFlags g flagNV
  (s1.setCtx g ((s1.ctx g).setEr e 62 n)).complete g e n

/-! ### Issue -/

/-- The registers that a reissue does not write (R348). -/
def State.superseded (s : State) : List RegN :=
  match s.iss.rec_ with
  | some w => w.sup
  | none => []

/-- Registers that are defined from now on, whatever bounds the operations that landed in them still have (R361). -/
def Ctx.define (c : Ctx) (rs : List RegN) : Ctx :=
  { c with pend := c.pend.map fun o => { o with dests := o.dests.filter fun r => !rs.contains r } }

/-- The LDFs older than an operation lose their destinations where it has written them (R21). -/
def Ctx.passLdfs (c : Ctx) (step slot : Nat) (rs : List RegN) : Ctx :=
  { c with ldfs := c.ldfs.map fun l =>
    if rs.contains (.s l.dest) && (decide (l.step < step) || (decide (l.step = step) && decide (3 < slot)))
    then { l with gone := true } else l }

/-- An operation issued by the current bundle. In a reissue it is performed whole: its results are written, except to
superseded registers, an older LDF's answer no longer writes there (R21), and its flags are ORed (R112, R348). -/
def State.emit (s : State) (o : Op) : State :=
  match s.iss.mode with
  | .reissue =>
    let ws := o.wr.filter fun w => !s.superseded.contains w.reg
    let c := ws.foldl (fun c w => c.putReg w.reg w.val) (s.me.define (ws.map (·.reg)))
    s.setMe ((c.passLdfs s.iss.step s.iss.slot (ws.map (·.reg))).orFlags o.flags)
  | .none | .bundle | .release => s.setMe { s.me with pend := s.me.pend ++ [o] }

/-- An operation that has issued and waits to be performed (R206, R224); one with a result is late (R23). In a reissue it is
not begun: RESUME waits until it can be (R349). -/
def State.emitHeld (s : State) (o : Op) (m : MemOp) : State :=
  match s.iss.mode with
  | .reissue => { s with iss := { s.iss with wait := true } }
  | .none | .bundle | .release => s.setMe { s.me with pend := s.me.pend ++ [{ o with mem := some m, late := o.late || !o.dests.isEmpty }] }

/-- The operation of the syllable being issued, with one bound and these results. -/
def State.op (s : State) (bound : Nat) (wr : List Wr) (flags : Byte) (form : RecForm) : Op where
  syl := s.iss.syl
  slot := s.iss.slot
  bimm := s.iss.bimm
  step := s.iss.step
  bound := bound
  dests := wr.map (·.reg)
  wr := wr
  flags := flags
  landed := false
  late := false
  form := form
  ldv := none
  check := none
  sup := []
  hold := 0
  mem := none
  first := false
  away := none

/-- One result in a scalar register. -/
def wrS (d : Reg) (v : Word) : Wr := ⟨.s d.toNat, v.zeroExtend 256⟩
def wrP (d : Reg) (v : Byte) : Wr := ⟨.p d.toNat, v.zeroExtend 256⟩
def wrV (d : Reg) (v : Vec) : Wr := ⟨.v d.toNat, v⟩

/-- A syllable fault noted at the bundle that issues (R340). -/
def State.fault (s : State) (f : SylFault) : State := { s with iss := { s.iss with faults := s.iss.faults ++ [f] } }

/-- The fault of the syllable being issued, with its captured words (R242). -/
def State.sylFault (s : State) (cause : Nat) (opa opb : Word) (bound : Nat) (dests : List RegN) : SylFault where
  slot := s.iss.slot
  cause := cause
  syl := s.iss.syl
  opa := opa
  opb := opb
  hold := 0
  keep := false
  bound := bound
  ldv := false
  dests := dests
  xfer := none

/-- A scalar result of an A-slot syllable: a result for s2 below SLIM is the stack-limit stop instead, recorded with
these words (R203, R364). -/
def State.emitA (s : State) (d : Reg) (v : Word) (bound : Nat) (form : RecForm) (opa opb : Word) : State :=
  let c := s.me
  if d = 2#6 && tagOf c.slim = 3 && !c.hm && decide (v.toNat < c.slim.toNat) then
    s.fault (s.sylFault 0x05 opa opb bound [])
  else s.emit (s.op bound [wrS d v] 0 form)

/-- An effect that takes place at the end of the bundle. -/
def State.atEnd (s : State) (e : EndEff) : State := { s with iss := { s.iss with ends := s.iss.ends ++ [e] } }

/-! ### Landing -/

/-- A pair joins a validation set (R227). -/
def VSet.join (x : VSet) (p : VPair) : VSet :=
  match x.pairs.find? fun q => q.member == p.member && q.line == p.line with
  | some q => if q.ver = p.ver then x else { x with failed := true }
  | none => if x.pairs.length ≥ 16 then { x with failed := true } else { x with pairs := x.pairs ++ [p] }

/-- Does a validation set check out now (R228)? A line that is not resident has left its slice, so its pair fails. -/
def State.validates (s : State) (x : VSet) : Bool :=
  !x.failed && x.pairs.all fun p =>
    if p.member = s.trust.myIdx then
      match (s.slice (homeSlice (p.line * 1024))).lines.get? p.line with
      | none => false
      | some y => decide (y.ver = p.ver)
    else (s.free 1027 p.line).getLsbD 0

/-- The pair of a landing LDV joins the set of the first VALSET issued after it, else the context's set (R228). -/
def joinLater (p : VPair) : List Op → List Op × Bool
  | [] => ([], false)
  | o :: r =>
    match o.check with
    | some x => if o.landed then
        let q := joinLater p r
        (o :: q.1, q.2)
      else ({ o with check := some (x.join p) } :: r, true)
    | none =>
      let q := joinLater p r
      (o :: q.1, q.2)

/-- Older operations lose the destinations that a younger result has written (R21). -/
def supersede (ds : List RegN) (o : Op) : Op :=
  if o.landed then o
  else
    let hit := o.dests.filter ds.contains
    if hit.isEmpty then o
    else { o with wr := o.wr.filter fun w => !hit.contains w.reg, sup := o.sup ++ hit }

/-- Is `o`, at index i, the youngest writer of a BR's predicate among those that count for it (R145)? -/
def youngestWriter (pend : List Op) (x : Xfer) (i : Nat) (o : Op) : Bool :=
  x.kind == .br && x.val.isNone && decide (o.step ≤ x.step) && o.dests.contains (.p x.p) &&
    !((pend.drop (i + 1)).any fun y => decide (y.step ≤ x.step) && y.dests.contains (.p x.p))

/-- The registers that a transfer's own write gives: the return address of a call (R148). -/
def XferKind.dests : XferKind → List RegN
  | .call | .callt => [.s 1]
  | .br | .ret | .bswap => []

/-- A transfer whose return address a younger operation has written over (R348). -/
def Xfer.passed (x : Xfer) (step slot : Nat) (rs : List RegN) : Xfer :=
  if decide (x.step < step) || (decide (x.step = step) && decide (0 < slot)) then
    { x with lost := x.lost ++ x.kind.dests.filter fun r => rs.contains r && !x.lost.contains r }
  else x

/-- A record of an operation that an operation issued before the stop has outlived: that one's results have landed, and the
reissue does not write over them (R21, R348). -/
def Written.passed (w : Written) (step slot : Nat) (rs : List RegN) : Written :=
  if decide (w.step < step) || (decide (w.step = step) && decide (w.slot < slot)) then
    { w with sup := w.sup ++ rs.filter fun r => !w.sup.contains r }
  else w

/-- The same for a record that is still to be reissued. -/
def Redo.passed (r : Redo) (step slot : Nat) (rs : List RegN) : Redo :=
  if step < r.step then
    { r with todo := r.todo.map fun t => { t with rec_ := t.rec_.map fun w => w.passed step slot rs } }
  else r

/-- The records of a stop, once an operation issued before it has landed in the handler or during the reissue (R348). -/
def Ctx.passRecs (c : Ctx) (step slot : Nat) (rs : List RegN) : Ctx :=
  let old := match c.aside with
    | some a => decide (step < a.step)
    | none => false
  { c with
    written := if old then c.written.map fun w => w.passed step slot rs else c.written
    redo := c.redo.map fun r => r.passed step slot rs }

/-- The i-th unfinished operation of a context lands (R19, R21). -/
def State.landOne (s : State) (g i : Nat) : State :=
  let c := s.ctx g
  match c.pend[i]? with
  | none => s
  | some o =>
    if o.landed || o.mem.isSome then s
    else
      let v : Byte := match o.check with
        | some x => if s.validates x then 0xFF else 0
        | none => 0
      let wr : List Wr := match o.check with
        | some _ => o.wr.map fun w => ⟨w.reg, v.zeroExtend 256⟩
        | none => o.wr
      let c1 := wr.foldl (fun c w => c.putReg w.reg w.val) c
      let done := { o with landed := true, wr := [] }
      let later := c.pend.drop (i + 1)
      let joined := match o.ldv with
        | some p => joinLater p later
        | none => (later, true)
      let vs := match o.ldv with
        | some p => if joined.2 then c.vset else c.vset.join p
        | none => c.vset
      let xf := c.xfer.map fun x =>
        if youngestWriter c.pend x i o && o.check.isSome && o.wr.any (fun w => w.reg == .p x.p) then { x with val := some v }
        else if x.kind = .callt && o.step = x.step && o.slot = 0 && o.dests.isEmpty then
          { x with landed := true, target := (x.entry.map (·.1)).getD x.target }
        else x.passed o.step o.slot (wr.map (·.reg))
      let pend := (c.pend.take i).map (supersede (wr.map (·.reg))) ++ done :: joined.1
      s.setCtx g (((({ c1 with pend := pend, vset := vs, xfer := xf } : Ctx).passLdfs o.step o.slot
        (wr.map (·.reg))).passRecs o.step o.slot (wr.map (·.reg))).orFlags o.flags)

/-- Is an operation a load with its version, or one that waits to be performed? -/
def Op.isLdv (o : Op) : Bool :=
  o.ldv.isSome || (match o.mem with
    | some m => decide (m.kind = .ldv)
    | none => false)

/-- Does the check of a VALSET wait: for an LDV issued before it that has still to be performed (R228), or for an acquire, a
FENCE or a CBSYNC that waits (R224, R238, R313)? -/
def checkWaits (older : List Op) : Bool :=
  older.any fun o => match o.mem with
    | some m => m.acq || decide (m.kind = .ldv)
    | none => false

/-- An operation lands; a VALSET waits for the LDVs issued before it (R228), which land first. -/
def State.land (s : State) (g i : Nat) : State :=
  match (s.ctx g).pend[i]? with
  | none => s
  | some o =>
    if o.check.isSome then
      if checkWaits ((s.ctx g).pend.take i) then s
      else ((List.range i).foldl (fun t j =>
        match (t.ctx g).pend[j]? with
        | some y => if y.ldv.isSome then t.landOne g j else t
        | none => t) s).landOne g i
    else s.landOne g i

/-- Every unfinished operation that satisfies a test lands, oldest first. -/
def State.landAll (s : State) (g : Nat) (p : Op → Bool) : State :=
  (List.range (s.ctx g).pend.length).foldl (fun t i =>
    match (t.ctx g).pend[i]? with
    | some o => if p o then t.land g i else t
    | none => t) s

/-- Operations whose bound has passed and that have landed leave the list. -/
def Ctx.prune (c : Ctx) : Ctx :=
  { c with pend := c.pend.filter fun o => !(o.landed && decide (o.step + o.bound ≤ c.steps)) }

/-! ### Records -/

/-- The flag bits of word 7 (R346). -/
def w7Of (sup keep ldv flt : Bool) (cause : Nat) : Syl :=
  BitVec.ofNat 32 ((if sup then 2048 else 0) + (if keep then 1024 else 0) + (if ldv then 512 else 0) +
    (if flt then 256 else 0) + cause)

/-- Word 1 of a record (R346). -/
def w1Of (slot rem step : Nat) : Syl := BitVec.ofNat 32 (slot * 2 ^ 24 + rem * 2 ^ 16 + step % 2 ^ 16)

/-- Steps remaining to a bound (R346). -/
def remOf (step bound m : Nat) : Nat := min 255 (step + bound - m)

/-- A record (R346) as the machine keeps it. -/
def mkRec (syl : Syl) (slot rem step : Nat) (opa opb : Word) (w7 : Syl) (bimm : BitVec 12) : Written where
  step := step
  slot := slot
  w0 := syl
  w1 := w1Of slot rem step
  w6 := 0
  w7 := w7
  opa := opa
  opb := opb
  bimm := bimm
  hold := 0
  addr := 0
  set := none
  sup := []
  ldf := 0
  xfer := none

/-- The record of an unfinished operation (R112, R242), m being the step of the last bundle issued. -/
def Op.toRec (o : Op) (m : Nat) : List Written :=
  match o.form with
  | .recorded a b k =>
    if o.landed then []
    else [{ mkRec o.syl o.slot (remOf o.step o.bound m) o.step a b (w7Of false k o.isLdv false 0) o.bimm with
      hold := o.hold, set := o.check, sup := o.sup }]
  | .completed | .transfer | .stays => []

/-- The record of a faulting syllable (R242, R364). -/
def SylFault.toRec (f : SylFault) (step m : Nat) (bimm : BitVec 12) : Written :=
  let rem := match f.xfer with
    | some x => x.left
    | none => if f.bound = 0 then 0 else remOf step f.bound m
  { mkRec f.syl f.slot rem step f.opa f.opb (w7Of false (f.keep || f.xfer.isSome) f.ldv true f.cause) bimm
    with hold := f.hold, xfer := f.xfer }

/-- The captured words of a transfer (R147). -/
def Xfer.words (x : Xfer) : Word × Word :=
  match x.kind with
  | .br => (x.target, BitVec.ofNat 64 (x.p + (if x.neg then 64 else 0) + (if x.arm then 128 else 0)))
  | .call | .callt | .ret | .bswap => (x.target, 0)

/-- The record of a transfer that has not reached its target (R147). -/
def Xfer.toRec (x : Xfer) : Written :=
  { mkRec x.syl 0 x.left x.step x.words.1 x.words.2 (w7Of false true false false 0) 0 with sup := x.lost, xfer := some x }

/-- The record of an unanswered LDF (R347). -/
def Ldf.toRec (l : Ldf) : List Written :=
  if l.at_ = .answered then []
  else [{ mkRec l.syl 3 0 l.step l.va 0 0 0 with sup := if l.gone then [.s l.dest] else [], ldf := l.id }]

/-- The record of a commit-buffer entry released and not captured (R347). -/
def CbEntry.toRec (e : CbEntry) : Written :=
  { mkRec e.syl 6 0 e.step e.opa e.opb (w7Of false true false false 0) e.bimm with hold := e.hold, addr := e.addr }

/-- The record of a pending PHSW wait (R303). -/
def PhWait.toRec (w : PhWait) : Written := mkRec w.syl 6 0 w.step w.ptr w.phase 0 0

/-- Does a record stand before another in queue order (R344)? -/
def Written.before (x y : Written) : Bool := decide (x.step < y.step) || (decide (x.step = y.step) && decide (x.slot < y.slot))

/-- Insertion in queue order. -/
def insRec (x : Written) : List Written → List Written
  | [] => [x]
  | y :: r => if x.before y then x :: y :: r else y :: insRec x r

/-- Queue order. -/
def sortRecs : List Written → List Written
  | [] => []
  | x :: r => insRec x (sortRecs r)

/-- The registers that the syllable of a record writes, by its syllable alone: those of a commit-buffer entry (R347). -/
def sylDests (syl : Syl) : List RegN :=
  match decodeSyl .x syl with
  | .ok (.erd _ a _) | .ok (.tlread _ a) | .ok (.tkget a) => [.s a.toNat]
  | _ => []

/-- The destinations that a record stands for, `pend` and `faults` being what the stop finds. -/
def Written.dests (w : Written) (pend : List Op) (faults : List SylFault) (step : Nat) : List RegN :=
  if w.ldf ≠ 0 then match decodeSyl .l w.w0 with
    | .ok (.ldf d _ _) => [.s d.toNat]
    | _ => []
  else match w.xfer with
    | some x => x.kind.dests
    | none =>
      if w.slot = 6 then sylDests w.w0
      else (pend.filter fun o => o.step == w.step && o.slot == w.slot).flatMap (·.dests) ++
        (faults.filter fun f => w.step == step && f.slot == w.slot).flatMap (·.dests)

/-- Destinations that younger operations write before the handler's first bundle (R348): those that have landed, and
those sent at the stop (R242). -/
def youngerWrites (pend : List Op) (w : Written) : List RegN :=
  (pend.filter fun o => (o.landed || o.first) && (decide (w.step < o.step) || (decide (w.step = o.step) && decide (w.slot < o.slot)))).flatMap
    (·.dests)

/-- A record with the destinations that have been superseded, and S set where there is one (R348). -/
def Written.supersede (w : Written) (ds younger : List RegN) : Written :=
  let sup := w.sup ++ ds.filter fun r => younger.contains r && !w.sup.contains r
  { w with sup := sup, w7 := if sup.isEmpty then w.w7 else w.w7 ||| 0x800#32 }

/-- The 32 bytes of a record (R346). -/
def Written.bytes (w : Written) : List Byte :=
  leBytes 4 w.w0.toNat ++ leBytes 4 w.w1.toNat ++ leBytes 8 w.opa.toNat ++ leBytes 8 w.opb.toNat ++
    leBytes 4 w.w6.toNat ++ leBytes 4 w.w7.toNat

/-! ### Taking a stop (R343) -/

/-- What a stop reports (R340, R342). -/
structure StopReq where
  cause  : Nat
  slot   : Nat
  reason : Nat
  tcode  : Nat
  epc    : Word
  deriving DecidableEq, Repr, Inhabited

/-- A stop that reports a cause and no slot. -/
def StopReq.plain (cause : Nat) (epc : Word) : StopReq := ⟨cause, 15, 0, 0, epc⟩

/-- ESTAT at a stop (R342): the flags stay. -/
def StopReq.estat (q : StopReq) (flags : Word) : Word :=
  (flags &&& 0xFF#64) ||| BitVec.ofNat 64 (q.cause * 2 ^ 8 + q.slot * 2 ^ 16 + q.reason * 2 ^ 20 + q.tcode * 2 ^ 32)

/-- Is the half that holds an instruction address marked running (R143)? -/
def Core.running_ (k : Core) (a : Nat) : Bool := if a < 0x10000 then k.aRun else k.bRun

/-- A destination that is undefined from now on (R361). -/
def Ctx.lose (c : Ctx) (s : State) (rs : List RegN) : Ctx :=
  rs.foldl (fun c r => c.putReg r (s.free 1028 (match r with
    | .s i => i | .v i => 64 + i | .p i => 128 + i | .q i => 192 + i | .bt i => 256 + i))) c

/-- Tentative bundles and their entries go (R146, R347). -/
def State.dropTentative (s : State) (g : Nat) : State :=
  let k := s.core (coreOf g)
  let s1 := s.setCore (coreOf g) { k with cbuf := k.cbuf.filter fun e => e.g != g || e.released, stalled := none }
  s1.setCtx g { s1.ctx g with tent := [] }

/-- Sampled requests that a stop abandons leave no breakdown (R372): those whose memory syllable has a record. -/
def State.abandonSamples (s : State) (g : Nat) (recs : List Written) : State :=
  let c := s.cl (clusterOf g)
  let gone := fun (x : Sample) => x.g == g && recs.any fun r => r.step == x.step && r.slot == x.slot
  if c.dbg.sample.isEmpty then s
  else s.setCl (clusterOf g) { c with dbg := { c.dbg with sample := c.dbg.sample.filter fun x => !gone x } }

/-- The records of everything of a context that is unfinished, in queue order (R344, R347). -/
def State.records (s : State) (g : Nat) (faults : List SylFault) (step : Nat) (bimm : BitVec 12) : List Written :=
  let c := s.ctx g
  let m := c.steps - 1
  sortRecs (c.pend.flatMap (·.toRec m) ++ faults.map (fun f => f.toRec step m bimm) ++ (c.xfer.map (·.toRec)).toList ++
    c.ldfs.flatMap (·.toRec) ++ (((s.core (coreOf g)).cbuf.filter fun e => e.g == g && e.released).map (·.toRec)) ++
    (c.phsw.map (·.toRec)).toList)

/-- The wait of the current context's PHSW ended, if its phase has completed (R303). -/
def State.phswOver (s : State) : State :=
  let r := s.phswWait s.cur
  if r.2 then s else r.1

/-- An operation older than a recorded one and still to write: it does not write where that one's reissue will (R21, R361). -/
def Op.yields (o : Op) (recs : List (Written × List RegN)) : Op :=
  if o.landed then o
  else
    let hit := o.dests.filter fun d => recs.any fun r => r.2.contains d && !r.1.sup.contains d &&
      (decide (o.step < r.1.step) || (decide (o.step = r.1.step) && decide (o.slot < r.1.slot)))
    { o with wr := o.wr.filter fun w => !hit.contains w.reg, sup := o.sup ++ hit }

/-- Does an operation that waits and was sent at a stop hold the handler's first bundle: an atomic or a CASV, whose old value
lands before it (R242), or a CBSYNC (R313)? -/
def Op.sentFirst (o : Op) : Bool :=
  match o.mem with
  | some m => o.form == .completed && (!o.dests.isEmpty || m.isCbsync)
  | none => false

/-- Steps 1 and 2 of R343: completed operations land, or are sent and land before the handler's first bundle (R242); the
records of the others, in queue order. The destinations of what is recorded are undefined from now on, but for those that
a younger operation has written (R348, R361), and what is recorded leaves the machine. The bundle being issued contributes
its faulting syllables. The wait of a PHSW whose phase has completed is over and leaves no record (R303). -/
def State.gatherRecords (s : State) (faults : List SylFault) : State × List Written :=
  let g := s.cur
  let s0 := s.phswOver.dropTentative g
  let s1 := s0.landAll g fun o => match o.form with
    | .completed => true
    | .transfer => (s0.ctx g).xfer.isNone
    | .recorded _ _ _ | .stays => false
  let c := s1.ctx g
  let pend := c.pend.map fun o => { o with first := o.sentFirst }
  let recs := (s1.records g faults s.iss.step s.iss.bimm).map fun w =>
    (w.supersede (w.dests pend faults s.iss.step) (youngerWrites pend w), w.dests pend faults s.iss.step)
  let lost := recs.flatMap fun r => if r.1.ldf ≠ 0 then [] else r.2.filter fun d => !r.1.sup.contains d
  let keep := pend.filter fun o => o.landed || o.form == .stays || (o.mem.isSome && o.form == .completed)
  let s2 := s1.setCore (coreOf g) { s1.core (coreOf g) with cbuf := (s1.core (coreOf g)).cbuf.filter fun e => e.g != g }
  ((s2.setCtx g { c.lose s lost with pend := keep.map (·.yields recs), phsw := none, xfer := none }).abandonSamples g
    (recs.map (·.1)), recs.map (·.1))

/-- One record written into the record area (R343): none where it meets a record-area fault. -/
def State.putRecord (s : State) (g : Nat) (va : Word) (w : Written) : Option State :=
  match s.locate g va 32 permW with
  | .home ia win pol => if tagOf va = 0 then some (s.storeAt g (.home ia win pol) w.bytes false (s.ctx g).holds.isSome) else none
  | .bank _ _ | .remote _ _ _ | .bad _ => none

/-- Records written from an address on. -/
def State.putRecords (s : State) (g : Nat) (va : Word) : List Written → Option State
  | [] => some s
  | w :: r => match s.putRecord g va w with
    | none => none
    | some s1 => s1.putRecords g (va + 32) r

/-- The end of a context by a fatal stop: its records are kept for the dump, and the stop is carried out next (R352). -/
def State.fatal (s : State) (q : StopReq) (recs : List Written) : State :=
  let g := s.cur
  let c := s.me
  let n := min recs.length 64
  let k := s.core (coreOf g)
  let s1 := (s.setMe { c with
    status := .fatal, cause := q.cause, rqn := BitVec.ofNat 64 n, epc := q.epc, estat := q.estat c.estat
    written := recs.take 64, xfer := none, monitor := none, yielded := false, backoff := none, async := none, waitPh := none
    loop := none, redo := none }).setCore (coreOf g)
      { k with running := none, last := g % 4, stalled := none }
  { s1 with agenda := .fatalStop g :: s1.agenda }

/-- Handler mode is entered at THV (R343 steps 3 to 5, R345). -/
def State.enterHandler (s : State) (q : StopReq) (recs : List Written) : State :=
  let c := s.me
  s.setMe { c with
    status := .ready, rqn := BitVec.ofNat 64 recs.length, epc := q.epc, estat := q.estat c.estat, hm := true, pc := c.thv
    aside := some ⟨c.vset, c.loop, c.xfer, c.steps⟩, vset := VSet.empty, loop := none, xfer := none, written := recs
    monitor := none, yielded := false, backoff := none, skipBp := decide (q.cause = 0x0A), blocked := none
    waitPh := none, redo := none }

/-- The kind 2 trace record of a stop (R370). -/
def State.owlStop (s : State) (cause : Nat) : State :=
  let c := s.me
  s.owl s.cur 2 cause (bits c.safeord 31 0) (leBytes 8 c.epc.toNat ++ leBytes 1 c.rqn.toNat ++ leBytes 7 0)

/-- A stop whose records are given, in their order (R343, R345). Every stop is taken by this operation. -/
def State.takeStop (s : State) (q : StopReq) (recs : List Written) : State :=
  let c := s.me
  if q.cause ≥ 0x20 then (s.fatal q recs).owlStop q.cause
  else if c.hm then (s.fatal (.plain 0x26 q.epc) recs).owlStop 0x26
  else match s.putRecords s.cur c.rqb (recs.take 64) with
    | none => (s.fatal (.plain 0x27 q.epc) recs).owlStop 0x27
    | some s1 =>
      if recs.length > 64 then (s1.fatal (.plain 0x25 q.epc) recs).owlStop 0x25
      else if !(s1.core (coreOf s1.cur)).running_ c.thv.toNat then (s1.fatal (.plain 0x26 q.epc) recs).owlStop 0x26
      else (s1.enterHandler q recs).owlStop q.cause

/-- A record not yet reissued goes into a new queue with the words it has now (R349). -/
def Todo.again (t : Todo) : List Written :=
  match t.rec_, t.ov with
  | some w, some o => [{ w with opa := o.1, opb := o.2 }]
  | _, _ => []

/-- The records that a RESUME in progress has still to reissue. -/
def Ctx.unreissued (c : Ctx) : List Written :=
  match c.redo with
  | some r => r.todo.flatMap (·.again)
  | none => []

/-- A stop of the current context: its unfinished operations are completed or recorded, then it is taken (R343). What a RESUME
in progress has still to reissue is recorded again, an LDF once (R347). -/
def State.stop (s : State) (q : StopReq) (faults : List SylFault) : State :=
  let r := s.gatherRecords faults
  let old := s.me.unreissued
  r.1.takeStop q (sortRecs (r.2.filter (fun w => w.ldf == 0 || !old.any fun x => x.ldf == w.ldf) ++ old))

/-! ### Returning from a stop (R349, R351, R360) -/

/-- A record as RESUME reads it. -/
structure Read where
  w0  : Syl
  w1  : Syl
  opa : Word
  opb : Word
  w6  : Syl
  w7  : Syl
  deriving DecidableEq, Repr, Inhabited

/-- The record in 32 bytes. -/
def readOf (bs : List Byte) : Read :=
  ⟨BitVec.ofNat 32 (fld bs 0 4), BitVec.ofNat 32 (fld bs 4 4), BitVec.ofNat 64 (fld bs 8 8), BitVec.ofNat 64 (fld bs 16 8),
    BitVec.ofNat 32 (fld bs 24 4), BitVec.ofNat 32 (fld bs 28 4)⟩

/-- The records held from an address on, read as loads of the context (R360): none where a read meets a fault. -/
def State.readRecords (s : State) (g : Nat) : Nat → Word → Option (State × List Read)
  | 0, _ => some (s, [])
  | n + 1, va =>
    match s.locate g va 32 permR with
    | .home ia w pol =>
      if tagOf va = 0 then
        let r := s.loadAt g (.home ia w pol) 32 false
        match r.1.readRecords g n (va + 32) with
        | none => none
        | some q => some (q.1, readOf r.2 :: q.2)
      else none
    | .bank _ _ | .remote _ _ _ | .bad _ => none

/-- Slot and ordinal of word 1: what a record is matched by (R351). -/
def matchKey (w1 : Syl) : Nat := w1.toNat / 2 ^ 24 * 2 ^ 16 + w1.toNat % 2 ^ 16

/-- The index of the one record written that this one matches (R351). -/
def matchIdx (ws : List Written) (r : Read) : Option Nat :=
  match (List.range ws.length).filter fun i => matchKey ((ws.getD i default).w1) == matchKey r.w1 with
  | [i] => some i
  | _ => none

/-- Is a record as it was written, but for its captured words and DEL (R351)? -/
def sameRec (w : Written) (r : Read) : Bool :=
  decide (w.w0 = r.w0) && decide (w.w1 = r.w1) && decide (w.w6 = r.w6) &&
    decide (w.w7 &&& ~~~0x8000#32 = r.w7 &&& ~~~0x8000#32)

/-- Are numbers strictly rising? -/
def rising : List Nat → Bool
  | a :: b :: r => decide (a < b) && rising (b :: r)
  | _ => true

/-- Is each number in the list once? -/
def distinct : List Nat → Bool
  | [] => true
  | a :: r => !r.contains a && distinct r

/-- R351: the records matched with those written, or none where RESUME refuses the queue. -/
def matchQueue (ws : List Written) (rs : List Read) : Option (List (Written × Read)) :=
  let ix := rs.map (matchIdx ws)
  let is := ix.filterMap id
  let ks := is.filter fun i => ((ws.getD i default).w7.getLsbD 10)
  if rs.length ≤ ws.length && ix.all (·.isSome) && distinct is && rising ks &&
      (is.zip rs).all (fun p => sameRec (ws.getD p.1 default) p.2) then
    some ((is.zip rs).map fun p => (ws.getD p.1 default, p.2))
  else none

/-- The syllables to be reissued, in the order in which their records stand; deleted ones are left out (R349). -/
def reissues : List (Written × Read) → List Todo
  | [] => []
  | (w, r) :: t =>
    if r.w7.getLsbD 15 then reissues t
    else match decodeSyl (Slot.ofIndex w.slot) w.w0 with
      | .ok i => ⟨i, w.slot, w.w0, w.bimm, w.step, some (r.opa, r.opb), some w⟩ :: reissues t
      | .error _ => reissues t

/-- The ordinals of LDFs whose records the queue no longer holds, or holds with DEL set: they are deleted (R350). -/
def deletedLdfs (ws : List Written) (kept : List (Written × Read)) : List Nat :=
  (ws.filter fun w => w.ldf != 0 &&
    !(kept.any fun k => k.1.ldf == w.ldf && !k.2.w7.getLsbD 15)).map (·.ldf)

/-- Steps 1 to 3 of R349 once nothing of the handler is awaited: operations of the handler land, the queue is read and
checked, handler mode ends, and the records become the syllables to be reissued. -/
def State.restore (s : State) : State :=
  let g := s.cur
  let s1 := s.landAll g fun _ => true
  let c := s1.ctx g
  let n := bits c.rqn 6 0
  let area := if n = 0 then some (s1, []) else s1.readRecords g n c.rqb
  match area with
  | none => s1.stop (.plain 0x27 c.epc) []
  | some (s2, rs) =>
    match matchQueue c.written rs with
    | none => s2.stop (.plain 0x28 c.epc) []
    | some ms =>
      let c2 := s2.ctx g
      let dead := deletedLdfs c.written ms
      let a := c2.aside.getD ⟨VSet.empty, none, none, 0⟩
      let c3 := { c2 with
        hm := false, estat := c2.estat &&& 0xFF#64, vset := a.vset, loop := a.loop, xfer := a.xfer, aside := none
        redo := some ⟨false, [], [], a.step⟩, ldfs := c2.ldfs.filter fun l => !dead.contains l.id }
      let lost := (c2.ldfs.filter fun l => dead.contains l.id && !l.gone).map fun l => RegN.s l.dest
      let s3 := s2.setCtx g (c3.lose s lost)
      { s3 with iss := { s3.iss with mode := .reissue, todo := reissues ms } }

/-- Is an operation that the handler issued, other than a numbered engine command, still to land or to be performed
(R349)? -/
def State.resumeWaits (s : State) : Bool :=
  let c := s.me
  c.ldfs.any (fun l => l.at_ != .answered && !c.written.any fun w => w.ldf == l.id) ||
    c.pend.any fun o => o.mem.isSome && o.form != .stays

/-- RESUME in handler mode (R349): it waits for the handler's operations, its bundle issued, or goes on at once. -/
def State.resume (s : State) : State :=
  let s1 := { s with iss := { s.iss with resume := true, moved := true } }
  if s.resumeWaits then s1.setMe { s1.me with redo := some ⟨true, [], [], (s1.me.aside.map (·.step)).getD 0⟩ } else s1.restore

end Sys2Proof.Machine
end

