-- ==== Sys2Proof/Machine/Hold.lean ====
section
/-! DEFINITION. The memory queue of a context: when an operation that has issued waits to be performed (R206, R222 to R224,
R254, R264, R303, R313, R323), and the issue of an X-slot command that may have to. -/

namespace Sys2Proof.Machine
open Sys2Proof

/-- The operations of a context issued before one that waits, or before one that issues now. -/
def State.earlier (s : State) (g : Nat) (m : MemOp) : List MemOp := (heldIn (s.ctx g).pend).takeWhile (· != m)

/-- Does the context hold a task at an operation's place in the queue (R292, R310)? -/
def State.inTask (s : State) (g : Nat) (earlier : List MemOp) : Bool :=
  (s.ctx g).task.isSome && !earlier.any (·.isTkdone)

/-- Does an operation meet bytes that the context's task has buffered (R292)? -/
def State.meetsBuf (s : State) (g : Nat) (m : MemOp) : Bool :=
  match s.span m, m.place with
  | some x, .home ia w _ => (match s.taskBuf (coreOf g) (l1Key ia w.world) g with
    | some b => b.2.mask &&& maskOf (x.2.1 % 256) (x.2.2 + 1 - x.2.1) != 0
    | none => false)
  | _, _ => false

/-- Does an operation wait by itself: its slice or the memory side cannot take it (R206, R323), or the dirty bytes of its
L1 line, which go first (R222)? `task` says that its context holds a task. -/
def State.selfWaits (s : State) (g : Nat) (task : Bool) (m : MemOp) : Bool :=
  match m.kind, m.place with
  | .fence sc, _ => s.fenceWaits g sc
  | .callt, _ | .probe, _ | .sync _ _ _, _ => false
  | k, .home ia w _ =>
    let a := s.acc g w (.pod, g)
    let cells := cellsAt ia (List.replicate m.size 0#8)
    let first := m.atHome && s.l1Waits (coreOf g) (l1Key ia w.world) (BitVec.allOnes 256)
    first || (match k with
      | .load _ => false
      | .store _ =>
        if m.atHome then s.txnWaits a cells false
        else ((s.core (coreOf g)).l1.get? (l1Key ia w.world)).isNone && !task &&
          (s.l1Victim (coreOf g) (l1Key ia w.world)).isNone && s.txnWaits a cells false
      | .ldv | .vget => s.waitsAt ia a false true none
      | .rel => s.txnWaits a cells false
      | .casv | .atom _ _ | .stf => s.waitsAt ia a true true none
      | .fence _ | .callt | .probe | .sync _ _ _ => false)
  | _, .bank _ _ => false
  | _, .remote _ _ _ => false
  | _, .bad _ => false

/-- Does the release that an operation makes wait for a write-back of the ranges bound to its object (R257, R264, R323)? -/
def State.rlsWaits (s : State) (g : Nat) (m : MemOp) : Bool :=
  match m.kind with
  | .sync e _ c => s.releaseWaits g (.timeline e) || (match c with
    | .phsig cl off => s.releaseWaits g (.phaser cl off)
    | .tkdone => s.releaseWaits g .pool
    | .cbsync spans => spans.any fun r => s.sendWaits (coreOf g) r.1 r.2
    | .submit _ | .bmsg _ | .phreg _ _ | .phdrop _ _ | .phwait _ _ | .tkget _ | .done | .tlwait => false)
  | .callt | .probe => false
  | .load _ | .store _ | .ldv | .vget | .casv | .atom _ _ | .stf | .rel | .fence _ => match s.lockWord m.place with
    | some o => s.releaseWaits g o
    | none => false

/-- The operations that no order of memory accesses holds: a CALLT's read of its control block and a TLWAIT wait for a CBSYNC
alone (R254, R313). -/
def MemOp.afterCbsync (m : MemOp) : Bool :=
  match m.kind with
  | .callt | .sync _ _ .tlwait => true
  | _ => false

/-- Must an operation of context g wait, `earlier` being those of the context that wait already (R206, R222 to R224, R238,
R254, R313)? A TKDONE that waits commits what the task has buffered before later accesses of those bytes (R223). -/
def State.mustHold (s : State) (g : Nat) (earlier : List MemOp) (m : MemOp) : Bool :=
  if m.afterCbsync then earlier.any (·.isCbsync)
  else
    earlier.any (fun e => e.acq || s.follows e m) ||
    (earlier.any (·.isTkdone) && s.meetsBuf g m) ||
    (s.ctx g).ldfs.any (fun l => l.precedes m && s.ldfWaits g l && (m.rls || s.withLdf l m)) ||
    (m.rls && (!earlier.isEmpty || s.rlsWaits g m)) ||
    s.selfWaits g (s.inTask g earlier) m

/-- The remote member that an operation is performed at. -/
def MemOp.away (m : MemOp) : Option Nat :=
  match m.place with
  | .remote k _ _ => some k
  | .bank _ _ | .home _ _ _ | .bad _ => none

/-- The result registers of an operation. -/
def MemOp.dests (m : MemOp) : List RegN :=
  match m.kind with
  | .load (some _) | .ldv | .vget | .probe => [.s m.dest]
  | .load none => [.v m.dest]
  | .casv => [.s m.dest, .s (m.dest + 1)]
  | .atom _ _ => if m.ord = .spc then [.s m.dest, .s (m.dest + 1)] else [.s m.dest]
  | .sync _ _ (.tkget d) => [.s d]
  | .store _ | .stf | .rel | .fence _ | .callt | .sync _ _ _ => []

/-! ### Commands of the X slot -/

/-- The entry of a command of the X slot in the memory queue. -/
def State.syncOp (s : State) (e : Nat) (n : Word) (c : SyncCmd) : MemOp where
  kind := .sync e n c
  ord := .unp
  place := .bad 0
  dest := 0
  x := 0
  y := 0
  syl := s.iss.syl
  slot := s.iss.slot
  step := s.iss.step
  ldf := s.me.nextLdf
  binds := s.me.binds

/-- A numbered command issues: it takes its number (R178); it is then performed by `run`, its issue being a release of its
timeline counter (R264), or it waits in the memory queue for the operations before it (log 102). `waits` says that it waits
by itself. -/
def State.issueCmd (s : State) (e : Nat) (c : SyncCmd) (waits : State → Bool) (run : State → Word → State) : State :=
  let g := s.cur
  let s1 := s.number g e
  let n := s1.me.issued e
  let m := s1.syncOp e n c
  if s1.mustHold g (heldIn s1.me.pend) m || waits s1 then
    s1.emitHeld { s1.op (if m.dests.isEmpty then 0 else 64) [] 0 .stays with dests := m.dests } m
  else run (s1.release g (.timeline e)) n

/-- A refused command (R179): NV and LASTREF at once; its issue is a release all the same (R264), and then it completes
(log 102). -/
def State.refuse (s : State) (e : Nat) : State :=
  let s1 := s.orFlags s.cur flagNV
  (s1.setMe (s1.me.setEr e 62 (s1.me.issued e + 1))).issueCmd e .done (fun _ => false) fun t n => t.complete t.cur e n

end Sys2Proof.Machine
end

