-- ==== Sys2Proof/Machine/Sync.lean ====
section
/-! DEFINITION. Synchronisation: phasers (R301 to R304), timelines (R299, R300), bindings (R305, R306), control blocks
(R269, R270, R313), tasks (R291, R307 to R310) and futures (R311, R312). A command here completes at its issue (R298), or
once the memory operations before it have been performed; the waits are conditions under which its bundle blocks. -/

namespace Sys2Proof.Machine
open Sys2Proof

/-! ### Phasers -/

/-- What a command that waits in the memory queue will do to a list of registrations. -/
def State.regAfter (s : State) (rs : List PhReg) (m : MemOp) : List PhReg :=
  match m.kind with
  | .sync _ _ (.phreg cl off) =>
    if (rs.any fun r => r.cl == cl && r.off == off) || decide (rs.length ≥ 8) then rs
    else rs ++ [⟨cl, off, (s.phGet cl off).phase⟩]
  | .sync _ _ (.phdrop cl off) => rs.filter fun r => !(r.cl == cl && r.off == off)
  | .sync _ _ (.phsig cl off) => rs.map fun r => if r.cl = cl && r.off = off then { r with owed := r.owed + 1 } else r
  | _ => rs

/-- The registrations of the current context, once the commands that wait in its memory queue are performed. -/
def State.regs (s : State) : List PhReg := (heldIn s.me.pend).foldl s.regAfter s.me.regs

/-- The registration that a phaser command names, if the context holds it. -/
def State.held? (s : State) (va : Word) : Option PhReg :=
  match s.phPlace s.cur va with
  | none => none
  | some p => s.regs.find? fun r => r.cl == p.1 && r.off == p.2

/-- Does a PHREG wait for a place among the 64 of its engine (R302), `rs` being the registrations that its context then
holds? One that registers the phaser already, or is refused as the ninth, does not. -/
def State.phFull (s : State) (rs : List PhReg) (cl off : Nat) : Bool :=
  decide (rs.length < 8) && !(rs.any fun r => r.cl == cl && r.off == off) && !s.phActive cl off &&
    decide ((s.cl cl).active.length ≥ 64)

/-- PHREG of command n (R302). -/
def State.runPhreg (s : State) (g : Nat) (n : Word) (cl off : Nat) : State :=
  if ((s.ctx g).reg? (cl, off)).isSome then s.complete g 5 n
  else if (s.ctx g).regs.length ≥ 8 then s.refuseCmd g 5 n
  else (s.phRegister g (cl, off)).complete g 5 n

/-- PHDROP of command n (R304). -/
def State.runPhdrop (s : State) (g : Nat) (n : Word) (cl off : Nat) : State :=
  match (s.ctx g).reg? (cl, off) with
  | none => s.complete g 5 n
  | some r => (s.phDrop g r).complete g 5 n

/-- PHSIG of command n (R303). -/
def State.runPhsig (s : State) (g : Nat) (n : Word) (cl off : Nat) : State :=
  match (s.ctx g).reg? (cl, off) with
  | none => s.complete g 5 n
  | some r => (s.phSignal g r).complete g 5 n

/-- PHWAIT of command n, its wait over (R304). -/
def State.runPhwait (s : State) (g : Nat) (n : Word) (cl off : Nat) : State :=
  (s.acquire g (.phaser cl off)).complete g 5 n

/-- PHREG (R302). -/
def execPhreg (a : Reg) (s : State) : Outcome :=
  match s.phPlace s.cur (s.opA a) with
  | none => .next (s.refuse 5)
  | some p => .next (s.issueCmd 5 (.phreg p.1 p.2) (fun t => t.phFull t.regs p.1 p.2) fun t n => t.runPhreg t.cur n p.1 p.2)

/-- PHDROP (R304). -/
def execPhdrop (a : Reg) (s : State) : Outcome :=
  match s.held? (s.opA a) with
  | none => .next (s.refuse 5)
  | some r => .next (s.issueCmd 5 (.phdrop r.cl r.off) (fun _ => false) fun t n => t.runPhdrop t.cur n r.cl r.off)

/-- The signal of a PHSIG or PHSW on a registration. -/
def State.sig (s : State) (r : PhReg) : State :=
  s.issueCmd 5 (.phsig r.cl r.off) (fun _ => false) fun t n => t.runPhsig t.cur n r.cl r.off

/-- PHSIG (R303). -/
def execPhsig (a : Reg) (s : State) : Outcome :=
  match s.held? (s.opA a) with
  | none => .next (s.refuse 5)
  | some r => .next (s.sig r)

/-- The phase that a PHWAIT waits for: none where it does not wait (R304). -/
def State.phPhase (s : State) (va : Word) (b : Src) : Option ((Nat × Nat) × Word) :=
  match b with
  | .reg r =>
    if r = 0#6 then
      match s.held? va with
      | none => none
      | some x => if x.owed = 0 then none else some ((x.cl, x.off), x.owed - 1)
    else (s.phPlace s.cur va).map fun p => (p, s.opB b)
  | .bimm => (s.phPlace s.cur va).map fun p => (p, s.opB b)

/-- Is a PHWAIT refused (R304)? -/
def State.phRefused (s : State) (va : Word) (b : Src) : Bool :=
  match b with
  | .reg r => if r = 0#6 then (s.held? va).isNone else (s.phPlace s.cur va).isNone
  | .bimm => (s.phPlace s.cur va).isNone

/-- PHWAIT (R304): its bundle has waited; it acquires the phaser. -/
def execPhwait (a : Reg) (b : Src) (s : State) : Outcome :=
  let va := s.opA a
  if s.phRefused va b then .next (s.refuse 5)
  else match s.phPlace s.cur va with
    | none => .next (s.refuse 5)
    | some p => .next (s.issueCmd 5 (.phwait p.1 p.2) (fun _ => false) fun t n => t.runPhwait t.cur n p.1 p.2)

/-- PHSW (R303): the signal; the wait holds the next bundle. The reissue of its pending wait only waits. -/
def execPhsw (a : Reg) (s : State) : Outcome :=
  let va := s.opA a
  match s.iss.mode with
  | .reissue =>
    match s.phPlace s.cur va, s.iss.ov with
    | some p, some o => .next (s.setMe { s.me with phsw := some ⟨p.1, p.2, o.2, s.iss.syl, s.iss.step, va⟩ })
    | _, _ => .next s
  | .none | .bundle | .release =>
    match s.held? va with
    | none => .next (s.refuse 5)
    | some r =>
      let s1 := s.sig r
      .next (s1.setMe { s1.me with phsw := some ⟨r.cl, r.off, r.owed, s.iss.syl, s.iss.step, va⟩ })

/-! ### Timelines -/

/-- The value that a TLWAIT waits for: no more than ISSUED (R299). -/
def State.tlTarget (s : State) (e : BitVec 4) (a : Reg) (b : Src) : Word :=
  let n := s.opA a + s.opB b
  if n.toNat > (s.me.issued e.toNat).toNat then s.me.issued e.toNat else n

/-- The L1 lines of the device output ranges of a context's commands of engine e up to number n are invalidated (R265). -/
def State.dropOutputs (s : State) (g e : Nat) (n : Word) : State :=
  ((s.ctx g).outDev.filter fun o => o.eng == e && decide (o.n.toNat ≤ n.toNat)).foldl
    (fun t o => o.spans.foldl (fun u r => u.l1InvalRange (coreOf g) r.1 r.2 (o.scope, g)) t) s

/-- What a TLWAIT for value n acquires (R265): the counter, and the L1 lines of the commands' device output ranges. -/
def State.runTlwait (s : State) (g e : Nat) (n : Word) : State := (s.acquire g (.timeline e)).dropOutputs g e n

/-- TLWAIT (R299, R265): its bundle has waited; its acquire waits for a CBSYNC before it (R313). -/
def execTlwait (e : BitVec 4) (a : Reg) (b : Src) (s : State) : Outcome :=
  let n := s.tlTarget e a b
  let m := s.syncOp e.toNat n .tlwait
  if s.mustHold s.cur (heldIn s.me.pend) m then .next (s.emitHeld (s.op 0 [] 0 .completed) m)
  else .next (s.runTlwait s.cur e.toNat n)

/-- TLREAD (R300). A reissue writes the value read (R176). -/
def execTlread (e : BitVec 4) (a : Reg) (s : State) : Outcome :=
  let v := match s.iss.mode, s.iss.ov with
    | .reissue, some o => o.1
    | _, _ => vget s.me.tl e.toNat 0
  .next (s.emit (s.op 4 [wrS a v] 0 (.recorded v 0 false)))

/-! ### Bindings -/

/-- The IA ranges of n bytes from va on, one 64 KiB block at a time (R305): the ranges, or the cause and the first address
that no window serves. -/
def blockSpans (ws : List Window) (world : Byte) : Nat → Nat → Nat → Except (Nat × Nat) (List (Nat × Nat))
  | 0, _, _ => .ok []
  | k + 1, va, n =>
    if n = 0 then .ok []
    else
      let m := min n (65536 - va % 65536)
      match translate ws world va m permNone with
      | .windowFault => .error (0x01, va)
      | .worldViolation => .error (0x21, va)
      | .ok ia _ =>
        match blockSpans ws world k (va + m) (n - m) with
        | .error e => .error e
        | .ok r => .ok ((ia, m) :: r)

/-- The spans of a range of device addresses of the current context. -/
def State.spans (s : State) (base : Word) (n : Nat) : Except (Nat × Nat) (List (Nat × Nat)) :=
  blockSpans s.me.win.toList s.me.worldB (n / 65536 + 2) (bits base 57 0) n

/-- The object of a BIND (R305): none where it is malformed. -/
def State.bindObj (s : State) (kind : Nat) (o : Word) : Option ObjId :=
  match kind with
  | 0 =>
    if o.toNat % 8 = 0 && (tagOf o ≠ 3) then s.lockWord (s.locate s.cur o 8 permNone) else none
  | 1 => (s.phPlace s.cur o).map fun p => .phaser p.1 p.2
  | 2 => if o.toNat ≤ 9 then some (.timeline o.toNat) else none
  | 3 => if o = 0 then some .pool else none
  | _ => none

/-- Entries of a context in use. -/
def Ctx.bindCount (c : Ctx) : Nat := (c.binds.filter (·.isSome)).length

/-- The lowest empty entry filled. -/
def fillBind (b : Bind) : List (Option Bind) → List (Option Bind)
  | [] => [some b]
  | none :: r => some b :: r
  | some x :: r => some x :: fillBind b r

/-- The object and base of a BIND or UNBIND: those that a record holds unseen (R305); a commit-buffer entry has the object
in its words 2-3, which may have been amended, and the base unseen (R347, R350). -/
def State.bindOps (s : State) (a : Reg) : Word × Word :=
  match s.iss.mode, s.iss.rec_ with
  | .release, some w => (s.opA a, w.hold.truncate 64)
  | _, some w => ((w.hold >>> 64).truncate 64, w.hold.truncate 64)
  | _, none => (s.srcS a 0, s.srcS (a + 1) 2)

/-- The base of a range when its record is reissued: an amended address takes the place of the held base. -/
def State.rangeBase (s : State) (held : Word) : Word :=
  match s.iss.mode, s.iss.ov, s.iss.rec_ with
  | .reissue, some o, some w => if o.1 = w.opa then held else o.1
  | _, _, _ => held

/-- BIND (R305). -/
def execBind (a : Reg) (b : Src) (s : State) : Outcome :=
  let ops := s.bindOps a
  let base := s.rangeBase ops.2
  let ctl := s.opB b
  let n := if bits ctl 31 0 = 0 then 2 ^ 32 else bits ctl 31 0
  match s.bindObj (bits ctl 37 35) ops.1 with
  | none => .next (s.orFlags s.cur flagNV)
  | some o =>
    if s.me.bindCount ≥ 16 || bits ctl 63 38 ≠ 0 || bits ctl 34 32 > 4 || tagOf base ≠ 0 then
      .next (s.orFlags s.cur flagNV)
    else match s.spans base n with
      | .error e => .next (s.fault { s.sylFault e.1 (BitVec.ofNat 64 e.2) ctl 0 [] with
          hold := (ops.1 ++ base).zeroExtend 256 })
      | .ok sp => .next (s.setMe { s.me with binds := fillBind ⟨o, ops.1, base, ctl, sp⟩ s.me.binds })

/-- UNBIND (R306). -/
def execUnbind (a : Reg) (b : Src) (s : State) : Outcome :=
  if a = 0#6 && b = .reg 0#6 then .next (s.setMe { s.me with binds := [] })
  else
    let ops := s.bindOps a
    let ctl := s.opB b
    .next (s.setMe { s.me with binds := s.me.binds.map fun e => match e with
      | some x => if x.raw = ops.1 && x.base = ops.2 && decide (bits x.ctl 37 0 = bits ctl 37 0) then none else some x
      | none => none })

/-! ### Control blocks -/

/-- Readers of control blocks (R269): command unit and task unit of a die, collective engine of a die, the CALLT path and
the instruction fill of a core. -/
def readCommand (die : Nat) : Nat := die
def readTask (die : Nat) : Nat := 16 + die
def readColl (die : Nat) : Nat := 32 + die
def readCallt (core : Nat) : Nat := 256 + core
def readFill (core : Nat) : Nat := 1024 + core

/-- A part of a control block read at home; the reader's copy of it serves where it keeps one (R269, log 9). `block` is the
first IA of the block, and as many of its bytes as are known. -/
def State.readControl (s : State) (reader gid : Nat) (block : Nat × Nat) (ia n : Nat) (a : Acc) : State × Res (List Byte) :=
  match s.cbCopies.find? fun c => c.reader == reader && c.world == a.world && c.ia == ia && c.bytes.length == n with
  | some c => (s, .ok c.bytes)
  | none =>
    match s.homeMany a ia n with
    | (s1, .ok bs) => ({ s1 with cbCopies := ⟨reader, gid, a.world, block, ia, bs⟩ :: s1.cbCopies }, .ok bs)
    | o => o

/-- Are two copies parts of one block, kept by one reader? -/
def CbCopy.with_ (x y : CbCopy) : Bool := x.reader == y.reader && x.world == y.world && x.block.1 == y.block.1

/-- Every copy of a block whose bytes meet a range is discarded, with all its parts (R270). -/
def State.dropCopies (s : State) (lo n : Nat) : State :=
  let hit := s.cbCopies.filter fun c => meets (rng c.block.1 c.block.2) (rng lo n) || meets (rng c.ia c.bytes.length) (rng lo n)
  { s with cbCopies := s.cbCopies.filter fun c => !(hit.any c.with_) }

/-- A CBSYNC of some IA ranges (R270). -/
def State.runCbsync (s : State) (g : Nat) (spans : List (Nat × Nat)) : State :=
  spans.foldl (fun t r => (t.l1SendRange (coreOf g) r.1 r.2 (.dev, g)).dropCopies r.1 r.2) (s.performLdfs g fun _ => true)

/-- CBSYNC (R270, R313): it completes at once, or waits in the memory queue. -/
def execCbsync (a : Reg) (b : Src) (s : State) : Outcome :=
  let held := match s.iss.mode, s.iss.rec_ with
    | .reissue, some w => w.hold.truncate 64
    | _, _ => s.opA a
  let base := s.rangeBase held
  let n := bits (s.opB b) 31 0
  let flt := fun (cause : Nat) (at_ : Word) =>
    s.fault { s.sylFault cause at_ (BitVec.ofNat 64 n) 0 [] with hold := base.zeroExtend 256 }
  if tagOf base ≠ 0 then .next (flt 0x02 base)
  else match s.spans base n with
    | .error e => .next (flt e.1 (BitVec.ofNat 64 e.2))
    | .ok sp =>
      let m := s.syncOp 0 0 (.cbsync sp)
      if s.mustHold s.cur (heldIn s.me.pend) m then .next (s.emitHeld (s.op 0 [] 0 .completed) m)
      else .next (s.runCbsync s.cur sp)

/-! ### Tasks -/

/-- Effective priority of a ready task (R291). -/
def effPrio (clock : Nat) (k : TaskSt) (ready : Nat) : Nat := min 255 (k.prio + (clock - ready) / 65536)

/-- May context g take a task: is its core none of those on which the task has failed, or has every core of the gang on
which a context still runs failed it (R293)? -/
def State.mayTake (s : State) (x : Gang) (g : Nat) (k : TaskSt) : Bool :=
  !k.failed.contains (coreOf g) ||
    (s.ctxs.filter fun e => x.block.contains (clusterOf e.1) &&
      (e.2.status == .ready || e.2.status == .waiting)).all fun e => k.failed.contains (coreOf e.1)

/-- The better of two ready tasks by the key of R291: priority, ready time, index. -/
def betterTask (a b : Nat × Nat × Nat) : Nat × Nat × Nat :=
  if a.1 > b.1 then a
  else if a.1 < b.1 then b
  else if a.2.1 < b.2.1 then a
  else if a.2.1 > b.2.1 then b
  else if a.2.2 ≤ b.2.2 then a else b

/-- The first ready task that a context may take. -/
def State.firstTask (s : State) (x : Gang) (p : Pool) (g : Nat) : Option Nat :=
  let all := (List.range p.tasks.length).filterMap fun i => match p.tasks[i]? with
    | none => none
    | some k => match k.ready with
      | none => none
      | some r => if s.mayTake x g k then some (effPrio s.clock k r, r, i) else none
  match all with
  | [] => none
  | y :: r => some (r.foldl betterTask y).2.2

/-- What TKGET does and returns (R309). -/
def State.takeTask (s : State) (g : Nat) : State × Word :=
  match s.gangOf g with
  | none => (s, 0xFFFFFFFFFFFFFFFF#64)
  | some (x, _) => match x.pool with
    | none => (s, 0xFFFFFFFFFFFFFFFF#64)
    | some p => match (s.ctx g).task with
      | some t => (s, p.base + BitVec.ofNat 64 (64 * t))
      | none =>
        if p.halted || p.tasks.all (·.done) then (s, 0xFFFFFFFFFFFFFFFF#64)
        else match s.firstTask x p g with
          | none => (s, 0)
          | some t => match p.tasks[t]? with
            | none => (s, 0)
            | some k =>
              let s2 := s.setGang { x with pool := some (p.setTask t { k with ready := none, holder := some g }) }
              ((s2.setCtx g { s2.ctx g with task := some t }).acquire g .pool, p.base + BitVec.ofNat 64 (64 * t))

/-- TKGET as command n (R309): sA is written at once, and the command completes with it (R178); the register is undefined until
its bound has passed all the same (R22). An unlanded TKGET stays in its engine at a stop (R183). -/
def execTkget (a : Reg) (s : State) : Outcome :=
  .next (s.issueCmd 6 (.tkget a.toNat) (fun _ => false) fun t n =>
    let r := t.takeTask t.cur
    let i := r.1.me.pend.length
    ((r.1.emit { r.1.op 64 [wrS a r.2] 0 .stays with late := true }).landOne t.cur i).complete t.cur 6 n)

/-- The commit of a task (R291 step 1). -/
def State.commitTask (s : State) (g : Nat) : State :=
  ((s.core (coreOf g)).l1.map (·.1)).foldl (fun t key => t.commitLine (coreOf g) key g) s

/-- What a decrement of a counter came to. -/
inductive Dec where
  | done | ready | underflow | refused
  deriving DecidableEq, Repr, Inhabited

/-- One decrement of task i's counter at home (R308): one ATOM.add.i32 of −1, also where the old
value 0 shows an underflow (R315). -/
def State.decrement (s : State) (x : Gang) (p : Pool) (g i : Nat) : State × Dec :=
  let va := p.base + BitVec.ofNat 64 (64 * i + 40)
  match translate p.wins (p.world.truncate 8) (bits va 57 0) 4 permRW with
  | .windowFault => (s, .refused)
  | .worldViolation => (s, .refused)
  | .ok ia w =>
    let a : Acc := ⟨w.world, w.cls, x.tenant, g, (.pod, g)⟩
    match s.homeRead ia 4 a true true with
    | (s1, .ok bs) =>
      let v := leNat bs
      match s1.writeTxn a (cellsAt ia (leBytes 4 ((v + (2 ^ 32 - 1)) % 2 ^ 32))) true with
        | (s2, .ok _) => (s2, if v = 0 then .underflow else if v = 1 then .ready else .done)
        | (s2, .pageFault) => (s2, .refused)
        | (s2, .poisoned) => (s2, .refused)
    | (s1, .pageFault) => (s1, .refused)
    | (s1, .poisoned) => (s1, .refused)

/-- Task i becomes ready now (R291). -/
def State.makeReady (s : State) (gid i : Nat) : State :=
  match s.gang? gid with
  | none => s
  | some x => match x.pool with
    | none => s
    | some p => match p.tasks[i]? with
      | none => s
      | some k => s.setGang { x with pool := some (p.setTask i { k with ready := some s.clock, first := s.clock }) }

/-- The decrements of a TKDONE of task t in the order of the successor list (R291, R294, R308). -/
def State.decrements (s : State) (x : Gang) (p : Pool) (g t : Nat) : List Nat → State
  | [] => s
  | i :: r =>
    if i ≥ p.tasks.length then s.decrements x p g t r
    else match s.decrement x p g i with
      | (s1, .done) => s1.decrements x p g t r
      | (s1, .ready) => (s1.makeReady x.id i).decrements x p g t r
      | (s1, .underflow) => (s1.haltPool x.id 1 t i g).setAsync g 0x24
      | (s1, .refused) => s1.haltPool x.id 4 t i g

/-- Does the decrement of task i's counter wait at its slice (R206, R323)? -/
def State.decrementWaits (s : State) (x : Gang) (p : Pool) (g i : Nat) : Bool :=
  match translate p.wins (p.world.truncate 8) (bits (p.base + BitVec.ofNat 64 (64 * i + 40)) 57 0) 4 permRW with
  | .ok ia w => s.waitsAt ia ⟨w.world, w.cls, x.tenant, g, (.pod, g)⟩ true true none
  | .windowFault | .worldViolation => false

/-- The successor list of task t, read by the task unit as a control block (R269). -/
def State.successors (s : State) (x : Gang) (p : Pool) (g t : Nat) : State × List Nat :=
  let va := p.base + BitVec.ofNat 64 (64 * t)
  match translate p.wins (p.world.truncate 8) (bits va 57 0) 64 permR with
  | .windowFault => (s, [])
  | .worldViolation => (s, [])
  | .ok ia w =>
    match s.readControl (readTask (dieOf g)) x.id (ia, 64) ia 64 ⟨w.world, w.cls, x.tenant, g, (.pod, g)⟩ with
    | (s1, .ok bs) => (s1, [fld bs 44 2, fld bs 46 2, fld bs 48 2, fld bs 50 2])
    | (s1, .pageFault) => (s1, [])
    | (s1, .poisoned) => (s1, [])

/-- Does a TKDONE wait: for a line of its commit, or for a counter (R206, R323)? -/
def State.tkdoneWaits (s : State) (g : Nat) : Bool :=
  ((s.core (coreOf g)).l1.any fun e => s.commitWaits (coreOf g) e.1 g) ||
  (match s.gangOf g, (s.ctx g).task with
  | none, _ | _, none => false
  | some (x, _), some t => match x.pool with
    | none => false
    | some p => (s.successors x p g t).2.any fun i => decide (i < p.tasks.length) && s.decrementWaits x p g i)

/-- TKDONE as command n (R291, R310): refused where the context holds no task. -/
def State.runTkdone (s : State) (g : Nat) (n : Word) : State :=
  match (s.ctx g).task with
  | none => s.refuseCmd g 6 n
  | some t =>
  let s0 := (s.release g .pool).commitTask g
  let s1 := s0.setCtx g { s0.ctx g with task := none }
  match s1.gangOf g with
  | none => s1.complete g 6 n
  | some (x, _) => match x.pool with
    | none => s1.complete g 6 n
    | some p => match p.tasks[t]? with
      | none => s1.complete g 6 n
      | some k =>
        let p1 := p.setTask t { k with done := true, holder := none }
        let r := (s1.setGang { x with pool := some p1 }).successors x p1 g t
        (r.1.decrements x p1 g t r.2).complete g 6 n

/-- Is a TKGET or TKDONE of the context still in its memory queue? -/
def MemOp.isTask (m : MemOp) : Bool :=
  match m.kind with
  | .sync _ _ (.tkget _) | .sync _ _ .tkdone => true
  | _ => false

/-- TKDONE (R310): it commits the task and gives it up as it is performed; a context whose TKDONE waits stores outside the task from
its issue on (Ctx.holds, log 141). Behind a TKGET or TKDONE that waits, whether there is a task to finish is seen when its turn comes
(R297). -/
def execTkdone (s : State) : Outcome :=
  if s.me.task.isNone && !(heldIn s.me.pend).any (·.isTask) then .next (s.refuse 6)
  else .next (s.issueCmd 6 .tkdone (fun u => u.tkdoneWaits u.cur) fun u n => u.runTkdone u.cur n)

/-! ### Futures -/

/-- The LDFs that an FWAIT of a step covers (R311): those issued before it. -/
def Ctx.covered (c : Ctx) (a : Reg) (step : Nat) : List Ldf :=
  c.ldfs.filter fun l => decide (l.step < step) && (a == 0#6 || l.dest == a.toNat)

/-- The clock at which the back-off of an FWAIT ends: none without a NACK (R311). -/
def backoffEnd (ls : List Ldf) (nb : Nat) : Option Nat :=
  match (ls.filter fun l => l.kind == 1).map (·.time) with
  | [] => none
  | t :: r => some (r.foldl max t + 128 * 2 ^ (min nb 7))

/-- The FNACK or FABORT mask of some answers (R312). -/
def kindMask (ls : List Ldf) (k : Nat) : Word :=
  (ls.filter fun l => l.kind == k).foldl (fun m l => m ||| (1#64 <<< l.dest)) 0

/-- FWAIT (R311, R312): its bundle has waited; the covered LDFs are done with, and their destinations may be read, after
the bundle. -/
def execFwait (a : Reg) (s : State) : Outcome :=
  let ls := s.me.covered a s.iss.step
  let c := s.me
  let nack := ls.any fun l => l.kind == 1
  let abort := ls.any fun l => l.kind == 2
  let nb := if nack then c.nb + 1 else 0
  let stat := BitVec.ofNat 64 ((if nack then 1 else 0) + (if abort then 2 else 0) + min nb 255 * 2 ^ 8 +
    min ls.length 0xFFFF * 2 ^ 32)
  let c1 := ((c.setEr 7 0 stat).setEr 7 1 (kindMask ls 1)).setEr 7 2 (kindMask ls 2)
  let s1 := (s.setMe { c1 with nb := nb, backoff := none }).atEnd (.covered (ls.map (·.id)))
  .next (s1.issueCmd 7 .done (fun _ => false) fun t n => t.complete t.cur 7 n)

end Sys2Proof.Machine
end

