-- ==== Sys2Proof/Machine/Control.lean ====
section
/-! DEFINITION. Instruction bytes (R29, R33, R154, R249) and the meanings of the C slot: branch targets, transfers, calls,
LOOP, halves and the end of a context (R140 to R156), TRAP and RESUME (R357, R358). A transfer takes place when its delay
bundles have issued, at the end of a bundle. -/

namespace Sys2Proof.Machine
open Sys2Proof

/-! ### Instruction bytes -/

/-- The destination ranges, as start and length, of the IFILLs that a core has not completed: those in its table, and those
that wait in the memory queues of its contexts (R249, R338). -/
def State.filling (s : State) (core : Nat) : List (Nat × Nat) :=
  (((s.core core).tdt.map (·.cmd) ++ s.submittedOf core).filter fun c => c.eng == 9).map fun c =>
    (bits (c.regs.getD 2 0) 16 0, bits (c.regs.getD 3 0) 16 0)

/-- The instruction word at an address of a core's instruction scratchpad; bytes that an IFILL has left undefined or is
still to write are free (R249). -/
def State.iword (s : State) (core a : Nat) : Syl :=
  let k := s.core core
  if (k.undef ++ s.filling core).any fun r => meets (rng a 4) (rng r.1 r.2) then (s.free 2048 a).truncate 32
  else BitVec.ofNat 32 (leNat (k.ispad.read a 4))

/-- Set bits of a mask. -/
def popMask (m : Byte) : Nat := ((List.range 8).filter fun i => m.getLsbD i).length

/-- Bytes of the bundle with this header (R33). -/
def bundleBytes (h : Syl) : Nat := 4 + 4 * popMask (opOf h)

/-- The address that follows n bundles from an address on. -/
def State.skip (s : State) (core : Nat) : Nat → Nat → Nat
  | 0, a => a
  | n + 1, a => s.skip core n (a + bundleBytes (s.iword core a))

/-- The address of the bundle that follows the second delay bundle of the bundle being issued. -/
def State.afterDelay (s : State) : Word :=
  BitVec.ofNat 64 (s.skip (coreOf s.cur) 2 (s.iss.addr.toNat + s.iss.len))

/-! ### Branch targets (R141) -/

/-- A branch-target register written, recorded with the target (R112). -/
def State.setBt (s : State) (bt : BitVec 2) (v : Word) : State :=
  let w := match s.iss.ov with
    | some o => o.1
    | none => v
  s.emit (s.op 1 [⟨.bt bt.toNat, w.zeroExtend 256⟩] 0 (.recorded w 0 false))

/-- PT (R141). -/
def execPt (bt : BitVec 2) (off : BitVec 22) (s : State) : Outcome :=
  .next (s.setBt bt (s.iss.addr + 4 * off.signExtend 64))

/-- PTR (R141). -/
def execPtr (bt : BitVec 2) (a : Reg) (s : State) : Outcome := .next (s.setBt bt (s.opA a))

/-! ### Transfers (R142 to R150) -/

/-- A transfer of a kind to a target, with both delay bundles still to issue. -/
def State.xferOf (s : State) (kind : XferKind) (target : Word) : Xfer where
  kind := kind
  syl := s.iss.syl
  step := s.iss.step
  left := 2
  target := target
  home := s.iss.addr
  fall := 0
  arm_ := false
  p := 0
  neg := false
  arm := false
  val := none
  entry := none
  landed := true
  sig := 0
  lost := []
  blocked := false

/-- A transfer armed: by its bundle, or again from its record, with the captured target and the delay bundles that
remain (R147). -/
def State.arm (s : State) (x : Xfer) : State :=
  match s.iss.mode, s.iss.ov, s.iss.rec_ with
  | .reissue, some o, some w =>
    let y := (w.xfer.getD x)
    let z : Xfer := { y with
      kind := x.kind, target := o.1, syl := w.w0, step := s.iss.step, left := w.w1.toNat / 2 ^ 16 % 256
      p := bits o.2 5 0, neg := bit o.2 6, arm := bit o.2 7, val := none, arm_ := false, lost := w.sup
      blocked := false }
    s.setMe { s.me with xfer := some z }
  | _, _, _ => s.setMe { s.me with xfer := some x }

/-- The value of bt, read at issue. -/
def State.btVal (s : State) (bt : BitVec 2) : Word := (s.src (.bt bt.toNat) 0).truncate 64

/-- BR (R145). -/
def execBr (bt : BitVec 2) (arm neg : Bool) (p : Reg) (s : State) : Outcome :=
  let x := s.xferOf .br (s.btVal bt)
  .next (s.arm { x with p := p.toNat, neg := neg, arm := arm, val := if p = 0#6 then some 0xFF#8 else none })

/-- The s1 write of a call (R148): part of its transfer's record. -/
def State.linkOp (s : State) (v : Word) : State := s.emit (s.op 3 [⟨.s 1, v.zeroExtend 256⟩] 0 .transfer)

/-- The return address of the call being issued, or of the one that its record stands for. -/
def State.retAddr (s : State) : Word :=
  match s.iss.mode, s.iss.rec_ with
  | .reissue, some w => match w.xfer with
    | some x => x.fall
    | none => s.afterDelay
  | _, _ => s.afterDelay

/-- CALL (R148). -/
def execCall (bt : BitVec 2) (s : State) : Outcome :=
  let r := s.retAddr
  let x := s.xferOf .call (s.btVal bt)
  .next ((s.arm { x with fall := r }).linkOp r)

/-- The entry of a function table in its 16 bytes (R81): target, and the signature with the reserved bits. -/
def entryOf (bs : List Byte) : Word × Word := (BitVec.ofNat 64 (fld bs 0 8), BitVec.ofNat 64 (fld bs 8 8))

/-- The gang that the current context belongs to. -/
def State.gidOf (s : State) (g : Nat) : Nat :=
  match s.gangOf g with
  | some (x, _) => x.id
  | none => 0

/-- A CALLT whose entry address is not accepted (R149): a faulting record of its transfer. -/
def State.calltFault (s : State) (x : Xfer) (va : Word) (cause : Nat) : State :=
  s.fault { s.sylFault cause va 0 0 [.s 1] with xfer := some x }

/-- The entry that a CALLT's read brings (R149, R269): a control block of the CALLT path of the core. -/
def State.calltRead (s : State) (g : Nat) (ia : Nat) (w : Window) : State × (Word × Word) :=
  let q := s.readControl (readCallt (coreOf g)) (s.gidOf g) (ia, 16) ia 16 (s.acc g w (.pod, g))
  (q.1.failed g q.2, entryOf (s.bytesOr 16 q.2))

/-- A CALLT whose entry has been read: it arrives when the read's operation lands. -/
def Ctx.calltGot (c : Ctx) (step : Nat) (e : Word × Word) : Ctx :=
  { c with xfer := c.xfer.map fun x => if x.kind = .callt && x.step = step then { x with entry := some e } else x }

/-- Has the entry of the CALLT that a record stands for arrived before the stop (R147)? -/
def State.calltKnown (s : State) : Bool :=
  match s.iss.mode, s.iss.rec_ with
  | .reissue, some w => match w.xfer with
    | some x => x.entry.isSome && x.landed
    | none => false
  | _, _ => false

/-- CALLT (R149): the entry is read as a control block, or has arrived before the stop that recorded it, and then its
captured target stands (R147, R350). The window that covers the entry must grant R (log 104). -/
def execCallt (a : Reg) (sig : BitVec 12) (s : State) : Outcome :=
  let g := s.cur
  let va := match s.iss.ov with
    | some o => o.1
    | none => s.me.ftb + 16 * s.srcS a 0
  let r := s.retAddr
  let x0 := s.xferOf .callt va
  let x : Xfer := { x0 with fall := r, sig := sig, landed := false }
  if s.calltKnown then .next ((s.arm x).linkOp r)
  else if tagOf va ≠ 0 then .next (s.calltFault x va 0x02)
  else if va.toNat % 16 ≠ 0 then .next (s.calltFault x va 0x03)
  else match s.locate g va 16 permR with
    | .home ia w pol =>
      let o := { s.op 64 [] 0 .transfer with late := true }
      let m := { s.syncOp 0 0 .done with kind := .callt, place := .home ia w pol }
      match s.iss.mode with
      | .reissue =>
        -- a record completes before the next begins (R349): the entry has arrived
        let q := s.calltRead g ia w
        let s1 := q.1.arm x
        .next ((s1.setMe { s1.me with xfer := s1.me.xfer.map fun y => { y with
          entry := some q.2, landed := true, target := q.2.1, sig := sig, fall := r } }).linkOp r)
      | .none | .bundle | .release =>
        if s.mustHold g (heldIn s.me.pend) m then .next (((s.arm x).linkOp r).emitHeld o m)
        else
          let q := s.calltRead g ia w
          .next (((q.1.arm { x with entry := some q.2 }).linkOp r).emit o)
    | .bad c => .next (s.calltFault x va c)
    | .bank _ _ => .next (s.calltFault x va 0x02)
    | .remote _ _ _ => .next (s.calltFault x va 0x02)

/-- RET (R150). -/
def execRet (s : State) : Outcome := .next (s.arm (s.xferOf .ret ((s.src (.s 1) 0).truncate 64)))

/-- BSWAP (R153). -/
def execBswap (bt : BitVec 2) (s : State) : Outcome := .next (s.arm (s.xferOf .bswap (s.btVal bt)))

/-! ### LOOP (R151) -/

/-- The context with loop registers l0 up set. -/
def Ctx.setLs (c : Ctx) : Nat → List (BitVec 32) → Ctx
  | _, [] => c
  | i, x :: r => ({ c with l := vput c.l i x }).setLs (i + 1) r

/-- LOOP (R151). -/
def execLoop (len : BitVec 4) (depth : BitVec 3) (s : State) : Outcome :=
  let cnt := (List.range depth.toNat).map fun j => ((s.src (.s (12 + j)) j).truncate 32 : BitVec 32)
  let c := s.me.setLs 0 cnt
  let body := s.iss.addr.toNat + s.iss.len
  if cnt.any (· == 0#32) then
    let s1 := s.setMe { c with pc := BitVec.ofNat 64 (s.skip (coreOf s.cur) (len.toNat + 1) body) }
    .next { s1 with iss := { s1.iss with moved := true } }
  else .next (s.setMe { c with loop := some ⟨BitVec.ofNat 64 body, len.toNat + 1, 0, cnt⟩ })

/-- One pass over the counters at the end of a body (R151), l_j first: the counts, and whether the loop is over. -/
def loopDown : List (BitVec 32) → List (BitVec 32) → List (BitVec 32) × Bool
  | l :: ls, n :: ns =>
    if l - 1 ≠ 0 then ((l - 1) :: ls, false)
    else
      let r := loopDown ls ns
      (n :: r.1, r.2)
  | _, _ => ([], true)

/-! ### Fences and the end (R154 to R156) -/

/-- IFENCE (R154). -/
def execIfence (s : State) : Outcome :=
  let k := s.core (coreOf s.cur)
  .next (if k.loopOf = s.cur then s.setCore (coreOf s.cur) { k with loopBuf := [] } else s)

/-- TRAP (R357): an after stop. -/
def execTrap (code : BitVec 12) (s : State) : Outcome := .next { s with iss := { s.iss with trap := some code } }

/-- RESUME (R358): steps 1 to 3 of R349; the records are reissued by the rest of the step. -/
def execResume (s : State) : Outcome := .next s.resume

/-- YIELD (R155): its bundle has blocked once and is issued now. -/
def execYield (s : State) : Outcome := .next (s.setMe { s.me with yielded := false })

/-- EXIT (R156): the context ends once its bundle has issued. -/
def execExit (s : State) : Outcome := .next { s with iss := { s.iss with exit := true } }

/-- The NOP bundle (R35): its PC and its step are counted at the end of the bundle, like those of every bundle. -/
def execNop (_stop _gn : Bool) (_gp : Reg) (_hint : BitVec 4) (_bimm : BitVec 12) (s : State) : Outcome := .next s

end Sys2Proof.Machine
end

