-- ==== Sys2Proof/Machine/Float.lean ====
section
/-! DEFINITION. Number formats (04_numbers R88 to R110): exact values, the IEEE formats and their one rounding, the
narrow family, stochastic rounding, integer conversions, and the correctly rounded functions of R132. Every value is
an exact dyadic number; a quotient, root, power or logarithm is carried as a truncated dyadic with a sticky bit. -/

namespace Sys2Proof.Machine
open Sys2Proof

/-- A real of R109: NaN (signalling or quiet), an infinity, or ±m·2^e. -/
inductive Val where
  | nan (sig : Bool)
  | inf (neg : Bool)
  | fin (neg : Bool) (m : Nat) (e : Int)
  deriving DecidableEq, Repr, Inhabited

/-- Exponent and fraction widths of an IEEE format (R88). -/
structure Ieee where
  eb : Nat
  mb : Nat
  deriving DecidableEq, Repr, Inhabited

/-- Width in bits. -/
def Ieee.width (f : Ieee) : Nat := 1 + f.eb + f.mb

/-- Exponent bias. -/
def Ieee.bias (f : Ieee) : Int := 2 ^ (f.eb - 1) - 1

def fp64 : Ieee := ⟨11, 52⟩
def fp32 : Ieee := ⟨8, 23⟩
def fp16 : Ieee := ⟨5, 10⟩
def bf16 : Ieee := ⟨8, 7⟩

/-- A format: IEEE, narrow by its descriptor, or INT8. -/
inductive Fmt where
  | ieee (f : Ieee)
  | narrow (d : Syl)
  | int8
  deriving DecidableEq, Repr, Inhabited

/-- The format of a type code, given f0 to f7 (R44). -/
def fmtOf (t : FTy) (fs : Nat → Syl) : Fmt :=
  match t with
  | .narrow k => .narrow (fs k.toNat)
  | .bf16 => .ieee Machine.bf16
  | .fp16 => .ieee Machine.fp16
  | .fp32 => .ieee Machine.fp32
  | .fp64 => .ieee Machine.fp64
  | .int8 => .int8

/-- Number of bits of a number; 0 for 0. -/
def bitLen (n : Nat) : Nat := if n = 0 then 0 else Nat.log2 n + 1

/-! ### IEEE bit patterns -/

/-- The all-ones exponent. -/
def Ieee.eMax (f : Ieee) : Nat := 2 ^ f.eb - 1

/-- Exponent field. -/
def Ieee.expOf (f : Ieee) (x : Nat) : Nat := x / 2 ^ f.mb % 2 ^ f.eb

/-- Fraction field. -/
def Ieee.fracOf (f : Ieee) (x : Nat) : Nat := x % 2 ^ f.mb

/-- Sign bit. -/
def Ieee.negOf (f : Ieee) (x : Nat) : Bool := decide (x / 2 ^ (f.width - 1) % 2 = 1)

def Ieee.isNan (f : Ieee) (x : Nat) : Bool := decide (f.expOf x = f.eMax) && decide (f.fracOf x ≠ 0)

/-- A NaN is signalling when its most significant fraction bit is 0 (R88). -/
def Ieee.isSig (f : Ieee) (x : Nat) : Bool := f.isNan x && decide (f.fracOf x < 2 ^ (f.mb - 1))

/-- quiet(x) (R109). -/
def Ieee.quiet (f : Ieee) (x : Nat) : Nat := if f.isSig x then x + 2 ^ (f.mb - 1) else x

/-- The canonical NaN (R94). -/
def Ieee.canon (f : Ieee) : Nat := f.eMax * 2 ^ f.mb + 2 ^ (f.mb - 1)

/-- A pattern of sign and magnitude. -/
def Ieee.withSign (f : Ieee) (neg : Bool) (mag : Nat) : Nat := (if neg then 2 ^ (f.width - 1) else 0) + mag

/-- ±∞. -/
def Ieee.infBits (f : Ieee) (neg : Bool) : Nat := f.withSign neg (f.eMax * 2 ^ f.mb)

/-- The largest finite value. -/
def Ieee.maxBits (f : Ieee) (neg : Bool) : Nat := f.withSign neg (f.eMax * 2 ^ f.mb - 1)

/-- val of an IEEE pattern (R109). -/
def Ieee.val (f : Ieee) (x : Nat) : Val :=
  if f.isNan x then .nan (f.isSig x)
  else if f.expOf x = f.eMax then .inf (f.negOf x)
  else if f.expOf x = 0 then .fin (f.negOf x) (f.fracOf x) (1 - f.bias - f.mb)
  else .fin (f.negOf x) (2 ^ f.mb + f.fracOf x) (f.expOf x - f.bias - f.mb)

/-! ### The one rounding (R90) -/

/-- Is m·2^e, with a part below it when sticky, cut at 2^q rounded away from zero? Answers the kept significand and
whether it is inexact. -/
def cutAt (rm : Rm) (neg : Bool) (m : Nat) (e : Int) (sticky : Bool) (q : Int) : Nat × Bool :=
  let d := (q - e).toNat
  let hi := if q ≤ e then m * 2 ^ (e - q).toNat else m / 2 ^ d
  let rem := if q ≤ e then 0 else m % 2 ^ d
  let half := if q ≤ e then 1 else 2 ^ (d - 1)
  let inexact := decide (rem ≠ 0) || sticky
  let up := match rm with
    | .rne => decide (rem > half) || (decide (rem = half) && (sticky || decide (hi % 2 = 1)))
    | .rtz => false
    | .rup => inexact && !neg
    | .rdn => inexact && neg
  (if up then hi + 1 else hi, inexact)

/-- Does a value rounded with no limit on its exponent stay below the smallest normal? (tininess after rounding, R90) -/
def Ieee.tiny (f : Ieee) (rm : Rm) (neg : Bool) (m : Nat) (e : Int) (sticky : Bool) : Bool :=
  let q := e + bitLen m - (f.mb + 1)
  let c := (cutAt rm neg m e sticky q).1
  decide (q + bitLen c - 1 < 1 - f.bias)

/-- The exponent of the unit that a finite value keeps. -/
def Ieee.unit (f : Ieee) (m : Nat) (e : Int) : Int := max (e + bitLen m - (f.mb + 1)) (1 - f.bias - f.mb)

/-- The pattern of a significand c at unit 2^q, when it is in range; none when it overflows. -/
def Ieee.pack (f : Ieee) (neg : Bool) (c : Nat) (q : Int) : Option Nat :=
  if c = 0 then some (f.withSign neg 0)
  else if c < 2 ^ f.mb then some (f.withSign neg c)
  else
    let up := decide (c = 2 ^ (f.mb + 1))
    let ex := q + f.mb + f.bias + (if up then 1 else 0)
    if ex ≥ f.eMax then none
    else some (f.withSign neg (ex.toNat * 2 ^ f.mb + (if up then 0 else c - 2 ^ f.mb)))

/-- What an overflow gives in a mode (R90). -/
def Ieee.over (f : Ieee) (rm : Rm) (neg : Bool) : Nat :=
  match rm with
  | .rne => f.infBits neg
  | .rtz => f.maxBits neg
  | .rup => if neg then f.maxBits neg else f.infBits neg
  | .rdn => if neg then f.infBits neg else f.maxBits neg

/-- round of a finite value (R90, R109): the pattern and the flags. -/
def Ieee.roundFin (f : Ieee) (rm : Rm) (neg : Bool) (m : Nat) (e : Int) (sticky : Bool) : Nat × Byte :=
  if m = 0 then (f.withSign neg 0, 0#8)
  else
    let q := f.unit m e
    let c := cutAt rm neg m e sticky q
    match f.pack neg c.1 q with
    | none => (f.over rm neg, flagOF ||| flagNX)
    | some x =>
      (x, if c.2 then flagNX ||| (if f.tiny rm neg m e sticky then flagUF else 0#8) else 0#8)

/-- round to an IEEE format; a NaN gives the canonical NaN and no flag. -/
def Ieee.round (f : Ieee) (rm : Rm) (v : Val) : Nat × Byte :=
  match v with
  | .nan _ => (f.canon, 0#8)
  | .inf n => (f.infBits n, 0#8)
  | .fin n m e => f.roundFin rm n m e false

/-! ### The narrow family (R95 to R98) -/

def dMB (d : Syl) : Nat := (d.extractLsb' 0 4).toNat
def dEB (d : Syl) : Nat := (d.extractLsb' 4 4).toNat
def dS (d : Syl) : Nat := (d.extractLsb' 8 1).toNat
def dNANR (d : Syl) : Bool := d.getLsbD 9
def dSAT (d : Syl) : Bool := d.getLsbD 10
def dBIAS (d : Syl) : Int := (d.extractLsb' 24 8).toInt

/-- Code width w (R96). -/
def dWidth (d : Syl) : Nat := dS d + dEB d + dMB d

/-- A well-formed descriptor (R96). -/
def dOk (d : Syl) : Bool :=
  decide (2 ≤ dWidth d) && decide (dWidth d ≤ 8) && decide ((2 : Int) ^ dEB d - 1 - dBIAS d ≤ 127) &&
    decide (d.extractLsb' 11 13 = 0#13)

/-- Container width in bits (R96): 4 or 8; an unset register has 8. -/
def dCont (d : Syl) : Nat := if d = 0#32 then 8 else if dWidth d ≤ 4 then 4 else 8

/-- mag(k, f) as significand and exponent (R97). -/
def dMag (d : Syl) (k : Nat) : Nat × Int :=
  (2 ^ dMB d + k % 2 ^ dMB d, (k / 2 ^ dMB d : Nat) - dBIAS d - dMB d)

/-- narrow_decode (R97). -/
def narrowDecode (d : Syl) (c : Nat) : Val :=
  let c := c % 2 ^ dWidth d
  if d = 0#32 || decide (c = 0) then .fin false 0 0
  else if dNANR d && decide (c = 2 ^ dWidth d - 1) then .nan false
  else
    let neg := decide (dS d = 1) && decide (c / 2 ^ (dWidth d - 1) % 2 = 1)
    let g := dMag d (c % 2 ^ (dEB d + dMB d))
    .fin neg g.1 g.2

/-- The largest code index of a sign (R98). -/
def dTop (d : Syl) (neg : Bool) : Nat :=
  2 ^ (dEB d + dMB d) - 1 - (if dNANR d && (neg == decide (dS d = 1)) then 1 else 0)

/-- code(s, k) (R98). -/
def dCode (d : Syl) (neg : Bool) (k : Nat) : Nat := (if neg then 2 ^ (dEB d + dMB d) else 0) + k

/-- The smallest code index of a sign (R98). -/
def dKmin (neg : Bool) : Nat := if neg then 0 else 1

/-- x·2^a ≤ y·2^b and x·2^a = y·2^b, decided exactly. -/
def dyLe (x : Nat) (a : Int) (y : Nat) (b : Int) : Bool :=
  let q := min a b
  decide (x * 2 ^ (a - q).toNat ≤ y * 2 ^ (b - q).toNat)
def dyEq (x : Nat) (a : Int) (y : Nat) (b : Int) : Bool := dyLe x a y b && dyLe y b x a

/-- The largest index whose magnitude is at most m·2^e, if there is one: the grid of R98 with k unbounded above. -/
def dFloor (d : Syl) (neg : Bool) (m : Nat) (e : Int) : Option Nat :=
  let top := e + bitLen m - 1 + dBIAS d
  if top < 0 then none
  else
    let sh := e + dMB d - (e + bitLen m - 1)
    let fr := if sh ≥ 0 then m * 2 ^ sh.toNat else m / 2 ^ (-sh).toNat
    let k := top.toNat * 2 ^ dMB d + (fr - 2 ^ dMB d)
    if k < dKmin neg then none else some k

/-- The exact sum of two dyadics of one sign, doubled terms aside: x·2^a + y·2^b. -/
def dyAdd (x : Nat) (a : Int) (y : Nat) (b : Int) : Nat × Int :=
  let q := min a b
  (x * 2 ^ (a - q).toNat + y * 2 ^ (b - q).toNat, q)

/-- The candidate that a mode picks for m·2^e (R98): none is 0, some k the index k. -/
def dPick (d : Syl) (rm : Rm) (neg : Bool) (m : Nat) (e : Int) : Option Nat :=
  let lo := dFloor d neg m e
  let hi := match lo with
    | none => dKmin neg
    | some k => k + 1
  let exact := match lo with
    | none => false
    | some k => dyEq (dMag d k).1 (dMag d k).2 m e
  if exact then lo
  else match rm with
    | .rtz => lo
    | .rup => if neg then lo else some hi
    | .rdn => if neg then some hi else lo
    | .rne =>
      let g := dMag d hi
      let l := match lo with
        | none => (0, g.2)
        | some k => dMag d k
      let sum := dyAdd l.1 l.2 g.1 g.2
      if dyEq (2 * m) e sum.1 sum.2 then
        match lo with
        | none => none
        | some k => if k % 2 = 0 then lo else some hi
      else if dyLe (2 * m) e sum.1 sum.2 then lo else some hi

/-- The code for a candidate that has been picked (R98): overflow, zero, or the code itself. -/
def dResult (d : Syl) (rm : Rm) (neg : Bool) (m : Nat) (e : Int) (x : Option Nat) : Nat × Byte :=
  match x with
  | none => (0, flagUF ||| flagNX)
  | some k =>
    if k > dTop d neg then
      let toward := match rm with
        | .rne => false
        | .rtz => true
        | .rup => neg
        | .rdn => !neg
      if dSAT d || !dNANR d || toward then (dCode d neg (dTop d neg), flagOF ||| flagNX ||| flagSA)
      else (2 ^ dWidth d - 1, flagOF ||| flagNX)
    else (dCode d neg k, if dyEq (dMag d k).1 (dMag d k).2 m e then 0#8 else flagNX)

/-- narrow_encode (R98). -/
def narrowEncode (d : Syl) (rm : Rm) (v : Val) : Nat × Byte :=
  if d = 0#32 then (0, flagNV)
  else match v with
  | .nan _ =>
    if dNANR d then (2 ^ dWidth d - 1, 0#8)
    else (if dS d = 1 then dCode d true (dTop d true) else dCode d false (dTop d false), flagNV ||| flagSA)
  | .inf neg =>
    if dS d = 0 && neg then (0, flagSA ||| flagNX)
    else dResult d rm neg 1 0 (some (dTop d neg + 1))
  | .fin neg m e =>
    if m = 0 then (0, 0#8)
    else if dS d = 0 && neg then (0, flagSA ||| flagNX)
    else dResult d rm neg m e (dPick d rm neg m e)

/-! ### Formats together -/

/-- val(x, t) (R109). -/
def Fmt.val (f : Fmt) (x : Nat) : Val :=
  match f with
  | .ieee g => g.val (x % 2 ^ g.width)
  | .narrow d => narrowDecode d x
  | .int8 =>
    let i := (BitVec.ofNat 8 x).toInt
    .fin (decide (i < 0)) i.natAbs 0

/-- round(v, t, rm) (R109). A narrow NaN is encoded by R98; an IEEE NaN is canonical. -/
def Fmt.round (f : Fmt) (rm : Rm) (v : Val) : Nat × Byte :=
  match f with
  | .ieee g => g.round rm v
  | .narrow d => narrowEncode d rm v
  | .int8 => (0, 0#8)

/-- Container width in bits. -/
def Fmt.cont (f : Fmt) : Nat :=
  match f with
  | .ieee g => g.width
  | .narrow d => dCont d
  | .int8 => 8

/-- Is a value a signalling NaN? -/
def Val.isSig : Val → Bool
  | .nan s => s
  | .inf _ | .fin _ _ _ => false

def Val.isNan : Val → Bool
  | .nan _ => true
  | .inf _ | .fin _ _ _ => false

def Val.isInf : Val → Bool
  | .inf _ => true
  | .nan _ | .fin _ _ _ => false

def Val.neg : Val → Bool
  | .nan _ => false
  | .inf n => n
  | .fin n _ _ => n

def Val.isZero : Val → Bool
  | .fin _ m _ => decide (m = 0)
  | .nan _ | .inf _ => false

/-- The negated value. -/
def Val.negate : Val → Val
  | .nan s => .nan s
  | .inf n => .inf (!n)
  | .fin n m e => .fin (!n) m e

/-- exact_prod (R109): NaN for 0·∞. -/
def Val.mul (x y : Val) : Val :=
  match x, y with
  | .nan s, .nan t => .nan (s || t)
  | .nan s, _ => .nan s
  | _, .nan t => .nan t
  | .inf n, .inf k => .inf (n != k)
  | .inf n, .fin k m _ => if m = 0 then .nan false else .inf (n != k)
  | .fin k m _, .inf n => if m = 0 then .nan false else .inf (n != k)
  | .fin n m e, .fin k p q => .fin (n != k) (m * p) (e + q)

/-- ±m·2^e at exponent q, as an integer; q is at most e. -/
def atExp (neg : Bool) (m : Nat) (e q : Int) : Int :=
  let n : Int := (m * 2 ^ (e - q).toNat : Nat)
  if neg then -n else n

/-- The exact sum of two reals; `rdn` gives an exact zero of opposite signs its sign (R90). -/
def Val.add (rdn : Bool) (x y : Val) : Val :=
  match x, y with
  | .nan s, .nan t => .nan (s || t)
  | .nan s, _ => .nan s
  | _, .nan t => .nan t
  | .inf n, .inf k => if n = k then .inf n else .nan false
  | .inf n, .fin _ _ _ => .inf n
  | .fin _ _ _, .inf n => .inf n
  | .fin n m e, .fin k p q =>
    if m = 0 && decide (p = 0) then .fin (if n = k then n else rdn) 0 0
    else
      let r := min e q
      let z := atExp n m e r + atExp k p q r
      if z = 0 then .fin rdn 0 0 else .fin (decide (z < 0)) z.natAbs r

/-- Multiplication by 2^k, exact. -/
def Val.scale (x : Val) (k : Int) : Val :=
  match x with
  | .fin n m e => .fin n m (e + k)
  | .nan s => .nan s
  | .inf n => .inf n

/-- exact_sum of a list (R109): +0 where every element is zero. -/
def exactSum : List Val → Val
  | [] => .fin false 0 0
  | x :: r => match Val.add false x (exactSum r) with
    | .fin n m e => if m = 0 then .fin false 0 0 else .fin n m e
    | v => v

/-- The order of R129: is x below y, −0 below +0? Neither is NaN. -/
def Val.lt (x y : Val) : Bool :=
  match x, y with
  | .nan _, _ | _, .nan _ => false
  | .inf n, .inf k => n && !k
  | .inf n, .fin _ _ _ => n
  | .fin _ _ _, .inf k => !k
  | .fin n m e, .fin k p q =>
    let r := min e q
    let a := atExp n m e r
    let b := atExp k p q r
    if a = b then n && !k && decide (m = 0) else decide (a < b)

/-- Numeric order with +0 equal to −0 (R131). -/
def Val.ltNum (x y : Val) : Bool := x.lt y && !(x.isZero && y.isZero)
def Val.eqNum (x y : Val) : Bool := !x.isNan && !y.isNan && !x.ltNum y && !y.ltNum x

/-- The value of an E8M0 code as a power of two (R100); none for the NaN scale. -/
def scaleExp (c : Nat) : Option Int := if c = 255 then none else some ((c : Int) - 127)

/-! ### Stochastic rounding (R102, R103) -/

/-- srnd_draw: the new state and the 16 bits drawn. -/
def srndDraw (x : Word) : Word × BitVec 16 :=
  let x := if x = 0 then 1 else x
  let x := x ^^^ (x <<< 13)
  let x := x ^^^ (x >>> 7)
  let x := x ^^^ (x <<< 17)
  (x, x.extractLsb' 48 16)

/-- floor((|v| − |t0|) / (|t1| − |t0|) · 65536) for dyadic magnitudes. -/
def srndD (m : Nat) (e : Int) (t0 t1 : Nat × Int) : Nat :=
  let q := min e (min t0.2 t1.2)
  let v := m * 2 ^ (e - q).toNat
  let a := t0.1 * 2 ^ (t0.2 - q).toNat
  let b := t1.1 * 2 ^ (t1.2 - q).toNat
  (v - a) * 65536 / (b - a)

/-- srnd(v, t, r) (R103). -/
def Fmt.srnd (f : Fmt) (v : Val) (r : Nat) : Nat × Byte :=
  match f, v with
  | .ieee g, .fin neg m e =>
    if m = 0 then (g.withSign neg 0, 0#8)
    else
      let q := g.unit m e
      let c := (cutAt .rtz neg m e false q).1
      let exact := dyEq c q m e
      let d := if exact then 0 else srndD m e (c, q) (c + 1, q)
      let k := if r < d then c + 1 else c
      match g.pack neg k q with
      | none => (g.infBits neg, flagOF ||| flagNX)
      | some x => (x, if exact then 0#8
          else flagNX ||| (if decide (k < 2 ^ g.mb) then flagUF else 0#8))
  | .narrow d, .fin neg m e =>
    if d = 0#32 then (0, flagNV)
    else if m = 0 then (0, 0#8)
    else if dS d = 0 && neg then (0, flagSA ||| flagNX)
    else
      let lo := dFloor d neg m e
      let hi := match lo with
        | none => dKmin neg
        | some k => k + 1
      let l := match lo with
        | none => (0, (dMag d hi).2)
        | some k => dMag d k
      let x := if dyEq l.1 l.2 m e then lo else if r < srndD m e l (dMag d hi) then some hi else lo
      dResult d .rne neg m e x
  | f, v => f.round .rne v

/-! ### Integers (R108) -/

/-- The integer a value rounds to in a mode, and whether it changed. -/
def Val.toInt (rm : Rm) (v : Val) : Int × Bool :=
  match v with
  | .fin n m e =>
    let c := cutAt rm n m e false 0
    (if n then -(c.1 : Int) else c.1, c.2)
  | .nan _ | .inf _ => (0, false)

/-- FCVTI (R108): the value clamped to lo..hi, with the flags. -/
def Val.convert (rm : Rm) (lo hi : Int) (v : Val) : Int × Byte :=
  match v with
  | .nan _ => (0, flagNV)
  | .inf n => (if n then lo else hi, flagNV)
  | .fin n m e =>
    let i := (Val.fin n m e).toInt rm
    if i.1 < lo then (lo, flagNV) else if i.1 > hi then (hi, flagNV)
    else (i.1, if i.2 then flagNX else 0#8)

/-- The exact value of an integer. -/
def Val.ofInt (i : Int) : Val := .fin (decide (i < 0)) i.natAbs 0

/-! ### Correctly rounded functions (R132) -/

/-- Bits of the fixed-point fractions below. -/
def prec : Nat := 320

/-- floor of the square root: bits i − 1 to 0 are tried from the top, r holds those above. -/
def isqrtBits (n : Nat) : Nat → Nat → Nat
  | 0, r => r
  | i + 1, r => if (r + 2 ^ i) * (r + 2 ^ i) ≤ n then isqrtBits n i (r + 2 ^ i) else isqrtBits n i r

/-- floor of the square root. -/
def isqrt (n : Nat) : Nat := isqrtBits n (bitLen n / 2 + 1) 0

/-- 1/x of a positive dyadic m·2^e: a truncated dyadic and whether something lies below it. -/
def recipDy (m : Nat) (e : Int) : Nat × Int × Bool :=
  let k := bitLen m + 80
  (2 ^ k / m, -e - k, decide (2 ^ k % m ≠ 0))

/-- 1/√x of a positive dyadic m·2^e. -/
def rsqrtDy (m : Nat) (e : Int) : Nat × Int × Bool :=
  let m1 := if e % 2 = 0 then m else 2 * m
  let e1 := if e % 2 = 0 then e else e - 1
  let k := bitLen m1 + 80
  let y := isqrt (2 ^ (2 * k) / m1)
  (y, -(e1 / 2) - k, decide (y * y * m1 ≠ 2 ^ (2 * k)))

/-- Σ z^(2i+1)/(2i+1) in fixed point: `p` is the power z^(2i+1), `z2` is z². -/
def atanhSum (z2 : Nat) : Nat → Nat → Nat → Nat
  | 0, _, _ => 0
  | n + 1, i, p => p / (2 * i + 1) + atanhSum z2 n (i + 1) (p * z2 / 2 ^ prec)

/-- ln of a ratio a/b of at least 1 and below 2, in fixed point, truncated. -/
def lnRatio (a b : Nat) : Nat :=
  let z := (a - b) * 2 ^ prec / (a + b)
  2 * atanhSum (z * z / 2 ^ prec) 110 0 z

/-- ln 2 in fixed point, truncated. -/
def ln2 : Nat := lnRatio (2 ^ 64) (2 ^ 63)

/-- Σ y^i/i! in fixed point: `t` is y^i/i!. -/
def expSum (y : Nat) : Nat → Nat → Nat → Nat
  | 0, _, _ => 0
  | n + 1, i, t => t + expSum y n (i + 1) (t * y / 2 ^ prec / (i + 1))

/-- 2^f for a fraction f in fixed point, truncated. -/
def exp2Frac (f : Nat) : Nat := expSum (f * ln2 / 2 ^ prec) 80 0 (2 ^ prec)

/-- 2^x: exact for an integer x, else truncated with a part below; x is ±m·2^e with |x| below 2^16. -/
def exp2Dy (neg : Bool) (m : Nat) (e : Int) : Nat × Int × Bool :=
  let i := atExp neg m e (min e 0)          -- x in units of 2^(min e 0)
  let u := (-(min e 0)).toNat
  let k := i / (2 : Int) ^ u                -- floor
  let f := (i - k * 2 ^ u).toNat            -- fraction in units of 2^−u
  if f = 0 then (1, k, false) else (exp2Frac (f * 2 ^ prec / 2 ^ u), k - prec, true)

/-- log2 of a positive m·2^e as sign, truncated magnitude, exponent and sticky; exact for a power of two. -/
def log2Dy (m : Nat) (e : Int) : Bool × Nat × Int × Bool :=
  let n := bitLen m - 1
  let k := e + n
  if m = 2 ^ n then (decide (k < 0), k.natAbs, 0, false)
  else
    let l := lnRatio m (2 ^ n) * 2 ^ prec / ln2
    let z := k * 2 ^ prec + l
    if z < 0 then (true, z.natAbs - 1024, -prec, true) else (false, z.natAbs, -prec, true)

/-- FRCP, FRSQ, FEXP2 and FLOG2 (R132). -/
inductive FFun where
  | rcp | rsq | exp2 | log2
  deriving DecidableEq, Repr, Inhabited

/-- The table of R132 and the rounded value for every other FP32 input x; a NaN is quieted by R93. -/
def ffun (k : FFun) (rm : Rm) (x : Nat) : Nat × Byte :=
  let f := fp32
  match f.val x with
  | .nan s => (f.quiet x, if s then flagNV else 0#8)
  | .inf n =>
    match k with
    | .rcp => (f.withSign n 0, 0#8)
    | .rsq => if n then (f.canon, flagNV) else (f.withSign false 0, 0#8)
    | .exp2 => if n then (f.withSign false 0, 0#8) else (f.infBits false, 0#8)
    | .log2 => if n then (f.canon, flagNV) else (f.infBits false, 0#8)
  | .fin n m e =>
    match k with
    | .rcp =>
      if m = 0 then (f.infBits n, flagDZ)
      else let r := recipDy m e; f.roundFin rm n r.1 r.2.1 r.2.2
    | .rsq =>
      if m = 0 then (f.infBits n, flagDZ)
      else if n then (f.canon, flagNV)
      else let r := rsqrtDy m e; f.roundFin rm false r.1 r.2.1 r.2.2
    | .exp2 =>
      if m = 0 then (f.roundFin rm false 1 0 false)
      else if e + bitLen m > 16 then
        (if n then f.roundFin rm false 1 (-100000) true else f.roundFin rm false 1 100000 false)
      else let r := exp2Dy n m e; f.roundFin rm false r.1 r.2.1 r.2.2
    | .log2 =>
      if m = 0 then (f.infBits true, flagDZ)
      else if n then (f.canon, flagNV)
      else let r := log2Dy m e; f.roundFin rm (r.1 && decide (r.2.1 ≠ 0)) r.2.1 r.2.2.1 r.2.2.2

end Sys2Proof.Machine
end

