-- ==== Sys2Proof/Machine/FloatOps.lean ====
section
/-! DEFINITION. The meanings of the F slot: scalar floating point (R127 to R134) and SIMD (R135 to R139), with the NaN
rule of R93 and the captured words of R112. -/

namespace Sys2Proof.Machine
open Sys2Proof

/-! ### One element in an IEEE format -/

/-- The IEEE format of a scalar type code; the codes that no F-slot arithmetic accepts stand for FP32. -/
def ieeeOf : FTy → Ieee
  | .bf16 => Machine.bf16
  | .fp16 => Machine.fp16
  | .fp64 => Machine.fp64
  | .fp32 | .narrow _ | .int8 => Machine.fp32

/-- The low bits of an operand that hold an element. -/
def Ieee.low (f : Ieee) (x : Nat) : Nat := x % 2 ^ f.width

/-- R93: the first NaN operand, quieted, with NV for a signalling one; none without a NaN operand. -/
def Ieee.nanOf (f : Ieee) (xs : List Nat) : Option (Nat × Byte) :=
  (xs.find? f.isNan).map fun x => (f.quiet x, if xs.any f.isSig then flagNV else 0#8)

/-- A value that an operation has generated: a NaN is canonical with NV (R93), the rest is rounded (R90). -/
def Ieee.give (f : Ieee) (rm : Rm) (v : Val) : Nat × Byte :=
  if v.isNan then (f.canon, flagNV) else f.round rm v

/-- FADD, FSUB, FMUL and FFMA (R128) on elements. Where the product and the addend of an FFMA are both zero, the sign of
the zero is IEEE 754's and not the +0 of R109's exact_sum (log 106). -/
def Ieee.add (f : Ieee) (rm : Rm) (x y : Nat) : Nat × Byte :=
  (f.nanOf [x, y]).getD (f.give rm (Val.add (rm == .rdn) (f.val x) (f.val y)))
def Ieee.sub (f : Ieee) (rm : Rm) (x y : Nat) : Nat × Byte :=
  (f.nanOf [x, y]).getD (f.give rm (Val.add (rm == .rdn) (f.val x) (f.val y).negate))
def Ieee.mul (f : Ieee) (rm : Rm) (x y : Nat) : Nat × Byte :=
  (f.nanOf [x, y]).getD (f.give rm (Val.mul (f.val x) (f.val y)))
def Ieee.fma (f : Ieee) (rm : Rm) (x y z : Nat) : Nat × Byte :=
  (f.nanOf [x, y, z]).getD (f.give rm (Val.add (rm == .rdn) (Val.mul (f.val x) (f.val y)) (f.val z)))

/-- FMIN and FMAX (R129) on elements. -/
def Ieee.pick (f : Ieee) (max : Bool) (x y : Nat) : Nat × Byte :=
  (f.nanOf [x, y]).getD (if (f.val x).lt (f.val y) == max then y else x, 0#8)

/-- FSGN (R130) on bit patterns. -/
def Ieee.sgn (f : Ieee) (g : SgnOp) (x y : Nat) : Nat :=
  let neg := match g with
    | .copy => f.negOf y
    | .neg => !f.negOf y
    | .xor => f.negOf x != f.negOf y
  f.withSign neg (x % 2 ^ (f.width - 1))

/-- FCMP (R131): the answer and the flags. -/
def Ieee.cmp (f : Ieee) (c : FCond) (x y : Nat) : Bool × Byte :=
  let nan := f.isNan x || f.isNan y
  let sig := f.isSig x || f.isSig y
  let u := f.val x
  let v := f.val y
  match c with
  | .eq => (u.eqNum v, if sig then flagNV else 0#8)
  | .lt => (u.ltNum v, if nan then flagNV else 0#8)
  | .le => (u.ltNum v || u.eqNum v, if nan then flagNV else 0#8)
  | .un => (nan, if sig then flagNV else 0#8)

/-- nan_convert (R133): sign and leading payload bits, quiet. -/
def nanConvert (f g : Ieee) (x : Nat) : Nat :=
  let pay := f.fracOf x % 2 ^ (f.mb - 1)
  let cut := if g.mb ≥ f.mb then pay * 2 ^ (g.mb - f.mb) else pay / 2 ^ (f.mb - g.mb)
  g.withSign (f.negOf x) (g.eMax * 2 ^ g.mb + 2 ^ (g.mb - 1) + cut)

/-- FCVT of one element (R133); `r` holds the drawn bits under .srnd. -/
def convert (st dt : Fmt) (rm : Rm) (r : Option Nat) (x : Nat) : Nat × Byte :=
  let v := st.val x
  if v.isNan then
    let nv := if v.isSig then flagNV else 0#8
    match st, dt with
    | _, .narrow d =>
      let e := narrowEncode d .rne v
      (e.1, e.2 ||| nv)
    | .ieee f, .ieee g => (nanConvert f g (f.low x), nv)
    | _, .ieee g => (g.canon, nv)
    | _, .int8 => (0, nv)
  else match r with
    | some k => dt.srnd v k
    | none => dt.round rm v

/-! ### Issue -/

/-- The format that a type code names: a reissue has the descriptors captured at issue (R99), destination in the low
half. -/
def State.fmtAt (s : State) (t : FTy) (high : Bool) : Fmt :=
  match s.iss.rec_ with
  | some w => fmtOf t fun _ => w.hold.extractLsb' (if high then 32 else 0) 32
  | none => fmtOf t fun k => vget s.me.f k 0

/-- The descriptor register that a type code names; 0 for another type. -/
def State.descOf (s : State) (t : FTy) : Syl :=
  match t with
  | .narrow k => vget s.me.f k.toNat 0
  | .bf16 | .fp16 | .fp32 | .fp64 | .int8 => 0

/-- Bound of an arithmetic operation by its type (R127). -/
def fBound : FTy → Nat
  | .fp64 => 6
  | .narrow _ | .bf16 | .fp16 | .fp32 | .int8 => 4

/-- A scalar operation on A and B, recorded with both (R112, R127, R128). -/
def State.fOp2 (s : State) (d a : Reg) (b : Src) (t : FTy) (k : Ieee → Nat → Nat → Nat × Byte) : State :=
  let f := ieeeOf t
  let x := s.opA a
  let y := s.opBF b t
  let r := k f (f.low x.toNat) (f.low y.toNat)
  s.emit (s.op (fBound t) [wrS d (BitVec.ofNat 64 r.1)] r.2 (.recorded x y false))

/-- FADD (R128). -/
def execFadd (d a : Reg) (b : Src) (t : FTy) (m : Rm) (s : State) : Outcome := .next (s.fOp2 d a b t fun f => f.add m)

/-- FSUB (R128). -/
def execFsub (d a : Reg) (b : Src) (t : FTy) (m : Rm) (s : State) : Outcome := .next (s.fOp2 d a b t fun f => f.sub m)

/-- FMUL (R128). -/
def execFmul (d a : Reg) (b : Src) (t : FTy) (m : Rm) (s : State) : Outcome := .next (s.fOp2 d a b t fun f => f.mul m)

/-- FFMA (R128): completed at a stop (R112). -/
def execFfma (d a : Reg) (b : Src) (t : FTy) (m : Rm) (s : State) : Outcome :=
  let f := ieeeOf t
  let r := f.fma m (f.low (s.opA a).toNat) (f.low (s.opBF b t).toNat) (f.low (s.srcS d 2).toNat)
  .next (s.emit (s.op (fBound t) [wrS d (BitVec.ofNat 64 r.1)] r.2 .completed))

/-- FMIN (R129). -/
def execFmin (d a : Reg) (b : Src) (t : FTy) (s : State) : Outcome := .next (s.fOp2 d a b t fun f => f.pick false)

/-- FMAX (R129). -/
def execFmax (d a : Reg) (b : Src) (t : FTy) (s : State) : Outcome := .next (s.fOp2 d a b t fun f => f.pick true)

/-- FSGN (R130). -/
def execFsgn (d a : Reg) (b : Src) (t : FTy) (g : SgnOp) (s : State) : Outcome :=
  .next (s.fOp2 d a b t fun f x y => (f.sgn g x y, 0#8))

/-- FCMP (R131). -/
def execFcmp (d a : Reg) (b : Src) (t : FTy) (c : FCond) (s : State) : Outcome :=
  let f := ieeeOf t
  let x := s.opA a
  let y := s.opBF b t
  let r := f.cmp c (f.low x.toNat) (f.low y.toNat)
  .next (s.emit (s.op (fBound t) [wrP d (if r.1 then 0xFF else 0x00)] r.2 (.recorded x y false)))

/-- A function of one FP32 operand (R132). -/
def State.fFun (s : State) (d a : Reg) (k : FFun) (m : Rm) : State :=
  let x := s.opA a
  let r := ffun k m (fp32.low x.toNat)
  s.emit (s.op 8 [wrS d (BitVec.ofNat 64 r.1)] r.2 (.recorded x 0 false))

/-- FRCP (R132). -/
def execFrcp (d a : Reg) (m : Rm) (s : State) : Outcome := .next (s.fFun d a .rcp m)

/-- FRSQ (R132). -/
def execFrsq (d a : Reg) (m : Rm) (s : State) : Outcome := .next (s.fFun d a .rsq m)

/-- FEXP2 (R132). -/
def execFexp2 (d a : Reg) (m : Rm) (s : State) : Outcome := .next (s.fFun d a .exp2 m)

/-- FLOG2 (R132). -/
def execFlog2 (d a : Reg) (m : Rm) (s : State) : Outcome := .next (s.fFun d a .log2 m)

/-- FCVT (R133): under .srnd the generator is drawn once at issue (R102), and a reissue uses the recorded bits (R104). -/
def execFcvt (d a : Reg) (srnd : Bool) (st dt : FTy) (m : Rm) (s : State) : Outcome :=
  let x := s.opA a
  let draw := srndDraw s.me.rngs
  let w := match s.iss.ov with
    | some o => o.2
    | none => if srnd then draw.2.zeroExtend 64 else 0
  let s1 := match s.iss.mode with
    | .reissue => s
    | .none | .bundle | .release => if srnd then s.atEnd (.rngs draw.1) else s
  let r := convert (s.fmtAt st true) (s.fmtAt dt false) m (if srnd then some (bits w 15 0) else none) x.toNat
  .next (s1.emit { s1.op 3 [wrS d (BitVec.ofNat 64 r.1)] r.2 (.recorded x w false) with
    hold := (s.descOf st ++ s.descOf dt).zeroExtend 256 })

/-- Limits of an integer type. -/
def itMin (t : ITy) : Int := if tySigned t then -(2 ^ (tyWidth t - 1)) else 0
def itMax (t : ITy) : Int := if tySigned t then 2 ^ (tyWidth t - 1) - 1 else 2 ^ tyWidth t - 1

/-- FCVTI (R134, R108). -/
def execFcvti (d a : Reg) (i : ITy) (t : FTy) (m : Rm) (s : State) : Outcome :=
  let x := s.opA a
  let f := ieeeOf t
  let r := (f.val (f.low x.toNat)).convert m (itMin i) (itMax i)
  .next (s.emit (s.op 3 [wrS d (tyPut i r.1)] r.2 (.recorded x 0 false)))

/-- ICVTF (R134, R108). -/
def execIcvtf (d a : Reg) (i : ITy) (t : FTy) (m : Rm) (s : State) : Outcome :=
  let x := s.opA a
  let r := (ieeeOf t).round m (Val.ofInt (tyInt i x))
  .next (s.emit (s.op 3 [wrS d (BitVec.ofNat 64 r.1)] r.2 (.recorded x 0 false)))

/-! ### SIMD (R135 to R139) -/

/-- Elements of a vector, lowest first. -/
def elems (w n : Nat) (x : Vec) : List Nat := (List.range n).map fun i => (x.extractLsb' (w * i) w).toNat

/-- The vector with these elements from the lowest container on. -/
def ofElems (w : Nat) : List Nat → Nat
  | [] => 0
  | x :: r => x % 2 ^ w + 2 ^ w * ofElems w r

/-- A vector result with the flags of its elements (R136). -/
def packElems (w : Nat) (rs : List (Nat × Byte)) : Vec × Byte :=
  (BitVec.ofNat 256 (ofElems w (rs.map (·.1))), orFlags (rs.map (·.2)))

/-- A SIMD operation; every such operation is completed at a stop (R112). -/
def State.vOp (s : State) (bound : Nat) (wr : Wr) (flags : Byte) : State := s.emit (s.op bound [wr] flags .completed)

/-- An operation element by element on vA and vB. -/
def State.vMap (s : State) (d a : Reg) (b : Src) (t : FTy) (k : Ieee → Nat → Nat → Nat × Byte) : State :=
  let f := ieeeOf t
  let n := 256 / f.width
  let r := packElems f.width (List.zipWith (k f) (elems f.width n (s.srcV a 0)) (elems f.width n (s.opBV b t)))
  s.vOp 4 (wrV d r.1) r.2

/-- VADD (R136). -/
def execVadd (d a : Reg) (b : Src) (t : FTy) (m : Rm) (s : State) : Outcome := .next (s.vMap d a b t fun f => f.add m)

/-- VMUL (R136). -/
def execVmul (d a : Reg) (b : Src) (t : FTy) (m : Rm) (s : State) : Outcome := .next (s.vMap d a b t fun f => f.mul m)

/-- VFMA (R136). -/
def execVfma (d a : Reg) (b : Src) (t : FTy) (m : Rm) (s : State) : Outcome :=
  let f := ieeeOf t
  let n := 256 / f.width
  let ab := List.zip (elems f.width n (s.srcV a 0)) (elems f.width n (s.opBV b t))
  let r := packElems f.width (List.zipWith (fun p z => f.fma m p.1 p.2 z) ab (elems f.width n (s.srcV d 2)))
  .next (s.vOp 4 (wrV d r.1) r.2)

/-- Operand B of VAND, VOR, VSHF and VSEL: each lane takes BIMM (R39). -/
def State.opBL (s : State) (b : Src) : Vec :=
  match b with
  | .reg r => s.srcV r 1
  | .bimm => splat (s.iss.bimm.zeroExtend 32)

/-- VAND (R137). -/
def execVand (d a : Reg) (b : Src) (s : State) : Outcome := .next (s.vOp 4 (wrV d (s.srcV a 0 &&& s.opBL b)) 0)

/-- VOR (R137). -/
def execVor (d a : Reg) (b : Src) (s : State) : Outcome := .next (s.vOp 4 (wrV d (s.srcV a 0 ||| s.opBL b)) 0)

/-- VSHF (R137). -/
def execVshf (d a : Reg) (b : Src) (s : State) : Outcome :=
  let x := s.srcV a 0
  let y := s.opBL b
  .next (s.vOp 4 (wrV d (ofLanes fun i => lane x ((lane y i).toNat % 8))) 0)

/-- VBCAST (R137). -/
def execVbcast (d a : Reg) (s : State) : Outcome := .next (s.vOp 4 (wrV d (splat ((s.srcS a 0).truncate 32))) 0)

/-- VSEL (R137). -/
def execVsel (d a : Reg) (b : Src) (p : Reg) (s : State) : Outcome :=
  let x := s.srcV a 0
  let y := s.opBL b
  let q := s.srcP p 2
  .next (s.vOp 4 (wrV d (ofLanes fun i => if q.getLsbD i then lane x i else lane y i)) 0)

/-- VLANE (R137). -/
def execVlane (d a : Reg) (b : Src) (s : State) : Outcome :=
  .next (s.vOp 4 (wrS d ((lane (s.srcV a 0) ((s.opBN b).toNat % 8)).zeroExtend 64)) 0)

/-- VINS (R137). -/
def execVins (d a : Reg) (b : Src) (s : State) : Outcome :=
  let x := s.srcV d 2
  let k := (s.opBN b).toNat % 8
  let y : BitVec 32 := (s.srcS a 0).truncate 32
  .next (s.vOp 4 (wrV d (ofLanes fun i => if i = k then y else lane x i)) 0)

/-- One level of the pairwise tree (R138): neighbours combined, left operand first. -/
def pairUp (k : Nat → Nat → Nat × Byte) : List Nat → List Nat × Byte
  | x :: y :: r =>
    let z := k x y
    let q := pairUp k r
    (z.1 :: q.1, z.2 ||| q.2)
  | l => (l, 0#8)

/-- The tree over 2^n elements. -/
def reduceTree (k : Nat → Nat → Nat × Byte) : Nat → List Nat → Nat × Byte
  | 0, l => (l.headD 0, 0#8)
  | n + 1, l =>
    let p := pairUp k l
    let q := reduceTree k n p.1
    (q.1, p.2 ||| q.2)

/-- VREDADD and VREDMAX (R138). -/
def State.vReduce (s : State) (d a : Reg) (t : FTy) (k : Ieee → Nat → Nat → Nat × Byte) : State :=
  let f := ieeeOf t
  let n := 256 / f.width
  let r := reduceTree (k f) (if n = 8 then 3 else 4) (elems f.width n (s.srcV a 0))
  s.vOp 6 (wrS d (BitVec.ofNat 64 r.1)) r.2

/-- VREDADD (R138). -/
def execVredadd (d a : Reg) (t : FTy) (m : Rm) (s : State) : Outcome := .next (s.vReduce d a t fun f => f.add m)

/-- VREDMAX (R138). -/
def execVredmax (d a : Reg) (t : FTy) (s : State) : Outcome := .next (s.vReduce d a t fun f => f.pick true)

/-- VPACK (R139). -/
def execVpack (d a : Reg) (b : Src) (t : FTy) (m : Rm) (s : State) : Outcome :=
  let g := s.fmtAt t false
  let xs := elems 32 8 (s.srcV a 0) ++ elems 32 8 (s.opBV b .fp32)
  let r := packElems g.cont (xs.map (convert (.ieee fp32) g m none))
  .next (s.vOp 3 (wrV d r.1) r.2)

/-- VUNPK (R139). -/
def execVunpk (d a : Reg) (t : FTy) (k : BitVec 2) (s : State) : Outcome :=
  let g := s.fmtAt t false
  let xs := ((elems g.cont (256 / g.cont) (s.srcV a 0)).drop (8 * k.toNat)).take 8
  let r := packElems 32 (xs.map (convert g (.ieee fp32) .rne none))
  .next (s.vOp 3 (wrV d r.1) r.2)

end Sys2Proof.Machine
end

