-- ==== Sys2Proof/Machine/Arith.lean ====
section
/-! DEFINITION. The arithmetic of the engines: containers (R96, R184), the block sum of the matrix array (R163, R165 to
R167), the procedures of the vector engine (R169 to R171), loop nests (R189, R244), and the exact sum of the collective
engine (R194). NaN results are canonical (R94). -/

namespace Sys2Proof.Machine
open Sys2Proof

/-! ### Containers -/

/-- Container x of c bits from a byte on; a 4-bit container at odd x lies in bits 7:4. -/
def contAt (m : Mem) (base c x : Nat) : Nat :=
  if c = 4 then (m.get (base + x / 2)).toNat / (if x % 2 = 1 then 16 else 1) % 16
  else leNat (m.read (base + x * (c / 8)) (c / 8))

/-- The memory with container x written. -/
def putCont (m : Mem) (base c x v : Nat) : Mem :=
  if c = 4 then
    let old := (m.get (base + x / 2)).toNat
    m.set (base + x / 2) (BitVec.ofNat 8 (if x % 2 = 1 then old % 16 + v % 16 * 16 else old / 16 * 16 + v % 16))
  else m.write (base + x * (c / 8)) (leBytes (c / 8) v)

/-- Bytes that n containers of c bits take. -/
def contBytes (n c : Nat) : Nat := (n * c + 7) / 8

/-! ### The matrix array -/

/-- Accumulator types (R163). -/
inductive AccTy where
  | f32 | f64 | i32
  deriving DecidableEq, Repr, Inhabited

/-- The accumulator of an operand type. -/
def accOf : FTy → AccTy
  | .fp64 => .f64
  | .int8 => .i32
  | .narrow _ | .bf16 | .fp16 | .fp32 => .f32

/-- Block size along K (R163). -/
def blockOf : FTy → Nat
  | .fp64 => 4
  | .narrow _ | .bf16 | .fp16 | .fp32 | .int8 => 32

/-- Are scales applied (R163)? -/
def scaled : FTy → Bool
  | .narrow _ => true
  | .bf16 | .fp16 | .fp32 | .fp64 | .int8 => false

/-- What one pair adds to its block (R165, R166): none, or its product, with NV where it is due (R167). -/
def pairTerm (a b : Val) (ba bb : Bool) : Option Val × Bool :=
  if ba && bb then
    let p := Val.mul a b
    (some p, a.isSig || b.isSig || (p.isNan && !a.isNan && !b.isNan))
  else if ba || bb then
    let x := if ba then a else b
    if x.isNan || x.isInf then (some (.nan false), x.isSig || x.isInf) else (none, false)
  else (none, false)

/-- Do infinities of both signs occur (R167, R194)? -/
def opposed (l : List Val) : Bool := l.any (fun v => v.isInf && v.neg) && l.any (fun v => v.isInf && !v.neg)

/-- The value of one block before it is accumulated (R166): exact, with NV where it is due. -/
def blockSum (terms : List (Option Val × Bool)) (sa sb : Nat) : Val × Bool :=
  let p := terms.filterMap (·.1)
  let nv := terms.any (·.2) || opposed p
  match scaleExp sa, scaleExp sb with
  | some x, some y => ((exactSum p).scale (x + y), nv)
  | _, _ => (.nan false, true)

/-- The integer that an exact integral value is. -/
def Val.int (v : Val) : Int :=
  match v with
  | .fin n m e => atExp n m e 0
  | .nan _ | .inf _ => 0

/-- One block accumulated into a floating cell (R166, R167): a cell that holds a signalling NaN is one such input (R94). -/
def accFloat (f : Ieee) (acc : Nat) (v : Val) : Nat × Byte :=
  let a := f.val acc
  let opp := a.isInf && v.isInf && (a.neg != v.neg)
  let r := f.round .rne (exactSum [a, v])
  (r.1, r.2 ||| (if opp || f.isSig acc then flagNV else 0#8))

/-- One block accumulated into an INT32 cell (R166). -/
def accInt (acc : BitVec 32) (v : Val) : BitVec 32 × Byte :=
  let t := acc.toInt + v.int
  let c := if t > 2147483647 then 2147483647 else if t < -2147483648 then -2147483648 else t
  (BitVec.ofInt 32 c, if c = t then 0#8 else flagSA)

/-- One block accumulated into the bits of a cell (a pair of cells for FP64). -/
def accStep (ty : AccTy) (acc : Nat) (v : Val) : Nat × Byte :=
  match ty with
  | .f32 => accFloat fp32 acc v
  | .f64 => accFloat fp64 acc v
  | .i32 =>
    let r := accInt (BitVec.ofNat 32 acc) v
    (r.1.toNat, r.2)

/-- The blocks of one cell in order (R166): `blk b` gives the terms and the scale codes of block b. -/
def accBlocks (ty : AccTy) (blk : Nat → List (Option Val × Bool) × Nat × Nat) : Nat → Nat → Nat → Nat × Byte
  | 0, _, acc => (acc, 0#8)
  | n + 1, b, acc =>
    let x := blk b
    let s := blockSum x.1 x.2.1 x.2.2
    let r := accStep ty acc s.1
    let q := accBlocks ty blk n (b + 1) r.1
    (q.1, r.2 ||| (if s.2 then flagNV else 0#8) ||| q.2)

/-! ### The vector engine -/

/-- A result of the vector engine: canonical NaN, with NV where it is generated or an input signals (R94). A NaN beside a
quiet NaN input counts as no generated one, also where the product of an ffma is 0·∞ (R91 and R94 leave that open; log 107). -/
def Ieee.eng (f : Ieee) (xs : List Nat) (v : Val) : Nat × Byte :=
  if v.isNan then (f.canon, if xs.any f.isSig || !(xs.any f.isNan) then flagNV else 0#8) else f.round .rne v

/-- fadd, fsub, fmul and ffma of R169. -/
def veAdd (x y : Nat) : Nat × Byte := fp32.eng [x, y] (Val.add false (fp32.val x) (fp32.val y))
def veSub (x y : Nat) : Nat × Byte := fp32.eng [x, y] (Val.add false (fp32.val x) (fp32.val y).negate)
def veMul (x y : Nat) : Nat × Byte := fp32.eng [x, y] (Val.mul (fp32.val x) (fp32.val y))
def veFma (x y z : Nat) : Nat × Byte :=
  fp32.eng [x, y, z] (Val.add false (Val.mul (fp32.val x) (fp32.val y)) (fp32.val z))

/-- fmul and ffma whose first operand is an exact number, not rounded to FP32 (R171). -/
def veMulAt (x : Val) (y : Nat) : Nat × Byte := fp32.eng [y] (Val.mul x (fp32.val y))
def veFmaAt (x : Val) (y z : Nat) : Nat × Byte := fp32.eng [y, z] (Val.add false (Val.mul x (fp32.val y)) (fp32.val z))

/-- Greater or lesser by the order of R129; NaN results are canonical. -/
def vePick (max : Bool) (x y : Nat) : Nat × Byte :=
  if fp32.isNan x || fp32.isNan y then (fp32.canon, if fp32.isSig x || fp32.isSig y then flagNV else 0#8)
  else (if (fp32.val x).lt (fp32.val y) == max then y else x, 0#8)

/-- A step whose flags are ORed to those so far. -/
def andThen (p : Nat × Byte) (k : Nat → Nat × Byte) : Nat × Byte :=
  let q := k p.1
  (q.1, p.2 ||| q.2)

/-- FP32 of an exact value that is representable. -/
def f32 (neg : Bool) (m : Nat) (e : Int) : Nat := (fp32.roundFin .rne neg m e false).1

/-- T, RT, LG and RS of R171: exact values rounded once. -/
def tabT (j : Nat) : Nat := let r := exp2Dy false j (-6); (fp32.roundFin .rne false r.1 r.2.1 r.2.2).1
def tabRT (j : Nat) : Nat := let r := recipDy (128 + 2 * j + 1) (-7); (fp32.roundFin .rne false r.1 r.2.1 r.2.2).1
def tabLG (j : Nat) : Nat :=
  let r := log2Dy (128 + 2 * j + 1) (-7)
  (fp32.roundFin .rne r.1 r.2.1 r.2.2.1 r.2.2.2).1
def tabRS (j : Nat) : Nat :=
  let r := rsqrtDy (64 + 2 * (j % 32) + 1) ((j / 32 : Nat) - 6)
  (fp32.roundFin .rne false r.1 r.2.1 r.2.2).1

/-- A result scaled by 2^n, rounded once. -/
def veScale (p : Nat × Byte) (n : Int) : Nat × Byte :=
  let r := fp32.round .rne ((fp32.val p.1).scale n)
  (r.1, p.2 ||| r.2)

/-- A NaN input: canonical, with NV where it signals. -/
def veNan (x : Nat) : Nat × Byte := (fp32.canon, if fp32.isSig x then flagNV else 0#8)

/-- |x| as significand of 24 bits (1 ≤ m < 2, in units of 2^−23) and exponent. -/
def norm32 (m : Nat) (e : Int) : Nat × Int :=
  let k := bitLen m
  (m * 2 ^ (24 - k), e + k - 1)

/-- ve_exp2 (R171). -/
def veExp2 (x : Nat) : Nat × Byte :=
  match fp32.val x with
  | .nan _ => veNan x
  | .inf neg => (if neg then 0 else fp32.infBits false, 0#8)
  | .fin neg m e =>
    if !neg && decide (m ≠ 0) && decide (e + bitLen m > 7) then (fp32.infBits false, flagOF ||| flagNX)
    else if neg && dyLe 150 0 m e && !dyEq 150 0 m e then (0, flagUF ||| flagNX)
    else
      let q := min e (-6)
      let i := atExp neg m e q                     -- x in units of 2^q
      let u := (-6 - q).toNat
      let k := i / (2 : Int) ^ u                   -- floor(x · 64)
      let n := k / 64
      let j := (k % 64).toNat
      let r := Val.fin false (i - k * 2 ^ u).toNat q   -- exact
      let p := andThen (veFmaAt r 0x3D635847 0x3E75FDF0) fun p => andThen (veFmaAt r p 0x3F317218) fun p => veMulAt r p
      veScale (andThen p fun p => veFma (tabT j) p (tabT j)) n

/-- ve_exp (R171). -/
def veExp (x : Nat) : Nat × Byte := andThen (veMul x 0x3FB8AA3B) veExp2

/-- FP32 of an integer of at most 24 bits. -/
def f32Int (i : Int) : Nat := f32 (decide (i < 0)) i.natAbs 0

/-- ve_log2 (R171). -/
def veLog2 (x : Nat) : Nat × Byte :=
  match fp32.val x with
  | .nan _ => veNan x
  | .inf neg => if neg then (fp32.canon, flagNV) else (fp32.infBits false, 0#8)
  | .fin neg m e =>
    if m = 0 then (fp32.infBits true, flagDZ)
    else if neg then (fp32.canon, flagNV)
    else
      let z := norm32 m e
      if z.1 = 2 ^ 23 then (f32Int z.2, 0#8)
      else
        let j := z.1 / 2 ^ 17 % 64
        let t := veFma (f32 false z.1 (-23)) (tabRT j) 0xBF800000
        let q := fun (t : Nat) => andThen (veFma t 0x3EF6384E 0xBF38AA3B) fun q =>
          andThen (veFma t q 0x3FB8AA3B) fun q => veMul t q
        andThen (andThen t q) fun q => andThen (veAdd (tabLG j) q) fun y => veAdd (f32Int z.2) y

/-- ve_rcp (R171). -/
def veRcp (x : Nat) : Nat × Byte :=
  match fp32.val x with
  | .nan _ => veNan x
  | .inf neg => (fp32.withSign neg 0, 0#8)
  | .fin neg m e =>
    if m = 0 then (fp32.infBits neg, flagDZ)
    else
      let z := norm32 m e
      let j := z.1 / 2 ^ 17 % 64
      let nm := f32 true z.1 (-23)
      let it := fun (y : Nat) => andThen (veFma nm y 0x3F800000) fun d => veFma y d y
      let y := andThen (it (tabRT j)) it
      let r := veScale y (-z.2)
      (fp32.withSign neg (r.1 % 2 ^ 31), r.2)

/-- ve_rsqrt (R171). -/
def veRsqrt (x : Nat) : Nat × Byte :=
  match fp32.val x with
  | .nan _ => veNan x
  | .inf neg => if neg then (fp32.canon, flagNV) else (0, 0#8)
  | .fin neg m e =>
    if m = 0 then (fp32.infBits neg, flagDZ)
    else if neg then (fp32.canon, flagNV)
    else
      let z := norm32 m e
      let odd := (z.2 % 2).toNat
      let m1 := f32 false z.1 (odd - 23)
      let e1 := z.2 - odd
      let j := odd * 32 + z.1 / 2 ^ 18 % 32
      let it := fun (y : Nat) => andThen (veMul y y) fun t => andThen (veMul m1 t) fun t =>
        andThen (veMul t 0x3F000000) fun t => andThen (veSub 0x3FC00000 t) fun u => veMul y u
      veScale (andThen (it (tabRS j)) it) (-(e1 / 2))

/-- An element decoded to FP32 (R169): a NaN is canonical, with NV where it signals. -/
def veIn (f : Fmt) (x : Nat) : Nat × Byte :=
  let v := f.val x
  if v.isNan then (fp32.canon, if v.isSig then flagNV else 0#8) else (fp32.round .rne v)

/-- An FP32 result encoded once (R169). -/
def veOut (g : Fmt) (x : Nat) : Nat × Byte := convert (.ieee fp32) g .rne none x

/-- The element-wise codes of R190 on decoded x and y, with the scalar s. -/
def veFun (o : VOp) (x y s : Nat) : Nat × Byte :=
  match o with
  | .copy | .srnd | .rsum | .rmax => (x, 0#8)
  | .add => veAdd x y
  | .sub => veSub x y
  | .mul => veMul x y
  | .axpy => veFma x s y
  | .max => vePick true x y
  | .min => vePick false x y
  | .scale => veMul x s
  | .relu => vePick true x 0
  | .exp2 => veExp2 x
  | .exp => veExp x
  | .log2 => veLog2 x
  | .rcp => veRcp x
  | .rsqrt => veRsqrt x

/-- Does a code read Y (R190)? -/
def readsY : VOp → Bool
  | .add | .sub | .mul | .axpy | .max | .min => true
  | .copy | .scale | .relu | .exp2 | .exp | .log2 | .rcp | .rsqrt | .rsum | .rmax | .srnd => false

/-- Is a code a reduction? -/
def reduces : VOp → Bool
  | .rsum | .rmax => true
  | .copy | .add | .sub | .mul | .axpy | .max | .min | .scale | .relu | .exp2 | .exp | .log2 | .rcp | .rsqrt | .srnd => false

/-- The tree of R170; `fuel` is at least the number of levels. -/
def veTree (k : Nat → Nat → Nat × Byte) : Nat → List Nat → Nat × Byte
  | 0, l => (l.headD 0, 0#8)
  | n + 1, l =>
    if l.length ≤ 1 then (l.headD 0, 0#8)
    else
      let p := pairUp k l
      let q := veTree k n p.1
      (q.1, p.2 ||| q.2)

/-! ### Nests (R189, R244) -/

/-- Counts of the six levels. -/
def nestCounts (w : Word) : List Nat := (List.range 6).map fun j => bits w (10 * j + 9) (10 * j) + 1

/-- The six strides in two registers. -/
def nestStrides (w0 w1 : Word) : List Int :=
  [(w0.extractLsb' 0 21).toInt, (w0.extractLsb' 21 21).toInt, (w0.extractLsb' 42 21).toInt,
    (w1.extractLsb' 0 21).toInt, (w1.extractLsb' 21 21).toInt, (w1.extractLsb' 42 21).toInt]

/-- Elements of a nest. -/
def nestSize : List Nat → Nat
  | [] => 1
  | c :: r => c * nestSize r

/-- Offset of element t of a nest, level 0 fastest. -/
def nestOff : List Nat → List Int → Nat → Int
  | c :: cs, s :: ss, t => (t % c : Nat) * s + nestOff cs ss (t / c)
  | _, _, _ => 0

/-- Lowest and highest offset of a nest. -/
def nestSpan : List Nat → List Int → Int × Int
  | c :: cs, s :: ss =>
    let r := nestSpan cs ss
    let x := ((c - 1 : Nat) : Int) * s
    (r.1 + min x 0, r.2 + max x 0)
  | _, _ => (0, 0)

/-- The state of a generator after n draws (R191). -/
def drawMany : Nat → Word → Word
  | 0, x => x
  | n + 1, x => drawMany n (srndDraw x).1

/-! ### The collective engine (R194) -/

/-- floor(log2 |v|) of a nonzero value. -/
def Val.top (v : Val) : Int :=
  match v with
  | .fin _ m e => e + bitLen m - 1
  | .nan _ | .inf _ => 0

/-- trunc(v · 2^k), and whether nonzero bits were dropped. -/
def Val.truncTo (v : Val) (k : Int) : Int × Bool :=
  match v with
  | .fin n m e =>
    let x := if e + k ≥ 0 then m * 2 ^ (e + k).toNat else m / 2 ^ (-(e + k)).toNat
    let lost := decide (e + k < 0) && decide (m % 2 ^ (-(e + k)).toNat ≠ 0)
    (if n then -(x : Int) else x, lost)
  | .nan _ | .inf _ => (0, false)

/-- The greatest of some anchors. -/
def maxInt : List Int → Int
  | [] => 0
  | [x] => x
  | x :: r => max x (maxInt r)

/-- coll_exact_sum (R194); `nv` tells of a signalling NaN or a NaN scale among the values. -/
def collSum (out : Ieee) (vs : List Val) (nv : Bool) : Nat × Byte :=
  let f := if nv then flagNV else 0#8
  if opposed vs then (out.canon, flagNV)
  else if vs.any (·.isNan) then (out.canon, f)
  else match vs.find? (·.isInf) with
    | some v => (out.infBits v.neg, f)
    | none =>
      let nz := vs.filter fun v => !v.isZero
      if nz.isEmpty then (out.withSign false 0, f)
      else
        let e := maxInt (nz.map (·.top))
        let ts := nz.map fun v => v.truncTo (160 - e)
        let s : Int := (ts.map (·.1)).foldl (fun (a b : Int) => a + b) 0
        let lost := if ts.any (·.2) then flagNX else 0#8
        if s = 0 then (out.withSign false 0, f ||| lost)
        else
          let r := out.round .rne (.fin (decide (s < 0)) s.natAbs (e - 160))
          (r.1, r.2 ||| f ||| lost)

/-- The greatest of some values by R129's order, NaN canonical, with NV where one signals (R193). -/
def collMax (f : Ieee) (xs : List Nat) : Nat × Byte :=
  if xs.any f.isNan then (f.canon, if xs.any f.isSig then flagNV else 0#8)
  else match xs with
    | [] => (0, 0#8)
    | x :: r => (r.foldl (fun a b => if (f.val a).lt (f.val b) then b else a) x, 0#8)

end Sys2Proof.Machine
end

