-- ==== Sys2Proof/Machine/Engine.lean ====
section
/-! DEFINITION. Engine registers and captured commands (R173 to R183), the matrix lease (R158 to R160), and the matrix
array, gather unit and vector engine (R184 to R191). A command's effect takes place when it completes (log 10). -/

namespace Sys2Proof.Machine
open Sys2Proof

/-! ### Engine registers -/

/-- Registers of an engine that ERW writes (R174): those its map names, without the read-only ones. -/
def erWritable (e n : Nat) : Bool :=
  match e with
  | 0 => decide (n ≤ 12)
  | 1 => decide (n ≤ 2)
  | 2 => decide (n ≤ 12)
  | 3 => decide (n ≤ 8)
  | 4 => decide (n ≤ 6)
  | 8 => decide (n ≤ 3)
  | 9 => decide (n ≤ 3)
  | _ => false

/-- ERW (R175): both writes are made at the end of the bundle. -/
def execErw (e : BitVec 4) (a : Reg) (b : Src) (n : Reg) (s : State) : Outcome :=
  .next ((s.atEnd (.erw e.toNat n.toNat (s.opA a))).atEnd (.erw e.toNat (n.toNat + 1) (s.opB b)))

/-- ERD (R176). A reissue writes the value that was read. Reserved bits that a write has set read as they stand, which is the
model's choice between R176 and R8 (log 126). -/
def execErd (e : BitVec 4) (a : Reg) (n : Reg) (s : State) : Outcome :=
  let v := match s.iss.mode, s.iss.ov with
    | .reissue, some o => o.1
    | _, _ => s.me.er e.toNat n.toNat
  .next (s.emit (s.op 4 [wrS a v] 0 (.recorded v 0 false)))

/-! ### Captured commands -/

def Cmd.reg (c : Cmd) (i : Nat) : Word := c.regs.getD i 0

/-- The format that a type code names, by the captured descriptors (R99). -/
def Cmd.fmt (c : Cmd) (t : FTy) : Fmt := fmtOf t fun k => c.fmts.getD k 0

/-- Container width of a type. -/
def Cmd.cont (c : Cmd) (t : FTy) : Nat := (c.fmt t).cont

/-- What a command of engine e captures (R177), its number aside. -/
def State.capture (s : State) (e : Nat) (i : Instr) : Cmd where
  instr := i
  g := s.cur
  eng := e
  n := 0
  regs := (List.range 16).map fun k => s.me.er e k
  fmts := s.me.f.toList
  qa := s.srcQ (bits (s.me.er 0 6) 7 4) 4
  qb := s.srcQ (bits (s.me.er 0 6) 11 8) 5
  win := s.me.win.toList
  world := s.me.world
  ins := []
  outs := []
  taint := []
  rng := 0
  aux := []
  tenure := 0
  at_ := s.fresh

/-- The scratchpad range of n bytes at an engine pointer (R199, R201): tag 0x1, below S. -/
def State.spdRange (s : State) (g : Nat) (p : Word) (n : Nat) : Option (Nat × Nat) :=
  if tagOf p = 1 && decide (bits p 59 0 + n ≤ (s.sizes g).1) then some (rng (bits p 59 0) n) else none

/-- The ranges of some tiles: none where one of them is not accepted. -/
def State.tiles (s : State) (g : Nat) : List (Word × Nat) → Option (List (Nat × Nat))
  | [] => some []
  | t :: r => match s.spdRange g t.1 t.2, s.tiles g r with
    | some x, some y => some (x :: y)
    | _, _ => none

/-- A numbered command takes its entry in the table (R180). -/
def State.enter (s : State) (c : Cmd) : State :=
  let k := s.core (coreOf c.g)
  s.setCore (coreOf c.g) { k with tdt := k.tdt ++ [⟨c, false⟩] }

/-- A captured command takes its number and its entry in the table (R178, R180), behind the memory operations before it
(R264). -/
def State.enqueue (s : State) (c : Cmd) : State :=
  s.issueCmd c.eng (.submit c) (fun _ => false) fun t n => t.enter { c with n := n }

/-- A command with these tiles as inputs and outputs: refused where one is not accepted (R179). -/
def State.submit (s : State) (c : Cmd) (ok : Bool) (ins outs : List (Word × Nat)) : State :=
  if !ok then s.refuse c.eng
  else match s.tiles s.cur ins, s.tiles s.cur outs with
    | some i, some o => s.enqueue { c with ins := i, outs := o }
    | _, _ => s.refuse c.eng

/-! ### Geometry of the matrix commands (R184) -/

def Cmd.rows (c : Cmd) : Nat := bits (c.reg 4) 6 0 + 1
def Cmd.cols (c : Cmd) : Nat := bits (c.reg 4) 14 8 + 1
def Cmd.asrc (c : Cmd) : Bool := bit (c.reg 4) 15
def Cmd.depth (c : Cmd) : Nat := bits (c.reg 4) 31 16
def Cmd.row0 (c : Cmd) : Nat := bits (c.reg 5) 9 0
def Cmd.col0 (c : Cmd) : Nat := bits (c.reg 5) 22 16
def Cmd.smode (c : Cmd) : Bool := bit (c.reg 6) 0

/-- Are the reserved bits of GEOM and ACCO 0 (R179)? -/
def Cmd.geomOk (c : Cmd) : Bool :=
  !bit (c.reg 4) 7 && decide (bits (c.reg 4) 63 32 = 0) && decide (bits (c.reg 5) 15 10 = 0) &&
    decide (bits (c.reg 5) 63 23 = 0)

/-- Are the upper halves of a stride register 0? -/
def Cmd.strOk (c : Cmd) (i : Nat) : Bool := decide (bits (c.reg i) 63 32 = 0)

/-- Blocks along K. -/
def Cmd.blocks (c : Cmd) (ta : FTy) : Nat := (c.depth + blockOf ta - 1) / blockOf ta

/-- Does a command read scale tiles? -/
def Cmd.scaleTiles (c : Cmd) (ta : FTy) : Bool := scaled ta && c.smode

/-- The tiles that an MMA or MMAS reads (R184, R186). -/
def Cmd.mmaTiles (c : Cmd) (ta tb : FTy) (sparse : Bool) : List (Word × Nat) :=
  let k := c.depth
  (if c.asrc then [] else [(c.reg 0, (c.rows - 1) * bits (c.reg 1) 31 0 + contBytes k (c.cont ta))]) ++
  [(c.reg 2, (c.cols - 1) * bits (c.reg 3) 31 0 + contBytes k (c.cont tb))] ++
  (if c.scaleTiles ta then [(c.reg 7, c.rows * c.blocks ta), (c.reg 8, c.cols * c.blocks ta)] else []) ++
  (if sparse then [(c.reg 9, c.rows * ((k + 7) / 8)), (c.reg 10, c.cols * ((k + 7) / 8))] else [])

/-- The register values that an MMA or MMAS accepts (R184, R186). -/
def Cmd.mmaOk (c : Cmd) (ta : FTy) : Bool :=
  c.geomOk && c.strOk 1 && c.strOk 3 && decide (bits (c.reg 6) 3 1 = 0) && decide (bits (c.reg 6) 63 12 = 0) &&
    decide (c.depth ≠ 0) && !(accOf ta == .f64 && decide (c.cols > 64)) &&
    !(c.asrc && decide (contBytes c.depth (c.cont ta) > 256))

/-- The tile of an ACCRD or ACCWR of type t. -/
def Cmd.accTile (c : Cmd) (t : FTy) : Word × Nat :=
  (c.reg 11, (c.rows - 1) * bits (c.reg 12) 31 0 + contBytes c.cols (c.cont t))

/-- The register values that an ACCRD or ACCWR accepts (R188). A K of 0 is accepted: R188 has these two use no K, although
GEOM's map (R184) says that 0 is refused (log 108). -/
def Cmd.accOk (c : Cmd) (t : FTy) : Bool := c.geomOk && c.strOk 12 && !(t == .fp64 && decide (c.cols > 64))

/-! ### Issue of the commands -/

/-- MLEASE (R185): it takes its entry and completes when the matrix queue accepts it. -/
def execMlease (s : State) : Outcome := .next (s.enqueue (s.capture 0 .mlease))

/-- Does a context hold its cluster's lease? -/
def State.holds (s : State) (g : Nat) : Bool := decide ((s.cl (clusterOf g)).holder = some g)

/-- An MFREE as command n: without the lease it has no effect, and completes at once. -/
def State.runMfree (s : State) (c : Cmd) (n : Word) : State :=
  if s.holds c.g then s.enter { c with n := n } else s.complete c.g 0 n

/-- MFREE (R185). -/
def execMfree (s : State) : Outcome :=
  let c := s.capture 0 .mfree
  .next (s.issueCmd 0 (.submit c) (fun _ => false) fun t n => t.runMfree c n)

/-- MMA (R186). -/
def execMma (x y : FTy) (s : State) : Outcome :=
  let c := s.capture 0 (.mma x y)
  .next (s.submit c (c.mmaOk x) (c.mmaTiles x y false) [])

/-- MMAS (R186). -/
def execMmas (x y : FTy) (s : State) : Outcome :=
  let c := s.capture 0 (.mmas x y)
  .next (s.submit c (c.mmaOk x) (c.mmaTiles x y true) [])

/-- Rows and bytes per row of an MGATH (R187). -/
def Cmd.gRows (c : Cmd) : Nat := bits (c.reg 2) 6 0 + 1
def Cmd.gLen (c : Cmd) : Nat := bits (c.reg 2) 15 8 + 1

/-- The source pointers of an MGATH, by the index list as it stands in a scratchpad. -/
def Cmd.gSources (c : Cmd) (m : Mem) : List (Word × Nat) :=
  (List.range c.gRows).map fun r =>
    (c.reg 1 + BitVec.ofNat 64 (leNat (m.read (bits (c.reg 0) 59 0 + 4 * r) 4)), c.gLen)

/-- The ranges of an MGATH whose index list is not known yet: the list, and the whole of the space its rows may lie in. -/
def State.gathWhole (s : State) (c : Cmd) : List (Nat × Nat) :=
  (s.spdRange c.g (c.reg 0) (4 * c.gRows)).toList ++ [(0, (s.sizes c.g).1 - 1)]

/-- An MGATH as command n (R187), captured once the operations before it are performed: where an earlier command still
writes the index list, the whole layout counts as its source until the list is read. A source row out of bounds refuses
it. -/
def State.runMgath (s : State) (c : Cmd) (n : Word) : State :=
  let g := c.g
  match s.spdRange g (c.reg 0) (4 * c.gRows) with
  | none => s.refuseCmd g 1 n
  | some r =>
    if (s.core (coreOf g)).tdt.any fun e => e.cmd.g == g && e.cmd.outs.any (meets r) then
      s.enter { c with n := n, ins := s.gathWhole c }
    else match s.tiles g (c.gSources (s.cl (clusterOf g)).spad) with
      | none => s.refuseCmd g 1 n
      | some rs => s.enter { c with n := n, ins := r :: rs }

/-- The register values that an MGATH accepts (R187). -/
def Cmd.gathOk (c : Cmd) (t : FTy) : Bool :=
  decide (bits (c.reg 2) 63 16 = 0) && !bit (c.reg 2) 7 && decide (c.gLen * 8 % c.cont t = 0) && decide (tagOf (c.reg 1) = 1)

/-- MGATH (R187). -/
def execMgath (t : FTy) (s : State) : Outcome :=
  let c := s.capture 1 (.mgath t)
  if c.gathOk t && (s.spdRange s.cur (c.reg 0) (4 * c.gRows)).isSome then
    .next (s.issueCmd 1 (.submit { c with ins := s.gathWhole c }) (fun _ => false) fun u n => u.runMgath c n)
  else .next (s.refuse 1)

/-- ACCRD (R188). -/
def execAccrd (t : FTy) (s : State) : Outcome :=
  let c := s.capture 0 (.accrd t)
  .next (s.submit c (c.accOk t) [] [c.accTile t])

/-- ACCWR (R188). -/
def execAccwr (t : FTy) (s : State) : Outcome :=
  let c := s.capture 0 (.accwr t)
  .next (s.submit c (c.accOk t) [c.accTile t] [])

/-- ACCZ (R188). -/
def execAccz (s : State) : Outcome :=
  let c := s.capture 0 .accz
  .next (s.submit c c.geomOk [] [])

/-! ### VECOP (R189 to R191) -/

/-- A type code of VCTL: 0x0 to 0xA. -/
def vecTy (n : Nat) : Option FTy :=
  match ftyOf (BitVec.ofNat 4 n) with
  | some (.narrow k) => some (.narrow k)
  | some .bf16 => some .bf16
  | some .fp16 => some .fp16
  | some .fp32 => some .fp32
  | _ => none

/-- Byte offset of container o of c bits, rounded down. -/
def contOff (o : Int) (c : Nat) : Int := o * c / 8

/-- A tile of a nest as its pointer and length, where it starts at or above the space's first byte: base, offsets from
`lo` to `hi`, container c. -/
def nestTile (base : Word) (lo hi : Int) (c : Nat) : Option (Word × Nat) :=
  let a : Int := (bits base 59 0 : Nat) + contOff lo c
  let z : Int := (bits base 59 0 : Nat) + contOff hi c + (max c 8 / 8 : Nat) - 1
  if a < 0 then none
  else some (BitVec.ofNat 64 (tagOf base * 2 ^ 60 + a.toNat), (z - a + 1).toNat)

/-- Reduced levels of a VECOP. -/
def Cmd.red (c : Cmd) : Nat := bits (c.reg 10) 14 12

/-- Counts and strides with the lowest r levels taken away from Z (R190). -/
def Cmd.zCounts (c : Cmd) : List Nat := (nestCounts (c.reg 0)).drop c.red
def Cmd.zStrides (c : Cmd) : List Int := (nestStrides (c.reg 8) (c.reg 9)).drop c.red

/-- The stride registers' reserved bits, and those of COUNTS, VCTL and VIMM. -/
def Cmd.vecReserved (c : Cmd) (y : Bool) : Bool :=
  decide (bits (c.reg 0) 63 60 = 0) && decide (bits (c.reg 10) 63 15 = 0) && decide (bits (c.reg 11) 63 32 = 0) &&
    [2, 3, 8, 9].all (fun i => !bit (c.reg i) 63) && (!y || [5, 6].all fun i => !bit (c.reg i) 63)

/-- The tiles of a VECOP: inputs and outputs, where its registers are accepted. -/
def Cmd.vecTiles (c : Cmd) (o : VOp) : Option (List (Word × Nat) × List (Word × Nat)) :=
  let y := readsY o
  let r := c.red
  let rOk := if reduces o then decide (1 ≤ r) && decide (r ≤ 6) else decide (r = 0)
  match vecTy (bits (c.reg 10) 3 0), vecTy (bits (c.reg 10) 7 4), vecTy (bits (c.reg 10) 11 8) with
  | some tx, some ty, some tz =>
    let sx := nestSpan (nestCounts (c.reg 0)) (nestStrides (c.reg 2) (c.reg 3))
    let sy := nestSpan (nestCounts (c.reg 0)) (nestStrides (c.reg 5) (c.reg 6))
    let sz := nestSpan c.zCounts c.zStrides
    if !rOk || !c.vecReserved y then none
    else match nestTile (c.reg 1) sx.1 sx.2 (c.cont tx), nestTile (c.reg 7) sz.1 sz.2 (c.cont tz) with
      | some x, some z =>
        if y then (nestTile (c.reg 4) sy.1 sy.2 (c.cont ty)).map fun v => ([x, v], [z])
        else some ([x], [z])
      | _, _ => none
  | _, _, _ => none

/-- VECOP (R190): under .srnd the generator advances by all draws at capture (R191). -/
def execVecop (o : VOp) (s : State) : Outcome :=
  let c := s.capture 2 (.vecop o)
  match c.vecTiles o with
  | none => .next (s.refuse 2)
  | some t =>
    match s.tiles s.cur t.1, s.tiles s.cur t.2 with
    | some i, some z =>
      let s1 := s.enqueue { c with ins := i, outs := z, rng := c.reg 12 }
      if o = .srnd then
        .next (s1.setMe (s1.me.setEr 2 12 (drawMany (nestSize (nestCounts (c.reg 0))) (c.reg 12))))
      else .next s1
    | _, _ => .next (s.refuse 2)

/-! ### The table (R180) -/

/-- Do ENG 0 and 1 of one context keep their order as one engine? Otherwise an MGATH could follow its consumer. -/
def sameQueue (a b : Nat) : Bool := a == b || (decide (a ≤ 1) && decide (b ≤ 1))

/-- May the k-th entry of a table start? -/
def startable (t : List TdtEntry) (k : Nat) : Bool :=
  match t[k]? with
  | none => false
  | some e => !e.started && (t.take k).all fun f =>
      f.cmd.g != e.cmd.g ||
        ((f.started || !sameQueue f.cmd.eng e.cmd.eng) &&
          !(f.cmd.outs.any fun x => e.cmd.ins.any (meets x) || e.cmd.outs.any (meets x)) &&
          !(f.cmd.ins.any fun x => e.cmd.outs.any (meets x)))

/-- Entries of a table that have not started: commands of ENG 0 to 4. -/
def Core.waiting (k : Core) : Nat := (k.tdt.filter fun e => !e.started && decide (e.cmd.eng ≤ 4)).length

/-- The k-th entry of a table marked as started. -/
def State.markStarted (s : State) (core k : Nat) : State :=
  let c := s.core core
  s.setCore core { c with tdt := c.tdt.mapIdx fun i e => if i = k then { e with started := true } else e }

/-- Is this the entry of a command? -/
def TdtEntry.is (e : TdtEntry) (g eng : Nat) (n : Word) : Bool := e.cmd.g == g && e.cmd.eng == eng && e.cmd.n == n

/-- The command as the table holds it now, with the bytes that stores have met. -/
def State.current (s : State) (c : Cmd) : Cmd :=
  match (s.core (coreOf c.g)).tdt.find? fun e => e.is c.g c.eng c.n with
  | some e => { e.cmd with tenure := c.tenure }
  | none => c

/-- A command leaves its table. -/
def State.leave (s : State) (c : Cmd) : State :=
  let k := s.core (coreOf c.g)
  s.setCore (coreOf c.g) { k with tdt := k.tdt.filter fun e => !e.is c.g c.eng c.n }

/-- A command completes with its flags (R92, R178). -/
def State.finishCmd (s : State) (c : Cmd) (flags : Byte) : State :=
  ((s.leave c).orFlags c.g flags).complete c.g c.eng c.n

/-! ### The lease (R158, R159) -/

/-- Members of the crew at a cluster. -/
def State.crewSize (s : State) (cl : Nat) : Nat :=
  match (s.cl cl).crew with
  | none => 16
  | some (gid, _) => match s.gang? gid with
    | some x => x.rec_.crewSize
    | none => 16

/-- The next requester: the first found counting member indices upward from a member's, modulo the crew size. -/
def State.nextRequester (s : State) (cl m : Nat) : Option Nat :=
  let n := s.crewSize cl
  let order := (List.range n).map fun i => ctxOfMember cl ((m + 1 + i) % n)
  order.find? fun g => (s.cl cl).reqs.contains g

/-- The clocks for which a context has been blocked are counted anew. -/
def State.recount (s : State) (g : Nat) : State :=
  s.setCtx g { s.ctx g with blocked := (s.ctx g).blocked.map fun _ => s.clock }

/-- The lease held by a context, or free. The clocks for which a holder has been blocked count from its grant (R159). -/
def State.giveLease (s0 : State) (cl : Nat) (h : Option Nat) : State :=
  let s := match h with
    | some g => s0.recount g
    | none => s0
  let c := s.cl cl
  s.setCl cl { c with
    holder := h, tenure := c.tenure + 1, runN := 0, runT := s.clock, paired := false
    reqs := match h with
      | some g => c.reqs.filter (· != g)
      | none => c.reqs }

/-- The lease passes from its holder to the next requester, or becomes free. -/
def State.passLease (s : State) (cl : Nat) : State :=
  match (s.cl cl).holder with
  | none => s
  | some g => s.giveLease cl (s.nextRequester cl (memberOf g))

/-- A context asks for the lease of its cluster. -/
def State.request (s : State) (g : Nat) : State :=
  let c := s.cl (clusterOf g)
  if c.reqs.contains g || decide (c.holder = some g) then s
  else s.setCl (clusterOf g) { c with reqs := c.reqs ++ [g] }

/-- Has a context matrix commands that the queue has not accepted? -/
def State.matrixLeft (s : State) (g : Nat) : Bool :=
  ((s.core (coreOf g)).tdt.any fun e => e.cmd.g == g && !e.started && decide (e.cmd.eng ≤ 1)) ||
    ((s.ctx g).pend.filterMap (·.submitted)).any fun c => decide (c.eng ≤ 1)

/-- Has a context ended (R286)? -/
def Ctx.ended (c : Ctx) : Bool :=
  match c.status with
  | .exited | .fatal | .idle => true
  | .ready | .waiting | .drained => false

/-- The lease of a context that has ended passes after its last matrix command (R286). -/
def State.leaveLease (s : State) (g : Nat) : State :=
  if s.holds g && (s.ctx g).ended && !s.matrixLeft g then s.passLease (clusterOf g) else s

/-- Is a command the consumer of a latch? -/
def Cmd.consumes (c : Cmd) : Bool :=
  match c.instr with
  | .mma _ _ | .mmas _ _ => c.asrc
  | _ => false

/-- The matrix queue accepts the k-th command of a table (R158, R159, R185). -/
def State.accept (s : State) (core k : Nat) (c : Cmd) : State :=
  let cl := clusterOf c.g
  let s1 := s.markStarted core k
  match c.instr with
  | .mlease =>
    let x := s1.cl cl
    ((s1.setCl cl { x with runN := x.runN + 1 }).finishCmd c 0).leaveLease c.g
  | .mfree => (s1.finishCmd c 0).passLease cl
  | _ =>
    let x := s1.cl cl
    let pair := x.paired && c.consumes
    let gath := decide (c.eng = 1)
    (s1.setCl cl { x with
      mq := x.mq ++ [{ c with tenure := x.tenure }], runN := if pair then x.runN else x.runN + 1
      paired := if gath then true else if pair then false else x.paired }).leaveLease c.g

/-- LEASE_GRANT (R159): the free lease goes to the lowest member that asks. -/
def execLeaseGrant (cl : Nat) (s : State) : Outcome :=
  let c := s.cl cl
  match c.holder with
  | some _ => .next s
  | none =>
    match (List.range 16).map (ctxOfMember cl) |>.find? fun g => c.reqs.contains g with
    | some g => .next (s.giveLease cl (some g))
    | none => .next s

/-- After 64 commands or 8192 clocks the lease passes, or the run starts anew; never between the halves of a
gather-consume pair (R159). -/
def State.runLimit (s : State) (cl : Nat) : State :=
  let c := s.cl cl
  match c.holder with
  | none => s
  | some g =>
    if c.paired || (decide (c.runN < 64) && decide (s.clock - c.runT < 8192)) then s
    else match s.nextRequester cl (memberOf g) with
      | some h => s.giveLease cl (some h)
      | none => s.setCl cl { c with runN := 0, runT := s.clock }

/-- LEASE_RUN_LIMIT (R159). -/
def execLeaseRunLimit (cl : Nat) (s : State) : Outcome := .next (s.runLimit cl)

/-- LEASE_IDLE_PASS (R159): a holder blocked for 256 clocks with nothing in the matrix queue loses the lease to a
requester. -/
def execLeaseIdlePass (cl : Nat) (s : State) : Outcome :=
  let c := s.cl cl
  match c.holder with
  | none => .next s
  | some g =>
    let idle := match (s.ctx g).blocked with
      | some t => decide (s.clock - t ≥ 256)
      | none => false
    if idle && !c.paired && !(c.mq.any fun m => m.g == g) then
      match s.nextRequester cl (memberOf g) with
      | some h => .next (s.giveLease cl (some h))
      | none => .next s
    else .next s

/-- A COLL reaches the collective engine of its die (R195). -/
def State.joinColl (s : State) (core : Nat) (c : Cmd) : State :=
  { s with colls := s.colls ++ [⟨c.reg 6, dieOf c.g, core, c⟩] }

/-- TDT_DISPATCH (R180): a matrix command enters the matrix queue where its context holds the lease and the queue has a
place (R158), once a run at its limit has ended at this command boundary (R159); a VECOP starts in the vector engine, a COLL in the collective engine. Copies start by COPY_START. -/
def execTdtDispatch (core k : Nat) (s : State) : Outcome :=
  let t := (s.core core).tdt
  match t[k]? with
  | none => .next s
  | some e =>
    let c := e.cmd
    if !startable t k then .next s
    else if c.eng ≤ 1 then
      let s1 := s.runLimit (clusterOf c.g)
      if !s1.holds c.g then .next (s1.request c.g)
      else if (s1.cl (clusterOf c.g)).mq.length ≥ 16 then .next s1
      else .next (s1.accept core k c)
    else if c.eng = 2 then
      let s1 := s.markStarted core k
      let x := s1.cl (clusterOf c.g)
      .next (s1.setCl (clusterOf c.g) { x with vq := x.vq ++ [c] })
    else if c.eng = 4 then .next ((s.markStarted core k).joinColl core c)
    else .next s

/-! ### Inputs and outputs -/

/-- The part of two ranges in common, as first byte and count. -/
def common (x y : Nat × Nat) : Nat × Nat :=
  let lo := max x.1 y.1
  let hi := min x.2 y.2
  (lo, hi + 1 - lo)

/-- The bytes in common of two lists of ranges. -/
def commonBytes (xs ys : List (Nat × Nat)) : List Nat :=
  xs.flatMap fun x => ys.flatMap fun y =>
    let c := common x y
    (List.range c.2).map (c.1 + ·)

/-- The scratchpad as a command reads it: bytes of its inputs that a store has met since are undefined (R181). -/
def State.inMem (s : State) (c : Cmd) : Mem :=
  (commonBytes c.taint c.ins).foldl (fun m a => m.set a ((s.free 4096 a).truncate 8)) (s.cl (clusterOf c.g)).spad

/-- The scratchpad after a command has written it: bytes of its outputs that a store has met hold either value (R181). -/
def State.outMem (s : State) (c : Cmd) (new : Mem) : State :=
  let cl := clusterOf c.g
  let old := (s.cl cl).spad
  let m := (commonBytes c.taint c.outs).foldl
    (fun m a => if (s.free 4097 a).getLsbD 0 then m.set a (old.get a) else m) new
  s.setCl cl { s.cl cl with spad := m }

/-! ### The matrix commands' effects -/

/-- The number of the accumulator cell (i, j) of a command; the lower cell of an FP64 pair (R162). -/
def Cmd.cell (c : Cmd) (wide : Bool) (i j : Nat) : Nat :=
  (c.row0 + i) % 1024 * 128 + (if wide then (c.col0 / 2 + j) % 64 * 2 else (c.col0 + j) % 128)

/-- The bits of a cell, or of a pair of cells. -/
def cellGet (acc : Tab Syl) (wide : Bool) (k : Nat) : Nat :=
  (acc.get k 0).toNat + (if wide then (acc.get (k + 1) 0).toNat * 2 ^ 32 else 0)

/-- The accumulator with a cell written; a cell that holds 0 is not listed. -/
def cellSet (acc : Tab Syl) (k : Nat) (v : Syl) : Tab Syl := if v = 0 then acc.del k else acc.put k v

/-- A cell or a pair written. -/
def cellPut (acc : Tab Syl) (wide : Bool) (k v : Nat) : Tab Syl :=
  let a := cellSet acc k (BitVec.ofNat 32 v)
  if wide then cellSet a (k + 1) (BitVec.ofNat 32 (v / 2 ^ 32)) else a

/-- All pairs (i, j) of an m by n rectangle. -/
def rect (m n : Nat) : List (Nat × Nat) := (List.range m).flatMap fun i => (List.range n).map fun j => (i, j)

/-- Bit k of a bitmap row. -/
def bitAt (m : Mem) (base row kb k : Nat) : Bool := (m.get (base + row * kb + k / 8)).getLsbD (k % 8)

/-- A scale code of register mode or tile mode (R166). -/
def scaleCode (tile : Bool) (m : Mem) (base row nb b : Nat) (q : Word) : Nat :=
  if tile then (m.get (base + row * nb + b)).toNat else bits q (8 * (b % 8) + 7) (8 * (b % 8))

/-- MMA and MMAS (R165 to R167, R186): the accumulator and the flags. -/
def State.mmaRun (s : State) (c : Cmd) (ta tb : FTy) (sparse : Bool) : Tab Syl × Byte :=
  let m := s.inMem c
  let x := s.cl (clusterOf c.g)
  let fa := c.fmt ta
  let fb := c.fmt tb
  let k := c.depth
  let kb := (k + 7) / 8
  let bs := blockOf ta
  let nb := c.blocks ta
  let wide := accOf ta == .f64
  let full := decide (x.latch.owner = some (c.g, c.tenure)) && decide (x.latch.ty = some ta)
  let empty := c.asrc && !full
  let aVal := fun (i kk : Nat) =>
    if empty then Val.fin false 0 0
    else if c.asrc then fa.val (contAt x.latch.rows (256 * i) fa.cont kk)
    else fa.val (contAt m (bits (c.reg 0) 59 0 + i * bits (c.reg 1) 31 0) fa.cont kk)
  let bVal := fun (kk j : Nat) => fb.val (contAt m (bits (c.reg 2) 59 0 + j * bits (c.reg 3) 31 0) fb.cont kk)
  let aBit := fun (i kk : Nat) => !sparse || empty || bitAt m (bits (c.reg 9) 59 0) i kb kk
  let bBit := fun (kk j : Nat) => !sparse || bitAt m (bits (c.reg 10) 59 0) j kb kk
  let blk := fun (i j b : Nat) =>
    let ks := (List.range (min bs (k - b * bs))).map (b * bs + ·)
    let codes := if scaled ta then
        (scaleCode c.smode m (bits (c.reg 7) 59 0) i nb b c.qa, scaleCode c.smode m (bits (c.reg 8) 59 0) j nb b c.qb)
      else (127, 127)
    (ks.map fun kk => pairTerm (aVal i kk) (bVal kk j) (aBit i kk) (bBit kk j), codes)
  (rect c.rows c.cols).foldl (fun st ij =>
    let at_ := c.cell wide ij.1 ij.2
    let r := accBlocks (accOf ta) (blk ij.1 ij.2) nb 0 (cellGet x.acc wide at_)
    (cellPut st.1 wide at_ r.1, st.2 ||| r.2)) (x.acc, if empty then flagNV else 0#8)

/-- The accumulator of a cluster replaced. -/
def State.setAcc (s : State) (cl : Nat) (a : Tab Syl) : State := s.setCl cl { s.cl cl with acc := a }

/-- One cell as ACCRD writes it (R188). -/
def accOut (c : Cmd) (t : FTy) (v : Nat) : Nat × Byte :=
  match t with
  | .fp32 | .fp64 => (v, 0#8)
  | .int8 =>
    let i := (BitVec.ofNat 32 v).toInt
    let k := if i > 127 then 127 else if i < -128 then -128 else i
    ((BitVec.ofInt 8 k).toNat, if k = i then 0#8 else flagSA)
  | .narrow _ | .bf16 | .fp16 =>
    let x := veIn (.ieee fp32) v
    let r := veOut (c.fmt t) x.1
    (r.1, r.2 ||| x.2)

/-- One element as ACCWR writes it into a cell (R188). -/
def accIn (c : Cmd) (t : FTy) (v : Nat) : Nat × Byte :=
  match t with
  | .fp32 | .fp64 => (v, 0#8)
  | .int8 => (((BitVec.ofNat 8 v).signExtend 32).toNat, 0#8)
  | .narrow _ | .bf16 | .fp16 => veIn (c.fmt t) v

/-- The rows that an MGATH gathers (R187). -/
def Cmd.gather (c : Cmd) (m : Mem) : Mem :=
  ((c.gSources m).mapIdx fun r x => (r, x)).foldl
    (fun l x => l.write (256 * x.1) (m.read (bits x.2.1 59 0) x.2.2)) []

/-- The effect of a matrix command when it completes (R160, log 10). -/
def State.runMatrix (s : State) (c : Cmd) : State :=
  let cl := clusterOf c.g
  let x := s.cl cl
  match c.instr with
  | .mma ta tb =>
    let r := s.mmaRun c ta tb false
    (s.setAcc cl r.1).finishCmd c r.2
  | .mmas ta tb =>
    let r := s.mmaRun c ta tb true
    (s.setAcc cl r.1).finishCmd c r.2
  | .mgath t =>
    let m := s.inMem c
    match s.tiles c.g (c.gSources m) with
    | some _ => (s.setCl cl { x with latch := ⟨c.gather m, some t, some (c.g, c.tenure)⟩ }).finishCmd c 0
    | none =>
      let s1 := s.setCtx c.g ((s.ctx c.g).setEr 1 62 c.n)
      s1.finishCmd c flagNV
  | .accrd t =>
    let wide := t == .fp64
    let r := (rect c.rows c.cols).foldl (fun st ij =>
      let v := accOut c t (cellGet x.acc wide (c.cell wide ij.1 ij.2))
      (putCont st.1 (bits (c.reg 11) 59 0 + ij.1 * bits (c.reg 12) 31 0) (c.cont t) ij.2 v.1, st.2 ||| v.2))
      (x.spad, 0#8)
    (s.outMem c r.1).finishCmd c r.2
  | .accwr t =>
    let m := s.inMem c
    let wide := t == .fp64
    let r := (rect c.rows c.cols).foldl (fun st ij =>
      let v := accIn c t (contAt m (bits (c.reg 11) 59 0 + ij.1 * bits (c.reg 12) 31 0) (c.cont t) ij.2)
      (cellPut st.1 wide (c.cell wide ij.1 ij.2) v.1, st.2 ||| v.2)) (x.acc, 0#8)
    (s.setAcc cl r.1).finishCmd c r.2
  | .accz =>
    (s.setAcc cl ((rect c.rows c.cols).foldl (fun a ij => cellSet a (c.cell false ij.1 ij.2) 0) x.acc)).finishCmd c 0
  | _ => s.finishCmd c 0

/-! ### The vector engine's effect -/

/-- Byte of element t of a tile, and its container within the byte: base byte and container index for `contAt`. -/
def vecAt (base : Word) (c : Nat) (o : Int) : Nat × Nat :=
  let b : Nat := bits base 59 0
  if c = 4 then (((b : Int) + o / 2).toNat, (o % 2).toNat) else (((b : Int) + o * (c / 8 : Nat)).toNat, 0)

/-- Bytes of an element. Two elements overlap where they share a byte, be it in different halves: R168 names no finer grain
(log 109). -/
def vecBytes (base : Word) (c : Nat) (o : Int) : List Nat :=
  let a := (vecAt base c o).1
  (List.range (max c 8 / 8)).map (a + ·)

/-- Do two tiles of one command coincide element for element (R168)? -/
def sameTile (cs : List Nat) (b1 b2 : Word) (c1 c2 : Nat) (s1 s2 : List Int) : Bool :=
  b1 == b2 && c1 == c2 && ((cs.zip (s1.zip s2)).all fun x => decide (x.1 = 1) || decide (x.2.1 = x.2.2))

/-- The elements of Z, in nest order, with the flags (R190). -/
def State.vecRun (s : State) (c : Cmd) (o : VOp) (tx ty tz : FTy) : List (Nat × Byte) :=
  let m := s.inMem c
  let cs := nestCounts (c.reg 0)
  let el := fun (base : Word) (t : FTy) (st : List Int) (k : Nat) =>
    let a := vecAt base (c.cont t) (nestOff cs st k)
    veIn (c.fmt t) (contAt m a.1 (c.cont t) a.2)
  let xs := fun (k : Nat) => el (c.reg 1) tx (nestStrides (c.reg 2) (c.reg 3)) k
  let ys := fun (k : Nat) => el (c.reg 4) ty (nestStrides (c.reg 5) (c.reg 6)) k
  let imm := bits (c.reg 11) 31 0
  if reduces o then
    let n := nestSize (cs.take c.red)
    (List.range (nestSize c.zCounts)).map fun q =>
      let es := (List.range n).map fun k => xs (q * n + k)
      let t := veTree (if o = .rsum then veAdd else vePick true) n (es.map (·.1))
      let z := veOut (c.fmt tz) t.1
      (z.1, z.2 ||| t.2 ||| Machine.orFlags (es.map (·.2)))
  else
    let n := nestSize cs
    if o = .srnd then
      ((List.range n).foldl (fun (st : Word × List (Nat × Byte)) k =>
        let d := srndDraw st.1
        let x := xs k
        let z := convert (.ieee fp32) (c.fmt tz) .rne (some d.2.toNat) x.1
        (d.1, st.2 ++ [(z.1, z.2 ||| x.2)])) (c.rng, [])).2
    else (List.range n).map fun k =>
      let x := xs k
      let y := if readsY o then ys k else (0, 0#8)
      let r := veFun o x.1 y.1 imm
      let z := veOut (c.fmt tz) r.1
      (z.1, z.2 ||| r.2 ||| x.2 ||| y.2)

/-- The effect of a VECOP (R168, R190): output elements that overlap an input tile otherwise than element for element are
undefined. A reduction over counts of 1 has one input element for each output element. -/
def State.runVec (s : State) (c : Cmd) (o : VOp) : State :=
  match vecTy (bits (c.reg 10) 3 0), vecTy (bits (c.reg 10) 7 4), vecTy (bits (c.reg 10) 11 8) with
  | some tx, some ty, some tz =>
    let cs := nestCounts (c.reg 0)
    let sx := nestStrides (c.reg 2) (c.reg 3)
    let sy := nestStrides (c.reg 5) (c.reg 6)
    let szAll := nestStrides (c.reg 8) (c.reg 9)
    let bytes := fun (base : Word) (t : FTy) (st : List Int) =>
      (List.range (nestSize cs)).flatMap fun k => vecBytes base (c.cont t) (nestOff cs st k)
    let plain := !reduces o || (cs.take c.red).all (· == 1)
    let inX := if plain && sameTile cs (c.reg 1) (c.reg 7) (c.cont tx) (c.cont tz) sx szAll then [] else bytes (c.reg 1) tx sx
    let inY := if !readsY o || (plain && sameTile cs (c.reg 4) (c.reg 7) (c.cont ty) (c.cont tz) sy szAll) then []
      else bytes (c.reg 4) ty sy
    let used := inX ++ inY
    let rs := s.vecRun c o tx ty tz
    let new := (rs.mapIdx fun k r => (k, r.1)).foldl (fun m x =>
      let off := nestOff c.zCounts c.zStrides x.1
      let a := vecAt (c.reg 7) (c.cont tz) off
      let bad := (vecBytes (c.reg 7) (c.cont tz) off).any used.contains
      putCont m a.1 (c.cont tz) a.2 (if bad then (s.free 4098 x.1).toNat % 2 ^ c.cont tz else x.2))
      (s.cl (clusterOf c.g)).spad
    (s.outMem c new).finishCmd c (Machine.orFlags (rs.map (·.2)))
  | _, _, _ => s.finishCmd c 0

/-- ENGINE_COMMAND_COMPLETE (R160, R178): the oldest command of the matrix queue, or of the vector engine. The clocks of
R159's idle rule count from the end of a context's last command in the queue. -/
def execEngineCommandComplete (cl : Nat) (vec : Bool) (s : State) : Outcome :=
  let x := s.cl cl
  if vec then
    match x.vq with
    | [] => .next s
    | c :: r =>
      let s1 := s.setCl cl { x with vq := r }
      match c.instr with
      | .vecop o => .next (s1.runVec (s1.current c) o)
      | _ => .next (s1.finishCmd c 0)
  else
    match x.mq with
    | [] => .next s
    | c :: r =>
      let s1 := s.setCl cl { x with mq := r }
      .next ((s1.runMatrix (s1.current c)).recount c.g)

end Sys2Proof.Machine
end

