-- ==== Sys2Proof/Machine/Copy.lean ====
section
/-! DEFINITION. The copy engine (R244 to R247), instruction fill (R248, R249) and badger messages (R250). A command's
effect takes place when it completes (log 10). -/

namespace Sys2Proof.Machine
open Sys2Proof

/-! ### Elements of a command's tiles -/

/-- The place of n bytes as a command addresses them, through the windows and world it captured (R199, R244, R318). -/
def State.tilePlace (s : State) (c : Cmd) (va : Word) (n : Nat) (k : Perm) : Place :=
  let size := (s.sizes c.g).1
  match tagOf va with
  | 0 => match translate c.win (c.world.truncate 8) (bits va 57 0) n k with
    | .ok ia w => .home ia w 0
    | .windowFault => .bad 0x01
    | .worldViolation => .bad 0x21
  | 1 => if bits va 59 0 + n ≤ size then .bank (clusterOf c.g) (bits va 59 0) else .bad 0x02
  | 2 => match s.crewCluster c.g (bits va 59 56) with
    | some cl => if bits va 55 0 + n ≤ size then .bank cl (bits va 55 0) else .bad 0x02
    | none => .bad 0x02
  | 4 =>
    if bits va 59 58 ≠ 0 then .bad 0x02
    else match translate c.win (c.world.truncate 8) (bits va 49 0) n k with
      | .ok ia w =>
        let m := bits va 57 50
        if !s.inRoster m then .bad 0x22
        else if m = s.trust.myIdx then .home ia w 0
        else .remote m ia w
      | .windowFault => .bad 0x01
      | .worldViolation => .bad 0x21
  | _ => .bad 0x02

/-- Is a place good? -/
def Place.good : Place → Bool
  | .bad _ => false
  | .bank _ _ | .home _ _ _ | .remote _ _ _ => true

/-- A number for the first byte of a place, with a space of its own for each cluster and member. -/
def Place.key : Place → Nat
  | .bank cl off => (cl + 1) * 2 ^ 64 + off
  | .home ia _ _ => ia
  | .remote m ia _ => (m + 1) * 2 ^ 80 + ia
  | .bad _ => 0

/-- The access of an engine on behalf of a context. -/
def State.cmdAcc (s : State) (c : Cmd) (w : Window) : Acc := s.acc c.g w (.pod, c.g)

/-- IA ranges of the bytes that windows cover among n bytes from va on, one 64 KiB block at a time. -/
def coveredSpans (ws : List Window) (world : Byte) : Nat → Nat → Nat → List (Nat × Nat)
  | 0, _, _ => []
  | k + 1, va, n =>
    if n = 0 then []
    else
      let m := min n (65536 - va % 65536)
      let r := coveredSpans ws world k (va + m) (n - m)
      match translate ws world va m permNone with
      | .ok ia _ => (ia, m) :: r
      | .windowFault | .worldViolation => r

/-- The IA ranges of this module that n bytes at a pointer of a command cover: the device range from its lowest to its
highest byte (R180, R244). -/
def State.vaSpans (s : State) (c : Cmd) (p : Word) (n : Nat) : List (Nat × Nat) :=
  let here := fun (va : Nat) => coveredSpans c.win (c.world.truncate 8) (n / 65536 + 2) va n
  match tagOf p with
  | 0 => here (bits p 57 0)
  | 4 => if s.inRoster (bits p 57 50) && decide (bits p 57 50 = s.trust.myIdx) then here (bits p 49 0) else []
  | _ => []

/-- Does the write-back of some device ranges wait (R264, R323)? -/
def State.spansWait (s : State) (g : Nat) (spans : List (Nat × Nat)) : Bool := spans.any fun r => s.sendWaits (coreOf g) r.1 r.2

/-- The dirty L1 bytes of a command's device input ranges go home before it reads them (R245, R264). -/
def State.sendInputs (s : State) (g : Nat) (spans : List (Nat × Nat)) : State :=
  spans.foldl (fun t r => t.l1SendRange (coreOf g) r.1 r.2 (.pod, g)) s

/-- n bytes of an element: undefined where the access failed, which stops the context (R245, R327). -/
def State.readElem (s : State) (c : Cmd) (p : Place) (n idx : Nat) : State × List Byte :=
  match p with
  | .bank cl off => (s, (s.cl cl).spad.read off n)
  | .home ia w _ =>
    match s.homeMany (s.cmdAcc c w) ia n with
    | (s1, .ok bs) => (s1, bs)
    | (s1, .pageFault) => (s1.setAsync c.g 0x20, leBytes n (s.free 4099 idx).toNat)
    | (s1, .poisoned) => (s1.setAsync c.g 0x23, leBytes n (s.free 4099 idx).toNat)
  | .remote m ia w =>
    if s.memberRefuses (5000 + idx) w then (s.setAsync c.g 0x21, leBytes n (s.free 4099 idx).toNat)
    else (s, leBytes n (Config.remoteRead (s.fresh + idx) m ia).toNat)
  | .bad _ => (s, leBytes n (s.free 4099 idx).toNat)

/-- What an element writes: its place and its bytes. -/
abbrev ElemWrite := Place × List Byte

/-- The cells that elements write in one 256-byte sector under a window, the last writer of a byte first. -/
def sectorCells (ws : List ElemWrite) (sec : Nat) (world : Byte) : List (Nat × Byte) :=
  ((ws.flatMap fun w => match w.1 with
    | .home ia win _ => if win.world = world then (cellsAt ia w.2).filter fun c => c.1 / 256 == sec else []
    | .bank _ _ | .remote _ _ _ | .bad _ => []).reverse)

/-- The sectors that elements write, with the window of the first element in each. -/
def sectorList : List ElemWrite → List (Nat × Window)
  | [] => []
  | w :: r =>
    let rest := sectorList r
    match w.1 with
    | .home ia win _ =>
      let here := (List.range ((ia + w.2.length - 1) / 256 + 1 - ia / 256)).map fun i => (ia / 256 + i, win)
      here ++ rest.filter fun x => !(here.any fun y => y.1 == x.1 && y.2.world == x.2.world)
    | .bank _ _ | .remote _ _ _ | .bad _ => rest

/-- What a command has written in device memory, kept for the TLWAITs of its context (R265). -/
def State.noteOutputs (s : State) (c : Cmd) (spans : List (Nat × Nat)) : State :=
  let pod := decide (c.eng = 4) || [1, 4].any fun i => decide (tagOf (c.reg i) = 4)
  let k := s.ctx c.g
  s.setCtx c.g { k with outDev := ⟨c.eng, c.n, if pod then .pod else .dev, spans⟩ :: k.outDev }

/-- Would the device writes of some elements wait (R206, R323)? -/
def State.elemsWait (s : State) (c : Cmd) (ws : List ElemWrite) : Bool :=
  (sectorList ws).any fun x => s.txnWaits (s.cmdAcc c x.2) (sectorCells ws x.1 x.2.world) false

/-- Elements written: banks and remote members as they come, device memory one write transaction for each sector (R208);
the issuing core's L1 lines of the device output ranges are invalidated (R245). -/
def State.writeElems (s : State) (c : Cmd) (ws : List ElemWrite) (spans : List (Nat × Nat)) : State :=
  let s1 := (ws.zipIdx).foldl (fun t x => match x.1.1 with
    | .bank cl off => t.bankWrite cl off x.1.2
    | .remote m ia win =>
      if t.memberRefuses (5000 + x.2) win then t.setAsync c.g 0x21 else t.sendRemote m ia win x.1.2
    | .home _ _ _ => t
    | .bad _ => t) s
  let s2 := (sectorList ws).foldl (fun t x =>
    match t.writeTxn (t.cmdAcc c x.2) (sectorCells ws x.1 x.2.world) false with
    | (t1, .ok _) => t1
    | (t1, .pageFault) => t1.setAsync c.g 0x20
    | (t1, .poisoned) => t1.setAsync c.g 0x23) s1
  (spans.foldl (fun t r => t.l1InvalRange (coreOf c.g) r.1 r.2 (.pod, c.g)) s2).noteOutputs c spans

/-! ### CPY and CPYD -/

/-- Bytes of an element. -/
def Cmd.esz (c : Cmd) : Nat := 2 ^ bits (c.reg 7) 3 0

/-- Elements of a copy. -/
def Cmd.copyN (c : Cmd) : Nat := nestSize (nestCounts (c.reg 0))

/-- Bits of an engine pointer below its space's tag fields. -/
def spaceBits (base : Word) : Nat :=
  match tagOf base with
  | 0 => 58
  | 2 => 56
  | 4 => 50
  | _ => 60

/-- The device ranges of the source or the destination of a copy, from its lowest to its highest byte (R244). -/
def State.copySpans (s : State) (c : Cmd) (dst : Bool) : List (Nat × Nat) :=
  let base := c.reg (if dst then 4 else 1)
  let k := spaceBits base
  let x := nestSpan (nestCounts (c.reg 0)) (nestStrides (c.reg (if dst then 5 else 2)) (c.reg (if dst then 6 else 3)))
  let lo : Int := (bits base (k - 1) 0 : Nat) + x.1 * (c.esz : Nat)
  if lo < 0 then []
  else s.vaSpans c (BitVec.ofNat 64 (base.toNat / 2 ^ k * 2 ^ k + lo.toNat)) (((x.2 - x.1).toNat + 1) * c.esz)

/-- The address of element t of the source or the destination: none below the space's first byte. -/
def Cmd.elemVa (c : Cmd) (dst : Bool) (t : Nat) : Option Word :=
  let base := c.reg (if dst then 4 else 1)
  let st := nestStrides (c.reg (if dst then 5 else 2)) (c.reg (if dst then 6 else 3))
  let lo := spaceBits base
  let a : Int := (bits base (lo - 1) 0 : Nat) + nestOff (nestCounts (c.reg 0)) st t * (c.esz : Nat)
  if a < 0 || a ≥ 2 ^ lo then none else some (BitVec.ofNat 64 (base.toNat / 2 ^ lo * 2 ^ lo + a.toNat))

/-- The place of element t. -/
def State.elemPlace (s : State) (c : Cmd) (dst : Bool) (t : Nat) : Place :=
  match c.elemVa dst t with
  | none => .bad 0x02
  | some va => s.tilePlace c va c.esz (if dst then permW else permR)

/-- The scratchpad interval of a tile for the tile dependency table: the issuing cluster's offsets as they are, another
cluster's in a range of their own. -/
def State.copyRange (s : State) (c : Cmd) (dst : Bool) : List (Nat × Nat) :=
  let ks := (List.range c.copyN).filterMap fun t => match s.elemPlace c dst t with
    | .bank cl off => some (if cl = clusterOf c.g then off else (cl + 1) * 2 ^ 32 + off)
    | .home _ _ _ | .remote _ _ _ | .bad _ => none
  match ks with
  | [] => []
  | k :: r => [(r.foldl min k, r.foldl max k + c.esz - 1)]

/-- The register values that CPY accepts (R244). -/
def Cmd.copyOk (c : Cmd) : Bool :=
  decide (bits (c.reg 0) 63 60 = 0) && [2, 3, 5, 6].all (fun i => !bit (c.reg i) 63) && decide (bits (c.reg 7) 63 4 = 0) &&
    decide (bits (c.reg 7) 3 0 ≤ 8) && [1, 4].all fun i =>
      [0, 1, 2, 4].contains (tagOf (c.reg i)) && decide ((c.reg i).toNat % min c.esz 8 = 0)

/-- The content key of a world (R246, R330). -/
def State.contentKey (s : State) (world : Byte) : Option (BitVec 512) :=
  match s.slotOf world with
  | none => none
  | some k => k.content

/-- What CPYD asks beyond CPY (R246). -/
def State.cpydOk (s : State) (c : Cmd) : Bool :=
  decide (16 ≤ c.esz) && [0, 4].contains (tagOf (c.reg 1)) && decide (tagOf (c.reg 4) = 1) &&
    decide ((c.reg 1).toNat % 16 = 0) && decide (c.world ≠ 0) && (s.contentKey (c.world.truncate 8)).isSome

/-- A copy as command n: the dirty L1 bytes of a device source range go home first (R245). -/
def State.runCopy (s : State) (c : Cmd) (n : Word) : State := (s.sendInputs c.g (s.copySpans c false)).enter { c with n := n }

/-- A copy captured (R244, R245). -/
def State.submitCopy (s : State) (c : Cmd) (ok : Bool) : State :=
  if ok && c.copyOk && (List.range c.copyN).all (fun t => (s.elemPlace c false t).good && (s.elemPlace c true t).good) then
    let c1 := { c with ins := s.copyRange c false, outs := s.copyRange c true }
    s.issueCmd 3 (.submit c1) (fun t => t.spansWait c.g (t.copySpans c false)) fun t n => t.runCopy c1 n
  else s.refuse 3

/-- CPY (R245). -/
def execCpy (s : State) : Outcome := .next (s.submitCopy (s.capture 3 .cpy) true)

/-- CPYD (R246). -/
def execCpyd (s : State) : Outcome :=
  let c := s.capture 3 .cpyd
  .next (s.submitCopy c (s.cpydOk c))

/-- The cluster and offsets of a table range. -/
def boardPlace (g : Nat) (r : Nat × Nat) : Nat × Nat × Nat :=
  if r.1 < 2 ^ 32 then (clusterOf g, r.1, r.2) else (r.1 / 2 ^ 32 - 1, r.1 % 2 ^ 32, r.2 % 2 ^ 32)

/-- The scoreboard entries of a copy (R247), each with its cluster. -/
def Cmd.boardEntries (c : Cmd) : List (Nat × BoardRange) :=
  (c.outs.map fun r => let b := boardPlace c.g r; (b.1, ⟨b.2.1, b.2.2, true, coreOf c.g, c.g, c.n⟩)) ++
  (c.ins.map fun r => let b := boardPlace c.g r; (b.1, ⟨b.2.1, b.2.2, false, coreOf c.g, c.g, c.n⟩))

/-- Is there room for a copy's ranges? -/
def State.boardRoom (s : State) (c : Cmd) : Bool :=
  c.boardEntries.all fun e =>
    decide ((s.cl e.1).board.length + (c.boardEntries.filter fun x => x.1 == e.1).length ≤ 64)

/-- COPY_START (R247). -/
def execCopyStart (core k : Nat) (s : State) : Outcome :=
  let t := (s.core core).tdt
  match t[k]? with
  | none => .next s
  | some e =>
    if e.cmd.eng = 3 && startable t k && s.boardRoom e.cmd then
      let s1 := s.markStarted core k
      .next (e.cmd.boardEntries.foldl (fun u x =>
        let c := u.cl x.1
        u.setCl x.1 { c with board := c.board ++ [x.2] }) s1)
    else .next s

/-- The ranges of a copy leave the scoreboards. -/
def State.unboard (s : State) (c : Cmd) : State :=
  c.boardEntries.foldl (fun u x =>
    let k := u.cl x.1
    u.setCl x.1 { k with board := k.board.filter fun b => !(b.g == c.g && b.n == c.n && b.core == coreOf c.g) }) s

/-- The elements of a copy read in nest order, from element t on. -/
def State.copyReads (s : State) (c : Cmd) : Nat → Nat → State × List (List Byte)
  | 0, _ => (s, [])
  | n + 1, t =>
    let r := s.readElem c (s.elemPlace c false t) c.esz t
    let q := r.1.copyReads c n (t + 1)
    (q.1, r.2 :: q.2)

/-- The bytes that element t writes: those of a destination that overlaps the source are undefined (R245), those of CPYD
are decrypted (R246). -/
def State.copyWrites (s : State) (c : Cmd) (key : Option (BitVec 512)) (data : List (List Byte)) : List ElemWrite :=
  let src := (List.range c.copyN).map fun t => (s.elemPlace c false t).key
  data.mapIdx fun t bs =>
    let p := s.elemPlace c true t
    let hit := src.any fun a => decide (a < p.key + c.esz) && decide (p.key < a + c.esz)
    let out := match key with
      | none => bs
      | some k => xts false k ((c.reg 8).toNat + t) bs
    (p, if hit then leBytes c.esz (s.free 4100 t).toNat else out)

/-- COPY_COMPLETE (R245, R246): every element is read, then written. It waits while a slice or the memory side cannot take
a write (R206, R323). -/
def execCopyComplete (core k : Nat) (s : State) : Outcome :=
  match (s.core core).tdt[k]? with
  | none => .next s
  | some e =>
    let c := e.cmd
    let dummy := (List.range c.copyN).map fun t => (s.elemPlace c true t, List.replicate c.esz (0#8 : Byte))
    if c.eng = 3 && e.started && !s.elemsWait c dummy then
      let r := s.copyReads c c.copyN 0
      let key := match c.instr with
        | .cpyd => some ((s.contentKey (c.world.truncate 8)).getD 0)
        | _ => none
      let s1 := r.1.writeElems c (s.copyWrites c key r.2) (s.copySpans c true)
      .next ((s1.unboard c).finishCmd c 0)
    else .next s

/-! ### Instruction fill -/

/-- The register values that IFILL accepts (R248). -/
def State.ifillOk (s : State) (c : Cmd) : Bool :=
  let dst := bits (c.reg 2) 16 0
  let max := bits (c.reg 3) 16 0
  let k := s.core (coreOf c.g)
  let idle := if dst < 0x10000 then !k.aRun else !k.bRun
  decide (tagOf (c.reg 0) = 0) && decide ((c.reg 0).toNat % 4 = 0) && decide (tagOf (c.reg 1) = 0) &&
    decide ((c.reg 1).toNat % 4 = 0) && decide (bits (c.reg 2) 63 17 = 0) && decide (dst % 4 = 0) &&
    decide (bits (c.reg 3) 63 17 = 0) && decide (4 ≤ max) && decide (max ≤ 65536) &&
    decide (dst / 0x10000 = (dst + max - 1) / 0x10000) && idle &&
    (match translate c.win (c.world.truncate 8) (bits (c.reg 0) 57 0) 1 permFX with
      | .ok _ _ => true
      | .windowFault => false
      | .worldViolation => false)

/-- Does an IFILL wait in its memory queue for one of another context of the core that was captured before it, and waits too?
The core accepts its IFILLs in that order (R249, R338). -/
def State.fillWaits (s : State) (c : Cmd) : Bool :=
  (s.submittedOf (coreOf c.g)).any fun d => d.eng == 9 && d.g != c.g && decide (d.at_ < c.at_)

/-- IFILL (R248). -/
def execIfill (s : State) : Outcome :=
  let c := s.capture 9 .ifill
  if s.ifillOk c then .next (s.issueCmd 9 (.submit c) (fun u => u.fillWaits c) fun t n => t.enter { c with n := n })
  else .next (s.refuse 9)

/-- The engine number of a fill that an IFILL makes, that a placement makes from device memory, and that the measured
loader makes from bytes it holds (R282, R331). -/
def fillIfill : Nat := 9
def fillLaunch : Nat := 14
def fillHeld : Nat := 15

/-- A word of a fill whose stream is held with the command: the stream from address 0, the dictionary from 2^32. -/
def Cmd.heldWord (c : Cmd) (va : Word) : Option Nat :=
  let i := if va.toNat < 2 ^ 32 then va.toNat / 4 else (va.toNat - 2 ^ 32) / 4 + (c.reg 4).toNat
  if va.toNat < 2 ^ 32 && decide (i ≥ (c.reg 4).toNat) then none else (c.aux[i]?).map (·.toNat)

/-- The block of the template dictionary as the reader's copies know it: its first word (R269). -/
def Cmd.dictBlock (c : Cmd) : Nat × Nat :=
  match translate c.win (c.world.truncate 8) (bits (c.reg 1) 57 0) 4 permFX with
  | .ok ia _ => (ia, 4)
  | .windowFault | .worldViolation => (0, 4)

/-- One 32-bit word of the stream or the dictionary (R249): none where it cannot be read. A page without fill-exec is
found when its sector is filled (R322), in the fill of a LAUNCH as in an IFILL. No outcome of a fill stops the context
(R249): poisoned bytes are bytes that cannot be read. -/
def State.fillWord (s : State) (c : Cmd) (dict : Bool) (va : Word) : State × Option Nat :=
  if c.eng = fillHeld then (s, c.heldWord va)
  else match translate c.win (c.world.truncate 8) (bits va 57 0) 4 permFX with
  | .windowFault => (s, none)
  | .worldViolation => (s, none)
  | .ok ia w =>
    let a := s.cmdAcc c w
    let held := match (s.slice (homeSlice ia)).lines.get? (ia / 1024) with
      | some y => y.filled.getLsbD (ia / 256 % 4)
      | none => false
    let copied := dict && s.cbCopies.any fun x =>
      x.reader == readFill (coreOf c.g) && x.world == w.world && x.ia == ia && x.bytes.length == 4
    let allowed := held || copied || (match s.page ia false w.world with
      | some p => p.fx
      | none => false)
    if !allowed then (s, none)
    else
      let r := if dict && c.eng = fillIfill then s.readControl (readFill (coreOf c.g)) (s.gidOf c.g) c.dictBlock ia 4 a else s.homeRead ia 4 a false
      match r with
      | (s1, .ok bs) => (s1, some (leNat bs))
      | (s1, .pageFault) => (s1, none)
      | (s1, .poisoned) => (s1, none)

/-- How far a fill has come: state, words expanded in reverse, and the status once it has ended. -/
structure Fill9 where
  s    : State
  out  : List Nat
  stat : Option Nat

/-- A fill whose last unit breaks R79 or R80 counts the bytes before that unit (R339). -/
def Fill9.before (f start : Fill9) : Fill9 := if f.stat = some 2 then { f with out := start.out } else f

/-- n words of the stream from an address on, copied; words left in the bundle begun (R33). A word beyond IFMAX gives status 2 and
is not read, so that whether it could be read does not matter: the model's choice (log 135). -/
def litRun (c : Cmd) : Nat → Word → Nat → Fill9 → Fill9
  | 0, _, left, f => if left = 0 then f else { f with stat := some 2 }
  | n + 1, va, left, f =>
    if 4 * f.out.length ≥ bits (c.reg 3) 16 0 / 4 * 4 then { f with stat := some 2 }
    else match f.s.fillWord c false va with
      | (s1, none) => { f with s := s1, stat := some 3 }
      | (s1, some w) =>
        let l := if left = 0 then popMask (BitVec.ofNat 8 (w / 2 ^ 24)) else left - 1
        litRun c n (va + 4) l { f with s := s1, out := w :: f.out }

/-- n words read from an address on: none where one cannot be read. -/
def State.fillWords (s : State) (c : Cmd) (dict : Bool) : Nat → Word → State × Option (List Nat)
  | 0, _ => (s, some [])
  | n + 1, va =>
    match s.fillWord c dict va with
    | (s1, none) => (s1, none)
    | (s1, some w) =>
      match s1.fillWords c dict n (va + 4) with
      | (s2, none) => (s2, none)
      | (s2, some r) => (s2, some (w :: r))

/-- COUNT of a dictionary entry (R79): none where it is not one. -/
def countOk (w : Nat) : Option Nat := if 2 ≤ w && decide (w ≤ 9) then some w else none

/-- The address of template i, found by walking the entries before it: status 3 for a word that cannot be read, 2 for a
COUNT that R79 does not allow. -/
def State.findTemplate (s : State) (c : Cmd) : Nat → Word → State × Except Nat (Word × Nat)
  | i, va =>
    match s.fillWord c true va with
    | (s1, none) => (s1, .error 3)
    | (s1, some w) =>
      match countOk w with
      | none => (s1, .error 2)
      | some n =>
        match i with
        | 0 => (s1, .ok (va + 4, n))
        | i + 1 => s1.findTemplate c i (va + BitVec.ofNat 64 (4 + 8 * n))

/-- VALUE and MASK pairs of words in order. -/
def pairsOf : List Nat → List (Nat × Nat)
  | v :: m :: r => (v, m) :: pairsOf r
  | _ => []

/-- A template that R79 allows. -/
def templateOk (ps : List (Nat × Nat)) : Bool :=
  ps.all (fun p => p.1 &&& p.2 == 0) &&
    match ps with
    | [] => false
    | p :: _ => decide (popMask (BitVec.ofNat 8 (p.1 / 2 ^ 24)) = ps.length - 1) && decide (p.2 / 2 ^ 24 = 0)

/-- Set bits of a 32-bit word. -/
def pop32 (m : Nat) : Nat := ((List.range 32).filter fun i => m.testBit i).length

/-- One word filled with operand bits from a position on (R80). -/
def fillMask (v m : Nat) (ops : Nat) (pos : Nat) : Nat :=
  ((List.range 32).foldl (fun (st : Nat × Nat) b =>
    if m.testBit b then (st.1 ||| (if ops.testBit st.2 then 2 ^ b else 0), st.2 + 1) else st) (v, pos)).1

/-- The words of a template use. -/
def expandTemplate (ops : Nat) : Nat → List (Nat × Nat) → List Nat
  | _, [] => []
  | pos, p :: r => fillMask p.1 p.2 ops pos :: expandTemplate ops (pos + pop32 p.2) r

/-- The number that 32-bit words hold, lowest first. -/
def wordsNat : List Nat → Nat
  | [] => 0
  | w :: r => w + 2 ^ 32 * wordsNat r

/-- A template use at an address (R80): the fill and the address after its operand words. Entries of the dictionary that no unit
uses are not checked, which is the model's choice (log 128). -/
def useTemplate (c : Cmd) (tag : Nat) (va : Word) (f : Fill9) : Fill9 × Word :=
  if tag % 2 ^ 18 ≠ 0 || c.reg 1 = 0 then ({ f with stat := some 2 }, va)
  else match f.s.findTemplate c (tag / 2 ^ 18 % 2 ^ 12) (c.reg 1) with
    | (s1, .error k) => ({ f with s := s1, stat := some k }, va)
    | (s1, .ok t) =>
      match s1.fillWords c true (2 * t.2) t.1 with
      | (s2, none) => ({ f with s := s2, stat := some 3 }, va)
      | (s2, some ws) =>
        let ps := pairsOf ws
        if !templateOk ps then ({ f with s := s2, stat := some 2 }, va)
        else
          let h := (ps.map fun p => pop32 p.2).foldl (· + ·) 0
          let n := (h + 31) / 32
          match s2.fillWords c false n va with
          | (s3, none) => ({ f with s := s3, stat := some 3 }, va)
          | (s3, some os) =>
            let ops := wordsNat os
            let out := (expandTemplate ops 0 ps).reverse ++ f.out
            if ops ≥ 2 ^ h then ({ f with s := s3, stat := some 2 }, va)
            else if 4 * out.length > bits (c.reg 3) 16 0 then ({ f with s := s3, stat := some 2 }, va)
            else ({ f with s := s3, out := out }, va + BitVec.ofNat 64 (4 * n))

/-- The bytes of words in order. -/
def wordBytes (ws : List Nat) : List Byte := ws.flatMap fun w => leBytes 4 w

/-- The units of a stream from an address on (R80, R249); every unit expands at least one word. -/
def runUnits (c : Cmd) : Nat → Word → Fill9 → Fill9
  | 0, _, f => { f with stat := some 2 }
  | n + 1, va, f =>
    match f.stat with
    | some _ => f
    | none =>
      match f.s.fillWord c false va with
      | (s1, none) => { f with s := s1, stat := some 3 }
      | (s1, some tag) =>
        let f1 := { f with s := s1 }
        match tag / 2 ^ 30 with
        | 0 =>
          let k := tag % 2 ^ 30
          if k = 0 then { f1 with stat := some 2 }
          else
            let room := bits (c.reg 3) 16 0 / 4 + 1 - f1.out.length
            runUnits c n (va + 4 + BitVec.ofNat 64 (4 * k)) ((litRun c (min k room) (va + 4) 0 f1).before f1)
        | 1 =>
          let u := useTemplate c tag (va + 4) f1
          runUnits c n u.2 u.1
        | 2 => { f1 with stat := some 2 }
        | _ =>
          if tag % 2 ^ 30 ≠ f1.out.length then { f1 with stat := some 2 }
          else match f1.s.fillWord c false (va + 4) with
            | (s2, none) => { f1 with s := s2, stat := some 3 }
            | (s2, some crc) =>
              { f1 with s := s2, stat := some (if (crc32c (wordBytes f1.out.reverse)).toNat = crc then 0 else 1) }

/-- A range, as start and length, without another. -/
def cutRange (lo n : Nat) (r : Nat × Nat) : List (Nat × Nat) :=
  if r.1 + r.2 ≤ lo || decide (lo + n ≤ r.1) then [r]
  else (if r.1 < lo then [(r.1, lo - r.1)] else []) ++
    (if lo + n < r.1 + r.2 then [(lo + n, r.1 + r.2 - (lo + n))] else [])

/-- IFILL_COMPLETE (R249): the oldest fill of the core. A STOP bundle that it writes has no safe-point ordinal (R366). -/
def execIfillComplete (core : Nat) (s : State) : Outcome :=
  match (s.core core).tdt.find? fun e => e.cmd.eng == 9 with
  | none => .next s
  | some e =>
    let c := e.cmd
    let dst := bits (c.reg 2) 16 0
    let f := runUnits c (bits (c.reg 3) 16 0 / 4 + 2) (c.reg 0) ⟨s, [], none⟩
    let stat := f.stat.getD 2
    let n := 4 * f.out.length
    let gone := rng dst (if stat = 0 then n else bits (c.reg 3) 16 0)
    let k0 := f.s.core core
    let stays := fun (a : Nat) => !(decide (gone.1 ≤ a) && decide (a ≤ gone.2))
    let k := { k0 with smap := k0.smap.filter fun e => stays e.1, lives := k0.lives.filter fun e => stays e.1 }
    let s1 := if stat = 0 then
        f.s.setCore core { k with
          ispad := k.ispad.write dst (wordBytes f.out.reverse), undef := k.undef.flatMap (cutRange dst n) }
      else f.s.setCore core { k with undef := k.undef ++ [(dst, bits (c.reg 3) 16 0)] }
    let s2 := s1.setCtx c.g ((s1.ctx c.g).setEr 9 4 (BitVec.ofNat 64 (stat + n * 2 ^ 32)))
    .next (s2.finishCmd c 0)

/-! ### Badger messages -/

/-- A BMSG as command n: the dirty L1 bytes of the reply word's line go first (R222). The class in its EVINFO is the default class
of the reply word's window, which is the model's choice (log 134). -/
def State.runBmsg (s : State) (c : Cmd) (n : Word) : State :=
  match s.tilePlace c (c.reg 0) 1 permR, s.tilePlace c (c.reg 1) 8 permW with
  | .home t _ _, .home r w _ =>
    let s1 := s.sendFirst (coreOf c.g) r w.world c.g
    let sl := homeSlice t
    let x := s1.slice sl
    let e : BEvent := {
      kind := 3, ia := r, info := BitVec.ofNat 64 (w.cls.toNat + (if w.world ≠ 0 then 256 else 0) + w.world.toNat * 65536)
      ver := 0, msg0 := c.reg 2, msg1 := c.reg 3, tenant := (s.tenantOf (clusterOf c.g)).getD 16, g := c.g
      n := n, world := w.world }
    s1.setSlice sl { x with coming := x.coming ++ [e] }
  | _, _ => s.refuseCmd c.g 8 n

/-- Does a BMSG wait for the write-back of its reply word's line (R323)? -/
def State.bmsgWaits (s : State) (c : Cmd) : Bool :=
  match s.tilePlace c (c.reg 1) 8 permW with
  | .home r w _ => s.l1Waits (coreOf c.g) (l1Key r w.world) (BitVec.allOnes 256)
  | .bank _ _ | .remote _ _ _ | .bad _ => false

/-- BMSG (R250). -/
def execBmsg (s : State) : Outcome :=
  let c := s.capture 8 .bmsg
  if tagOf (c.reg 0) ≠ 0 || tagOf (c.reg 1) ≠ 0 || (c.reg 1).toNat % 8 ≠ 0 then .next (s.refuse 8)
  else match s.tilePlace c (c.reg 0) 1 permR, s.tilePlace c (c.reg 1) 8 permW with
    | .home _ _ _, .home _ _ _ => .next (s.issueCmd 8 (.bmsg c) (fun t => t.bmsgWaits c) fun t n => t.runBmsg c n)
    | _, _ => .next (s.refuse 8)

end Sys2Proof.Machine
end

