-- ==== Sys2Proof/Machine/Coll.lean ====
section
/-! DEFINITION. The collective engine (R192 to R195): what a COLL checks and captures, and how a collective ends. What
ranks outside the module contribute comes with the event that ends it (log 14). -/

namespace Sys2Proof.Machine
open Sys2Proof

/-! ### Registers and tiles -/

def Cmd.collN (c : Cmd) : Nat := bits (c.reg 3) 31 0
def Cmd.collRank (c : Cmd) : Nat := bits (c.reg 4) 31 16
def Cmd.collRoot (c : Cmd) : Nat := bits (c.reg 4) 47 32

/-- Source type and operation of a COLL. -/
def Cmd.collOp (c : Cmd) : FTy × COp :=
  match c.instr with
  | .coll t o => (t, o)
  | _ => (.fp32, .asum)

/-- Does an operation sum (R194)? -/
def sums : COp → Bool
  | .asum | .rsum => true
  | .amax | .bcast | .agath => false

/-- The result type: CCTL's for a sum, else the source type (R193). -/
def Cmd.collOut (c : Cmd) : FTy :=
  if sums c.collOp.2 then (if bits (c.reg 4) 3 0 = 8 then .bf16 else .fp32) else c.collOp.1

/-- The result type that CCTL names is one that the row accepts (R193). -/
def Cmd.collTypeOk (c : Cmd) : Bool :=
  if sums c.collOp.2 then decide (bits (c.reg 4) 3 0 = 8) || decide (bits (c.reg 4) 3 0 = 10)
  else decide (bits (c.reg 4) 3 0 = c.collOp.1.code.toNat)

/-- Does a participant read SCALES, and write DST? -/
def Cmd.collScaled (c : Cmd) : Bool := sums c.collOp.2 && scaled c.collOp.1
def Cmd.collWrites (c : Cmd) : Bool :=
  match c.collOp.2 with
  | .rsum => decide (c.collRank = c.collRoot)
  | .asum | .amax | .bcast | .agath => true

/-- Elements of DST in a group of np ranks. -/
def Cmd.collOutN (c : Cmd) (np : Nat) : Nat :=
  match c.collOp.2 with
  | .agath => np * c.collN
  | .asum | .rsum | .amax | .bcast => c.collN

/-- The input tiles, and the output tile where DST is written: the DST of a .rsum at a rank that is not ROOT is not tested, which is
the model's choice (log 130). -/
def Cmd.collIns (c : Cmd) : List (Word × Nat) :=
  (c.reg 1, contBytes c.collN (c.cont c.collOp.1)) ::
    (if c.collScaled then [(c.reg 5, (c.collN + 31) / 32)] else [])
def Cmd.collOuts (c : Cmd) (np : Nat) : List (Word × Nat) :=
  if c.collWrites then [(c.reg 2, contBytes (c.collOutN np) (c.cont c.collOut))] else []

/-- Is a tile of tag 0x0 or 0x1 within bounds? -/
def State.collTile (s : State) (c : Cmd) (k : Perm) (t : Word × Nat) : Bool :=
  decide (tagOf t.1 ≤ 1) && (s.tilePlace c t.1 t.2 k).good

/-- The scratchpad ranges among some tiles. -/
def State.collRanges (s : State) (c : Cmd) (ts : List (Word × Nat)) : List (Nat × Nat) :=
  ts.filterMap fun t => s.spdRange c.g t.1 t.2

/-- Registers that hold no reserved bit or value (R192). -/
def Cmd.collRegsOk (c : Cmd) : Bool :=
  decide (c.collN ≠ 0) && decide (bits (c.reg 3) 63 32 = 0) && decide (bits (c.reg 4) 15 4 = 0) &&
    decide (bits (c.reg 4) 63 48 = 0) && c.collTypeOk && decide (tagOf (c.reg 0) = 0) && decide ((c.reg 0).toNat % 64 = 0)

/-! ### The group record -/

/-- n bytes of the group record at an address, read as a control block by the collective engine of the die (R192, R269):
none where they cannot be read. `off` is the offset in the record, `all` its length as far as it is known. -/
def State.groupBytes (s : State) (c : Cmd) (off n all : Nat) : State × Option (List Byte) :=
  match s.tilePlace c (c.reg 0 + BitVec.ofNat 64 off) n permR with
  | .home ia w _ =>
    match s.readControl (readColl (dieOf c.g)) (s.gidOf c.g) (ia - off, all) ia n (s.cmdAcc c w) with
    | (s1, .ok bs) => (s1, some bs)
    | (s1, .pageFault) => (s1.setAsync c.g 0x20, none)
    | (s1, .poisoned) => (s1.setAsync c.g 0x23, none)
  | .bank _ _ | .remote _ _ _ | .bad _ => (s, none)

/-- The entries of the group record, without their reserved bits (R8): none where it is not one. -/
def State.readGroup (s : State) (c : Cmd) : State × Option (List Word) :=
  match s.groupBytes c 0 8 8 with
  | (s1, none) => (s1, none)
  | (s1, some h) =>
    let np := fld h 0 4
    if np = 0 || np > 65536 then (s1, none)
    else match s1.groupBytes c 8 (8 * np) (8 + 8 * np) with
      | (s2, none) => (s2, none)
      | (s2, some bs) => (s2, some ((chunks 8 np bs).map fun b => leWord b &&& 0x3FFFF#64))

/-- Does an entry name this context (R192)? -/
def State.names (s : State) (g : Nat) (e : Word) : Bool :=
  decide (bits e 7 0 = s.trust.myIdx) && decide (bits e 17 8 = g)

/-- The device ranges of a COLL's inputs (R180). -/
def State.collSpans (s : State) (c : Cmd) (ts : List (Word × Nat)) : List (Nat × Nat) := ts.flatMap fun t => s.vaSpans c t.1 t.2

/-- A COLL captured with its group record (R177, R193): none where it is refused. -/
def State.grouped (s : State) (c : Cmd) : State × Option Cmd :=
  match s.readGroup c with
  | (s1, none) => (s1, none)
  | (s1, some es) =>
    let outs := c.collOuts es.length
    let ok := (match es[c.collRank]? with
        | some e => s1.names c.g e
        | none => false) &&
      c.collIns.all (s1.collTile c permR) && outs.all (s1.collTile c permW)
    (s1, if ok then some { c with aux := es, ins := s1.collRanges c c.collIns, outs := s1.collRanges c outs } else none)

/-- A COLL as command n (R193): captured with its group record, or refused. Dirty L1 bytes of a device source go home
first. -/
def State.runColl (s : State) (c : Cmd) (n : Word) : State :=
  match (if c.aux.isEmpty then s.grouped c else (s, some c)) with
  | (s1, none) => s1.refuseCmd c.g 4 n
  | (s1, some d) => (s1.sendInputs d.g (s1.collSpans d d.collIns)).enter { d with n := n }

/-- The ranges of a COLL whose group record is still to be read: as many elements of DST as its space holds, where that
depends on the group. -/
def State.collGuess (s : State) (c : Cmd) : Cmd :=
  let outs := match c.collOp.2 with
    | .agath => [(c.reg 2, (s.sizes c.g).1 - bits (c.reg 2) 59 0)]
    | .asum | .rsum | .amax | .bcast => c.collOuts 1
  { c with ins := s.collRanges c c.collIns, outs := s.collRanges c outs }

/-- COLL (R193). The group record is read at its issue (R177), or behind a CBSYNC that waits, once that has been performed
(R313), which is the model's choice (log 102). -/
def execColl (t : FTy) (o : COp) (s : State) : Outcome :=
  let c := s.capture 4 (.coll t o)
  let waits := fun (u : State) => u.spansWait c.g (u.collSpans c c.collIns)
  let earlier := heldIn s.me.pend
  if !c.collRegsOk then .next (s.refuse 4)
  else if !earlier.any (·.isCbsync) && (s.mustHold s.cur earlier (s.syncOp 4 0 (.submit c)) || waits s) then
    match s.grouped c with
    | (s1, none) => .next (s1.refuse 4)
    | (s1, some d) => .next (s1.issueCmd 4 (.submit d) waits fun u n => u.runColl d n)
  else .next (s.issueCmd 4 (.submit (s.collGuess c)) waits fun u n => u.runColl c n)

/-! ### What the ranks contribute -/

/-- What one rank contributes: its raw codes and scale codes, and the formats they are read by. -/
structure CollPart where
  rank   : Nat
  cmd    : Cmd
  elems  : List Nat
  scales : List Nat
  deriving DecidableEq, Repr, Inhabited

/-- The bytes of an input tile, from offset 0 on. -/
def State.tileMem (s : State) (c : Cmd) (t : Word × Nat) : State × Mem :=
  match s.tilePlace c t.1 t.2 permR with
  | .bank _ off => (s, Mem.write [] 0 ((s.inMem c).read off t.2))
  | p =>
    let r := s.readElem c p t.2 0
    (r.1, Mem.write [] 0 r.2)

/-- A participant of this module with its elements as they stand. -/
def State.collPart (s : State) (w : CollWait) : State × CollPart :=
  let c := s.current w.cmd
  let n := c.collN
  let r := s.tileMem c (c.reg 1, contBytes n (c.cont c.collOp.1))
  let q := if c.collScaled then r.1.tileMem c (c.reg 5, (n + 31) / 32) else (r.1, [])
  (q.1, ⟨c.collRank, c, (List.range n).map (contAt r.2 0 (c.cont c.collOp.1)),
    if c.collScaled then (List.range ((n + 31) / 32)).map fun i => (q.2.get i).toNat else []⟩)

/-- The participants of this module, one after the other. -/
def State.collParts (s : State) : List CollWait → State × List CollPart
  | [] => (s, [])
  | w :: r =>
    let x := s.collPart w
    let y := x.1.collParts r
    (y.1, x.2 :: y.2)

/-- A rank outside the module; its narrow codes are read by the descriptors that the first participant here captured
(log 14). -/
def remotePart (c : Cmd) (r : RemoteRank) : CollPart :=
  ⟨r.rank, c, r.elems.map (·.toNat), r.scales.map (·.toNat)⟩

/-- The value of element e of a rank in a sum, with NV where it is due (R194). -/
def CollPart.val (p : CollPart) (e : Nat) : Val × Bool :=
  let v := (p.cmd.fmt p.cmd.collOp.1).val (p.elems.getD e 0)
  if p.cmd.collScaled then
    match scaleExp (p.scales.getD (e / 32) 0) with
    | some k => (v.scale k, v.isSig)
    | none => (.nan false, true)
  else (v, v.isSig)

/-- The IEEE format of a result type. -/
def outIeee : FTy → Ieee
  | .bf16 => Machine.bf16
  | .fp16 => Machine.fp16
  | .fp64 => Machine.fp64
  | .narrow _ | .fp32 | .int8 => Machine.fp32

/-- Element e of the result at a participant, and its flags (R193, R194); `ps` stands in rank order. A ROOT that is no rank
of the group has no SRC: its elements are free. -/
def State.collElem (s : State) (c : Cmd) (ps : List CollPart) (e : Nat) : Nat × Byte :=
  match c.collOp.2 with
  | .asum | .rsum =>
    let vs := ps.map fun p => p.val e
    collSum (outIeee c.collOut) (vs.map (·.1)) (vs.any (·.2))
  | .amax => collMax (outIeee c.collOut) (ps.map fun p => p.elems.getD e 0)
  | .bcast => match ps[c.collRoot]? with
    | some p => (p.elems.getD e 0, 0#8)
    | none => ((s.free 4101 e).toNat % 2 ^ c.cont c.collOut, 0#8)
  | .agath => match ps[e / c.collN]? with
    | some p => (p.elems.getD (e % c.collN) 0, 0#8)
    | none => (0, 0#8)

/-! ### How a collective ends -/

/-- A participant's DST written with containers of its result type. -/
def State.collPut (s : State) (c : Cmd) (vs : List Nat) : State :=
  let k := c.cont c.collOut
  let n := contBytes vs.length k
  let cells := vs.mapIdx fun i v => (i, v)
  match s.tilePlace c (c.reg 2) n permW with
  | .bank cl off => s.outMem c (cells.foldl (fun m x => putCont m off k x.1 x.2) (s.cl cl).spad)
  | .home ia w l1 =>
    let old := if k = 4 && vs.length % 2 = 1 then s.readElem c (.home (ia + n - 1) w l1) 1 1 else (s, [])
    let m0 : Mem := Mem.write [] (n - 1) old.2
    let m := cells.foldl (fun m x => putCont m 0 k x.1 x.2) m0
    old.1.writeElems c [(.home ia w l1, m.read 0 n)] (s.vaSpans c (c.reg 2) n)
  | .remote _ _ _ | .bad _ => s

/-- Would the writing of a participant's DST wait (R206, R323)? -/
def State.collPutWaits (s : State) (c : Cmd) : Bool :=
  let n := contBytes (c.collOutN c.aux.length) (c.cont c.collOut)
  match s.tilePlace c (c.reg 2) n permW with
  | .home ia w l1 => c.collWrites && s.elemsWait c [(.home ia w l1, List.replicate n 0#8)]
  | .bank _ _ | .remote _ _ _ | .bad _ => false

/-- A COLL ends at a participant with a status and flags (R195). -/
def State.endColl (s : State) (c : Cmd) (stat : Nat) (flags : Byte) : State :=
  (s.setCtx c.g ((s.ctx c.g).setEr 4 61 (BitVec.ofNat 64 stat))).finishCmd c flags

/-- A participant's result written, and its COLL ended. -/
def State.collGive (s : State) (ps : List CollPart) (w : CollWait) : State :=
  let c := s.current w.cmd
  let rs := (List.range (c.collOutN ps.length)).map (s.collElem c ps)
  let s1 := if c.collWrites then s.collPut c (rs.map (·.1)) else s
  s1.endColl c 0 (Machine.orFlags (rs.map (·.2)))

/-- A participant was lost: DST undefined, COLLST 2 (R195). -/
def State.collLose (s : State) (w : CollWait) : State :=
  let c := s.current w.cmd
  let vs := (List.range (c.collOutN c.aux.length)).map fun e => (s.free 4102 e).toNat % 2 ^ c.cont c.collOut
  let s1 := if c.collWrites then s.collPut c vs else s
  s1.endColl c 2 0

/-- A participant of a collective that has failed ends with its COLLST: 1 leaves DST as it is, 2 undefined (R195). -/
def State.collFailed (s : State) (w : CollWait) (stat : Nat) : State :=
  if stat = 1 then s.endColl w.cmd 1 0 else s.collLose w

/-- The contexts of this module that the groups of some COLLs name. -/
def State.collNamed (s : State) (cs : List Cmd) : List Nat :=
  ((cs.flatMap (·.aux)).filterMap fun e => if bits e 7 0 = s.trust.myIdx then some (bits e 17 8) else none).eraseDups

/-- The collective of a SEQ fails (R195): every participant that has arrived ends, and those that arrive later will, but
for the contexts that are `gone`; `more` are COLLs of the SEQ that have not started. -/
def State.failSeq (s : State) (seq : Word) (stat : Nat) (gone : List Nat) (more : List Cmd := []) : State :=
  let ws := s.colls.filter fun w => w.seq == seq
  let left := (s.collNamed (ws.map (·.cmd) ++ more)).filter fun g => !gone.contains g && !ws.any fun w => w.cmd.g == g
  let s1 := ws.foldl (fun t w => t.collFailed w stat) { s with colls := s.colls.filter fun w => w.seq != seq }
  if left.isEmpty then s1 else { s1 with collEnds := ⟨seq, stat, left⟩ :: s1.collEnds }

/-- Participants that arrive after their collective has failed. -/
def State.lateColl (s : State) (e : CollEnd) : State :=
  let ws := s.colls.filter fun w => w.seq == e.seq
  let left := e.left.filter fun g => !ws.any fun w => w.cmd.g == g
  let rest := s.collEnds.filter fun x => x.seq != e.seq
  ws.foldl (fun t w => t.collFailed w e.stat) { s with
    colls := s.colls.filter fun w => w.seq != e.seq
    collEnds := if left.isEmpty then rest else { e with left := left } :: rest }

/-- What must agree among the ranks of one SEQ (R195). -/
def CollWait.key (w : CollWait) : List Word × Nat × Nat × Nat :=
  (w.cmd.aux, w.cmd.collN, w.cmd.collOp.1.code.toNat * 16 + w.cmd.collOp.2.code.toNat, bits (w.cmd.reg 4) 3 0)
def remoteKey (r : RemoteRank) : List Word × Nat × Nat × Nat := (r.group, r.count, r.cmd.toNat, r.rtype.toNat)

/-- Do the ranks that have arrived disagree, or claim a rank twice? -/
def collMismatch (ws : List CollWait) (rs : List RemoteRank) : Bool :=
  let keys := ws.map (·.key) ++ rs.map remoteKey
  keys.any (fun k => k != keys.headD ([], 0, 0, 0)) || !distinct (ws.map (fun w => w.cmd.collRank) ++ rs.map (·.rank))

/-- The participants in rank order: none while one of the np ranks is missing. -/
def inRankOrder (np : Nat) (ps : List CollPart) : Option (List CollPart) :=
  (List.range np).mapM fun r => ps.find? fun p => p.rank == r

/-- Can a rank that a group names no longer take part: a context whose gang has failed, or a member of the pod that cannot be
reached (R195, R385)? -/
def State.rankLost (s : State) (e : Word) : Bool :=
  let m := bits e 7 0
  if m = s.trust.myIdx then s.collLost.contains (bits e 17 8)
  else decide (m < s.trust.members.length) && (s.trust.routes.get? m).isNone

/-- COLL_COMPLETE (R195): the collective of this SEQ ends: mismatched, lost, or done once every rank has arrived and its
writes need not wait (R206, R323). -/
def execCollComplete (seq : Word) (remote : List RemoteRank) (s : State) : Outcome :=
  let ws := s.colls.filter fun w => w.seq == seq
  let rest := { s with colls := s.colls.filter fun w => w.seq != seq }
  match ws, s.collEnds.find? fun e => e.seq == seq with
  | [], _ => .next s
  | _ :: _, some e => .next (s.lateColl e)
  | w :: _, none =>
    if collMismatch ws (remote.filter fun r => !r.failed) then .next (s.failSeq seq 1 [])
    else if remote.any (·.failed) || ws.any fun w => w.cmd.aux.any s.rankLost then .next (s.failSeq seq 2 [])
    else if ws.any fun x => s.collPutWaits x.cmd then .next s
    else
      let r := rest.collParts ws
      match inRankOrder w.cmd.aux.length (r.2 ++ remote.map (remotePart w.cmd)) with
      | none => .next s
      | some ps => .next (ws.foldl (fun t x => t.collGive ps x) r.1)

end Sys2Proof.Machine
end

