-- ==== Sys2Proof/Machine/MemOps.lean ====
section
/-! DEFINITION. The meanings of the L and S slots: loads and stores (R225, R226), versions and the validation set (R227
to R231), atomics and the near combiner (R232 to R234), futures (R235, R236), release, fence and monitored wait (R237 to
R239), probe and prefetch (R240, R241), with their records (R242, R243). Each is performed at its issue (log 6). -/

namespace Sys2Proof.Machine
open Sys2Proof

/-- Pointer tags accepted (R221). -/
def tagsAll : List Nat := [0, 1, 2, 3, 4]
def tagsHome : List Nat := [0, 4]
def tagsBank : List Nat := [0, 1, 2, 4]
def tagsDev : List Nat := [0]

/-- Does an address lie in a scratchpad bank by its tag? -/
def bankTag (va : Word) : Bool := tagOf va == 1 || tagOf va == 2 || tagOf va == 3

/-- Bound of a load or returning atomic (R221). -/
def memBound (va : Word) : Nat := if bankTag va then 6 else 64

/-- The fault of a memory operation at issue: address, store data, operand or expected value, and what is held unseen
(R242). -/
def State.memFault (s : State) (cause : Nat) (va data : Word) (hold : Vec) (bound : Nat) (dests : List RegN) : State :=
  s.fault { s.sylFault cause va data bound dests with hold := hold }

/-- An operation that returns a result from memory: late where its latency varies (R23). -/
def State.memOp (s : State) (va : Word) (wr : List Wr) (form : RecForm) : Op :=
  { s.op (memBound va) wr 0 form with late := !bankTag va }

/-! ### What the operations do -/

/-- The version of a resident line. -/
def State.verOf (s : State) (ia : Nat) : Word :=
  match (s.slice (homeSlice ia)).lines.get? (ia / 1024) with
  | some y => y.ver
  | none => 0

/-- The word and the version that a version operation finds at home, in one point of the line's order (R209). `write`: it
may also write there, so that its page needs W (R322). -/
def State.wordVer (s : State) (g : Nat) (p : Place) (write : Bool) : State × Word × Word :=
  match p with
  | .home ia w _ =>
    let r := s.homeLoad g ia 8 (s.acc g w (.pod, g)) true write
    (r.1.failed g r.2, leWord (s.bytesOr 8 r.2), r.1.verOf ia)
  | .remote m ia _ =>
    (s, (Config.remoteRead s.fresh m ia).truncate 64, ((Config.remoteRead s.fresh m ia) >>> 64).truncate 64)
  | .bank _ _ | .bad _ => (s, 0, 0)

/-- The version that a VGET finds at home, the line becoming resident; the word is not read (R230). -/
def State.versionAt (s : State) (g : Nat) (p : Place) : State × Word :=
  match p with
  | .home ia w _ =>
    (match (s.ahead g ia w.world).versionOf ia (s.acc g w (.pod, g)) with
    | (s1, .ok v) => (s1, v)
    | (s1, .pageFault) => (s1.setAsync g 0x20, (s.free s.iss.slot 67).truncate 64)
    | (s1, .poisoned) => (s1.setAsync g 0x23, (s.free s.iss.slot 67).truncate 64))
  | .remote m ia _ => (s, ((Config.remoteRead s.fresh m ia) >>> 64).truncate 64)
  | .bank _ _ | .bad _ => (s, 0)

/-- The pair of a line and a version (R227). -/
def State.pairOf (s : State) (p : Place) (ver : Word) : Option VPair :=
  match p with
  | .home ia _ _ => some ⟨s.trust.myIdx, ia / 1024, ver⟩
  | .remote m ia _ => some ⟨m, ia / 1024, ver⟩
  | .bank _ _ | .bad _ => none

/-- The register after a pair's first one. -/
def pairOf2 (d : Reg) : Reg := d + 1

/-- What an atomic does to the old value: the word to store, or none where a compare fails. Codes 0 to 6 are those of
the combiner, 7 is cas, with its second operand. -/
def atomNew (code : Nat) (w64 : Bool) (old x y : Word) : Option Word :=
  if code = 7 then
    if (if w64 then decide (old = x) else decide ((old.truncate 32 : BitVec 32) = x.truncate 32)) then some y else none
  else some (atomOp code w64 old x)

/-- The old value as it is written to a register (R232). -/
def atomOld (w64 : Bool) (old : Word) : Word := if w64 then old else (old.truncate 32 : BitVec 32).signExtend 64

/-- One atomic performed at a bank in its single order (R233). -/
def State.atomBank (s : State) (g cl off code : Nat) (w64 : Bool) (x y : Word) : State × Word :=
  let n := if w64 then 8 else 4
  let old := leWord (s.bankLoad g cl off n)
  match atomNew code w64 old x y with
  | some v => (s.bankStore g cl off (leBytes n v.toNat), old)
  | none => (s, old)

/-- One atomic performed at home in the line's order; with `spc`, only where the version is y (R233). -/
def State.atomHome (s : State) (g ia : Nat) (a : Acc) (code : Nat) (w64 spc : Bool) (x y : Word) : State × Word × Word :=
  let n := if w64 then 8 else 4
  match s.homeLoad g ia n a true true with
  | (s1, .ok bs) =>
    let old := leWord bs
    let ver := s1.verOf ia
    let new := if spc && decide (ver ≠ y) then none else atomNew code w64 old x y
    match new with
    | some v => (s1.homeStore g ia (leBytes n v.toNat) a true, old, ver)
    | none => (s1, old, ver)
  | (s1, .pageFault) => (s1.setAsync g 0x20, (s.free s.iss.slot 66).truncate 64, (s.free s.iss.slot 67).truncate 64)
  | (s1, .poisoned) => (s1.setAsync g 0x23, (s.free s.iss.slot 66).truncate 64, (s.free s.iss.slot 67).truncate 64)

/-- Does an entry of the near combiner have this key (R234)? -/
def Comb.has (e : Comb) (member ia code : Nat) (w64 : Bool) (world : Byte) : Bool :=
  e.member == member && e.ia == ia && e.op == code && e.w64 == w64 && e.world == world

/-- A .qnt atomic taken by an open entry of the cluster's combiner: the state and the old value (R234). -/
def State.combTake (s : State) (cl k : Nat) (x : Word) : State × Word :=
  let c := s.cl cl
  match c.comb[k]? with
  | none => (s, 0)
  | some e =>
    let p := atomOp e.op e.w64 e.pend x
    (s.setCl cl { c with comb := c.comb.set k { e with pend := p, count := e.count + 1 } }, atomOp e.op e.w64 e.base e.pend)

/-- An entry that already holds 64 operations is flushed first (R234). -/
def State.combFull (s : State) (cl k : Nat) : State :=
  match (s.cl cl).comb[k]? with
  | some e => if e.count ≥ 64 then s.flushComb cl k else s
  | none => s

/-- A .qnt atomic (R234): it opens an entry where none has its key, with the word read at home as the base. -/
def State.atomComb (s : State) (g : Nat) (p : Place) (code : Nat) (w64 : Bool) (x : Word) : State × Word :=
  let cl := clusterOf g
  let n := if w64 then 8 else 4
  let key : Nat × Nat × Byte := match p with
    | .home ia w _ => (s.trust.myIdx, ia, w.world)
    | .remote m ia w => (m, ia, w.world)
    | .bank _ _ | .bad _ => (0, 0, 0)
  let idx := fun (t : State) => (t.cl cl).comb.findIdx? fun e => e.has key.1 key.2.1 code w64 key.2.2
  let s1 := match idx s with
    | some k => s.combFull cl k
    | none => s
  match idx s1 with
  | some k => s1.combTake cl k x
  | none =>
    let s2 := if (s1.cl cl).comb.length ≥ 32 then s1.flushComb cl 0 else s1
    let r : State × Word := match p with
      | .home ia w _ =>
        let q := s2.homeLoad g ia n (s2.acc g w (.pod, g)) true
        (q.1.failed g q.2, leWord (s2.bytesOr n q.2))
      | .remote m ia _ => (s2, leWord (leBytes n (Config.remoteRead s2.fresh m ia).toNat))
      | .bank _ _ | .bad _ => (s2, 0)
    let c := r.1.cl cl
    let e : Comb := ⟨key.2.1, key.1, key.2.2, code, w64, r.2, atomId code w64, 0, s.clock, g⟩
    (r.1.setCl cl { c with comb := c.comb ++ [e] }).combTake cl c.comb.length x

/-- Are s(D) and s(D+1) a pair of operands (R52)? -/
def atomPair (code : Nat) (o : Ord) : Bool := code == 7 || o == .spc

/-- An old value or version found. -/
def wrN (d : Nat) (v : Word) : Wr := ⟨.s d, v.zeroExtend 256⟩

/-- A CASV performed (R231): old word and version found. -/
def State.casv (s : State) (g : Nat) (m : MemOp) : State × Word × Word :=
  let r := s.wordVer g m.place true
  let hit := decide (r.2.2 = m.y.truncate 64)
  let s1 := match m.place with
    | .home ia w _ =>
      if hit && ((r.1.ctx g).async == (s.ctx g).async) then
        r.1.homeStore g ia (leBytes 8 m.x.toNat) (r.1.acc g w (.pod, g)) true
      else r.1
    | .remote k ia w => r.1.sendOp k ia w.world m.syl m.x (m.y.truncate 64)
    | .bank _ _ | .bad _ => r.1
  (s1, r.2)

/-- An atomic performed (R233): old value and, with .spc, version found. -/
def State.atomAt (s : State) (g : Nat) (m : MemOp) (code : Nat) (w64 : Bool) : State × Word × Word :=
  match m.place with
  | .bank cl bo =>
    let q := s.atomBank g cl bo code w64 m.x (m.y.truncate 64)
    (q.1, q.2, 0)
  | .home ia w _ =>
    if m.ord = .qnt && decide (code < 6) then
      let q := (s.ahead g ia w.world).atomComb g m.place code w64 m.x
      (q.1, q.2, 0)
    else s.atomHome g ia (s.acc g w (.pod, g)) code w64 (m.ord == .spc) m.x (m.y.truncate 64)
  | .remote k ia w =>
    if m.ord = .qnt && decide (code < 6) then
      let q := s.atomComb g m.place code w64 m.x
      (q.1, q.2, 0)
    else (s.sendOp k ia w.world m.syl m.x (m.y.truncate 64),
      (Config.remoteRead s.fresh k ia).truncate 64, ((Config.remoteRead s.fresh k ia) >>> 64).truncate 64)
  | .bad _ => (s, 0, 0)

/-- What PROBE writes (R240). -/
def probeWord (p : Pte) : Word :=
  BitVec.ofNat 64 (1 + (if p.w then 2 else 0) + (if p.fx then 4 else 0) + p.cls.toNat * 8 + (if p.tier then 32 else 0) +
    (if p.mig then 64 else 0) + p.world.toNat * 256)

/-- An operation performed: the release side, the operation, the acquire side (R224, R252); its results, and the pair of
an LDV (R227). -/
def State.perform (s : State) (g : Nat) (m : MemOp) : State × List Wr × Option VPair :=
  let s0 := s.before g m.place m.rls
  match m.kind with
  | .load t =>
    let r := s0.loadAt g m.place m.size m.acq
    let v : Wr := match t with
      | some t => wrN m.dest (tyPut t (tyInt t (leWord r.2)))
      | none => ⟨.v m.dest, BitVec.ofNat 256 (leNat r.2)⟩
    (r.1.after g m.place m.acq, [v], none)
  | .store n => (s0.storeAt g m.place (leBytes n (if n = 32 then m.y.toNat else m.x.toNat)) m.rls (s.inTask g (s.earlier g m)),
    [], none)
  | .ldv =>
    let r := s0.wordVer g m.place false
    (r.1.after g m.place m.acq, [wrN m.dest r.2.1], r.1.pairOf m.place r.2.2)
  | .vget =>
    let r := s0.versionAt g m.place
    (r.1, [wrN m.dest r.2], none)
  | .casv =>
    let r := s0.casv g m
    (r.1.after g m.place m.acq, [wrN m.dest r.2.1, wrN (m.dest + 1) r.2.2], none)
  | .atom code w64 =>
    let r := s0.atomAt g m code w64
    (r.1.after g m.place m.acq,
      wrN m.dest (atomOld w64 r.2.1) :: (if m.ord = .spc then [wrN (m.dest + 1) r.2.2] else []), none)
  | .stf =>
    match m.place with
    | .home ia w _ => (s.homeStore g ia (leBytes 8 m.x.toNat) (s.acc g w (.pod, g)) true, [], none)
    | .remote k ia w => (s.sendOp k ia w.world m.syl m.x 0, [], none)
    | .bank _ _ | .bad _ => (s, [], none)
  | .rel => (s0.storeAt g m.place (leBytes 8 m.x.toNat) true false, [], none)
  | .probe =>
    match m.place with
    | .home ia w _ => (s.noteWalk ia, [wrN m.dest (((s.noteWalk ia).page ia false w.world).elim 0 probeWord)], none)
    | .bank _ _ | .remote _ _ _ | .bad _ => (s, [], none)
  | .fence sc => (s.fenceAt g sc, [], none)
  | .callt | .sync _ _ _ => (s, [], none)

/-- The first VALSET record written after a record (R243), by its place. -/
def nextValset : List Written → Written → Option Written
  | [], _ => none
  | w :: r, x => if w.step = x.step && w.slot = x.slot then r.find? fun y => y.set.isSome else nextValset r x

/-- The pair of a reissued LDV joins the set that its record belongs to (R243): the held set of that VALSET while it is
still to be reissued, nothing once it is gone, and the context's set with no VALSET record after it. -/
def State.joinReissued (s : State) (p : VPair) : State :=
  match s.iss.rec_ with
  | none => s
  | some w => match nextValset s.me.written w with
    | none => s.setMe { s.me with vset := s.me.vset.join p }
    | some y => { s with iss := { s.iss with todo := s.iss.todo.map fun t => match t.rec_ with
        | some x => if x.step = y.step && x.slot = y.slot then
            { t with rec_ := some { x with set := x.set.map fun v => v.join p } } else t
        | none => t } }

/-- An operation issues (R221): it is performed, or it waits with its bundle issued. `o` is its entry without results. -/
def State.issueMem (s : State) (o : Op) (m : MemOp) : State :=
  let g := s.cur
  if s.mustHold g (heldIn s.me.pend) m then s.emitHeld { o with dests := m.dests } m
  else
    let r := s.perform g m
    if m.dests.isEmpty then r.1
    else
      let s1 := r.1.emit { o with dests := m.dests, wr := r.2.1, ldv := r.2.2, away := m.away }
      match s.iss.mode, r.2.2 with
      | .reissue, some x => s1.joinReissued x
      | _, _ => s1

/-- The memory operation of the syllable being issued. -/
def State.memOpOf (s : State) (kind : MemKind) (o : Ord) (p : Place) (d : Nat) (x : Word) (y : Vec) : MemOp :=
  ⟨kind, o, p, d, x, y, s.iss.syl, s.iss.slot, s.iss.step, s.me.nextLdf, s.me.binds⟩

/-! ### Loads and stores -/

/-- A load (R225), of an integer type or of 32 bytes. -/
def State.load (s : State) (d a : Reg) (off : Byte) (o : Ord) (t : Option ITy) : State :=
  let m := s.memOpOf (.load t) o (.bad 0) d.toNat 0 0
  let va := s.ea a off m.size
  match s.check s.cur va m.size m.size tagsAll permR false with
  | .bad c => s.memFault c va 0 0 (memBound va) m.dests
  | p => s.issueMem (s.memOp va [] (.recorded va 0 (isAcq o))) { m with place := p }

/-- A scalar load of an integer type (R225, R105). -/
def State.loadTy (s : State) (d a : Reg) (off : Byte) (o : Ord) (t : ITy) : State := s.load d a off o (some t)

/-- LD_I8 (R225). -/
def execLdI8 (d a : Reg) (off : Byte) (o : Ord) (s : State) : Outcome := .next (s.loadTy d a off o .i8)

/-- LD_I16 (R225). -/
def execLdI16 (d a : Reg) (off : Byte) (o : Ord) (s : State) : Outcome := .next (s.loadTy d a off o .i16)

/-- LD_I32 (R225). -/
def execLdI32 (d a : Reg) (off : Byte) (o : Ord) (s : State) : Outcome := .next (s.loadTy d a off o .i32)

/-- LD_I64 (R225). -/
def execLdI64 (d a : Reg) (off : Byte) (o : Ord) (s : State) : Outcome := .next (s.loadTy d a off o .i64)

/-- LD_N8 (R225). -/
def execLdN8 (d a : Reg) (off : Byte) (o : Ord) (s : State) : Outcome := .next (s.loadTy d a off o .n8)

/-- LD_N16 (R225). -/
def execLdN16 (d a : Reg) (off : Byte) (o : Ord) (s : State) : Outcome := .next (s.loadTy d a off o .n16)

/-- LD_N32 (R225). -/
def execLdN32 (d a : Reg) (off : Byte) (o : Ord) (s : State) : Outcome := .next (s.loadTy d a off o .n32)

/-- LDVEC (R225). -/
def execLdvec (d a : Reg) (off : Byte) (o : Ord) (s : State) : Outcome :=
  .next (s.load d a off o none)

/-- A store of n bytes (R226) of `x`, or of 32 bytes of `y`: `x` goes into words 4-5 and `y` is held unseen where it
faults. -/
def State.store (s : State) (a : Reg) (off : Byte) (o : Ord) (n : Nat) (x : Word) (y : Vec) : State :=
  let va := s.ea a off n
  match s.check s.cur va n n tagsAll permW true with
  | .bad c => s.memFault c va x y 0 []
  | p => s.issueMem (s.op 0 [] 0 .completed) (s.memOpOf (.store n) o p 0 x y)

/-- A scalar store of n bytes. -/
def State.storeN (s : State) (d a : Reg) (off : Byte) (o : Ord) (n : Nat) : State := s.store a off o n (s.opD d) 0

/-- ST_8 (R226). -/
def execSt8 (d a : Reg) (off : Byte) (o : Ord) (s : State) : Outcome := .next (s.storeN d a off o 1)

/-- ST_16 (R226). -/
def execSt16 (d a : Reg) (off : Byte) (o : Ord) (s : State) : Outcome := .next (s.storeN d a off o 2)

/-- ST_32 (R226). -/
def execSt32 (d a : Reg) (off : Byte) (o : Ord) (s : State) : Outcome := .next (s.storeN d a off o 4)

/-- ST_64 (R226). -/
def execSt64 (d a : Reg) (off : Byte) (o : Ord) (s : State) : Outcome := .next (s.storeN d a off o 8)

/-- STVEC (R226). -/
def execStvec (d a : Reg) (off : Byte) (o : Ord) (s : State) : Outcome :=
  .next (s.store a off o 32 0 (s.opHold (s.srcV d 2)))

/-! ### Versions -/

/-- LDV (R227). -/
def execLdv (d a : Reg) (off : Byte) (o : Ord) (s : State) : Outcome :=
  let va := s.ea a off 8
  match s.check s.cur va 8 8 tagsHome permR false with
  | .bad c => .next (s.memFault c va 0 0 64 [.s d.toNat])
  | p => .next (s.issueMem (s.memOp va [] (.recorded va 0 (isAcq o))) (s.memOpOf .ldv o p d.toNat 0 0))

/-- VGET (R230). -/
def execVget (d a : Reg) (off : Byte) (s : State) : Outcome :=
  let va := s.ea a off 8
  match s.check s.cur va 8 8 tagsHome permR false with
  | .bad c => .next (s.memFault c va 0 0 64 [.s d.toNat])
  | p => .next (s.issueMem (s.memOp va [] (.recorded va 0 false)) (s.memOpOf .vget .unp p d.toNat 0 0))

/-- VALSET (R228): it takes the set and the unlanded LDVs, and is checked when it lands. A reissue checks its held set. -/
def execValset (d : Reg) (s : State) : Outcome :=
  match s.iss.mode, s.iss.rec_ with
  | .reissue, some w =>
    let ok := s.validates (w.set.getD VSet.empty)
    .next (s.emit (s.op 64 [wrP d (if ok then 0xFF else 0x00)] 0 (.recorded 0 0 true)))
  | _, _ =>
    let c := s.me
    let s1 := s.setMe { c with vset := VSet.empty }
    .next (s1.emit { s1.op 64 [wrP d 0] 0 (.recorded 0 0 true) with late := true, check := some c.vset })

/-- VCLR (R228). -/
def execVclr (s : State) : Outcome := .next (s.atEnd .vclr)

/-- CASV (R231). -/
def execCasv (d a : Reg) (off : Byte) (o : Ord) (s : State) : Outcome :=
  let va := s.ea a off 8
  let new := s.opD d
  let ver := s.opHold ((s.srcS (pairOf2 d) 3).zeroExtend 256)
  let m := s.memOpOf .casv o (.bad 0) d.toNat new ver
  match s.check s.cur va 8 8 tagsHome permRW true with
  | .bad c => .next (s.memFault c va new ver 64 m.dests)
  | p => .next (s.issueMem (s.memOp va [] .completed) { m with place := p })

/-! ### Atomics (R232, R233) -/

/-- ATOM (R232, R233): codes 0 to 7 are add, min, max, and, or, xor, xchg, cas. -/
def State.atom (s : State) (d a : Reg) (off : Byte) (o : Ord) (code : Nat) (w64 : Bool) : State :=
  let n := if w64 then 8 else 4
  let va := s.ea a off n
  let x := s.opD d
  let y := if atomPair code o then s.opHold ((s.srcS (pairOf2 d) 3).zeroExtend 256) else 0
  let spc := decide (o = .spc)
  let m := s.memOpOf (.atom code w64) o (.bad 0) d.toNat x y
  match s.check s.cur va n n (if spc then tagsHome else tagsBank) permRW true with
  | .bad c => s.memFault c va x y (if spc then 64 else memBound va) m.dests
  | p => s.issueMem (s.memOp va [] .completed) { m with place := p }

/-- ATOM_ADD (R232). -/
def execAtomAdd (d a : Reg) (off : Byte) (o : Ord) (s : State) : Outcome := .next (s.atom d a off o 0 true)

/-- ATOM_MIN (R232). -/
def execAtomMin (d a : Reg) (off : Byte) (o : Ord) (s : State) : Outcome := .next (s.atom d a off o 1 true)

/-- ATOM_MAX (R232). -/
def execAtomMax (d a : Reg) (off : Byte) (o : Ord) (s : State) : Outcome := .next (s.atom d a off o 2 true)

/-- ATOM_AND (R232). -/
def execAtomAnd (d a : Reg) (off : Byte) (o : Ord) (s : State) : Outcome := .next (s.atom d a off o 3 true)

/-- ATOM_OR (R232). -/
def execAtomOr (d a : Reg) (off : Byte) (o : Ord) (s : State) : Outcome := .next (s.atom d a off o 4 true)

/-- ATOM_XOR (R232). -/
def execAtomXor (d a : Reg) (off : Byte) (o : Ord) (s : State) : Outcome := .next (s.atom d a off o 5 true)

/-- ATOM_XCHG (R232). -/
def execAtomXchg (d a : Reg) (off : Byte) (o : Ord) (s : State) : Outcome := .next (s.atom d a off o 6 true)

/-- ATOM_CAS (R232). -/
def execAtomCas (d a : Reg) (off : Byte) (o : Ord) (s : State) : Outcome := .next (s.atom d a off o 7 true)

/-- ATOM_ADD_I32 (R232). -/
def execAtomAddI32 (d a : Reg) (off : Byte) (o : Ord) (s : State) : Outcome := .next (s.atom d a off o 0 false)

/-- ATOM_MIN_I32 (R232). -/
def execAtomMinI32 (d a : Reg) (off : Byte) (o : Ord) (s : State) : Outcome := .next (s.atom d a off o 1 false)

/-- ATOM_MAX_I32 (R232). -/
def execAtomMaxI32 (d a : Reg) (off : Byte) (o : Ord) (s : State) : Outcome := .next (s.atom d a off o 2 false)

/-- ATOM_AND_I32 (R232). -/
def execAtomAndI32 (d a : Reg) (off : Byte) (o : Ord) (s : State) : Outcome := .next (s.atom d a off o 3 false)

/-- ATOM_OR_I32 (R232). -/
def execAtomOrI32 (d a : Reg) (off : Byte) (o : Ord) (s : State) : Outcome := .next (s.atom d a off o 4 false)

/-- ATOM_XOR_I32 (R232). -/
def execAtomXorI32 (d a : Reg) (off : Byte) (o : Ord) (s : State) : Outcome := .next (s.atom d a off o 5 false)

/-- ATOM_XCHG_I32 (R232). -/
def execAtomXchgI32 (d a : Reg) (off : Byte) (o : Ord) (s : State) : Outcome := .next (s.atom d a off o 6 false)

/-- ATOM_CAS_I32 (R232). -/
def execAtomCasI32 (d a : Reg) (off : Byte) (o : Ord) (s : State) : Outcome := .next (s.atom d a off o 7 false)

/-! ### Futures (R235, R236) -/

/-- Member and IA of an access at a home slice. -/
def State.homeAt (s : State) (p : Place) : Nat × Nat × Byte :=
  match p with
  | .home ia w _ => (s.trust.myIdx, ia, w.world)
  | .remote m ia w => (m, ia, w.world)
  | .bank _ _ | .bad _ => (0, 0, 0)

/-- An LDF sent to its slice (R235). `gone` says that its destination is superseded. -/
def State.sendLdf (s : State) (d : Reg) (va : Word) (p : Place) (gone : Bool) : State :=
  let c := s.me
  let h := s.homeAt p
  let id := c.nextLdf + 1
  s.setMe { c with
    nextLdf := id
    ldfs := c.ldfs ++ [⟨id, s.iss.syl, s.iss.step, d.toNat, va, h.2.1, h.1, h.2.2, .sent, 0, 0, 0, gone⟩] }

/-- Has the answer of a recorded LDF landed, and its entry gone with an FWAIT of the handler (R311, R347)? -/
def State.ldfDone (s : State) : Bool :=
  match s.iss.rec_ with
  | some w => decide (w.ldf ≠ 0) && !s.me.ldfs.any fun l => l.id == w.ldf
  | none => false

/-- The entry that a reissued LDF stands for. -/
def State.ldfOld (s : State) : Option Ldf :=
  match s.iss.rec_ with
  | some w => if w.ldf = 0 then none else s.me.ldfs.find? fun l => l.id == w.ldf
  | none => none

/-- LDF (R235). A reissue sends nothing for an unchanged address or an answer that has landed (R347). -/
def execLdf (d a : Reg) (off : Byte) (s : State) : Outcome :=
  let g := s.cur
  let va := s.ea a off 8
  match s.ldfOld with
  | some l =>
    if l.at_ = .answered || va = l.va then .next s
    else match s.check g va 8 8 tagsHome permR false with
      | .bad c => .next (s.memFault c va 0 0 0 [])
      | p =>
        let s1 := s.setMe { s.me with ldfs := s.me.ldfs.filter fun x => x.id != l.id }
        .next (s1.sendLdf d va p l.gone)
  | none =>
    if s.ldfDone then .next s
    else match s.check g va 8 8 tagsHome permR false with
      | .bad c => .next (s.memFault c va 0 0 0 [.s d.toNat])
      | p => .next (s.sendLdf d va p (s.superseded.contains (.s d.toNat)))

/-- STF (R236): a full word answers the deferred LDFs on it. -/
def execStf (d a : Reg) (off : Byte) (s : State) : Outcome :=
  let va := s.ea a off 8
  let x := s.opD d
  match s.check s.cur va 8 8 tagsHome permW true with
  | .bad c => .next (s.memFault c va x 0 0 [])
  | p => .next (s.issueMem (s.op 0 [] 0 .completed) (s.memOpOf .stf .unp p 0 x 0))

/-! ### Release, fence and monitored wait (R237 to R239) -/

/-- REL (R237). -/
def execRel (d a : Reg) (off : Byte) (s : State) : Outcome :=
  let va := s.ea a off 8
  let x := s.opD d
  match s.check s.cur va 8 8 tagsBank permW true with
  | .bad c => .next (s.memFault c va x 0 0 [])
  | p => .next (s.issueMem (s.op 0 [] 0 .completed) (s.memOpOf .rel .unp p 0 x 0))

/-- FENCE (R238). -/
def execFence (sc : Scope) (s : State) : Outcome :=
  .next (s.issueMem (s.op 0 [] 0 .completed) (s.memOpOf (.fence sc) .unp (.bad 0) 0 0 0))

/-- An MWAIT whose bundle issues. One that did not block has not armed its monitor, its validation set holding a stale pair: its
line's dirty bytes go home now (R222), and its page is tested (R322). -/
def State.mwaitDone (s : State) (ia : Nat) (w : Window) : State :=
  let g := s.cur
  match s.me.monitor with
  | some _ => s.setMe { s.me with monitor := none }
  | none =>
    let s1 := (s.ahead g ia w.world).noteWalk ia
    match s1.page ia false w.world with
    | none => s1.setAsync g 0x20
    | some _ => s1

/-- MWAIT (R239): its bundle has waited, and the monitor is done with. A reissue of a faulting record is woken at once,
since a spurious event may occur at any time. -/
def execMwait (_d a : Reg) (off : Byte) (s : State) : Outcome :=
  let va := s.ea a off 8
  match s.check s.cur va 8 8 tagsDev permR false with
  | .bad c => .next (s.memFault c va 0 0 0 [])
  | .home ia w _ => .next (s.mwaitDone ia w)
  | .bank _ _ => .next (s.setMe { s.me with monitor := none })
  | .remote _ _ _ => .next (s.setMe { s.me with monitor := none })

/-! ### Probe and prefetch (R240, R241) -/

/-- PROBE (R240): the probe fault is taken where the entry is not valid or its world is not the context's, and where the
access meets a page fault by the world of its window (R322). Its entry is tested at issue; one that an acquire holds (R224)
reads the entry when it is performed, and 0 where that is valid no longer (log 123). -/
def execProbe (d a : Reg) (off : Byte) (s : State) : Outcome :=
  let g := s.cur
  let va := s.ea a off 8
  match s.check g va 1 1 tagsDev permR false with
  | .bad c => .next (s.memFault c va 0 0 64 [.s d.toNat])
  | .home ia w pol =>
    match (s.noteWalk ia).page ia false w.world with
    | none => .next (s.memFault 0x04 va 0 0 64 [.s d.toNat])
    | some p =>
      if p.world = s.me.worldB then
        .next (s.issueMem (s.memOp va [] (.recorded va 0 false)) (s.memOpOf .probe .unp (.home ia w pol) d.toNat 0 0))
      else .next (s.memFault 0x04 va 0 0 64 [.s d.toNat])
  | .bank _ _ => .next s
  | .remote _ _ _ => .next s

/-- PFT (R241): the line is filled into the L1 (level 0) or its home slice (level 1); anything that would fault an access,
or make it wait (R224, R238, R313), makes it do nothing. It is no plain load, so the scope checker does not examine it
(R373). -/
def execPft (d a : Reg) (off : Byte) (s : State) : Outcome :=
  let g := s.cur
  let va := s.ea a off 8
  match s.check g va 1 1 tagsAll permR false with
  | .home ia w pol =>
    let c := s.acc g w (.pod, g)
    if s.mustHold g (heldIn s.me.pend) (s.memOpOf .vget .unp (.home ia w pol) 0 0 0) then .next s
    else if d = 0#6 then
      if pol = 2 then .next s
      else match s.l1Load (coreOf g) ia 1 pol c with
        | (s1, .ok _, _) => .next s1
        | (_, .pageFault, _) => .next s
        | (_, .poisoned, _) => .next s
    else match (s.ahead g ia w.world).homeRead ia 1 c false with
      | (s1, .ok _) => .next s1
      | (_, .pageFault) => .next s
      | (_, .poisoned) => .next s
  | .bank _ _ => .next s
  | .remote _ _ _ => .next s
  | .bad _ => .next s

end Sys2Proof.Machine
end

