-- ==== Sys2Proof/Machine/Quick.lean ====
section
/-! DEFINITION. The meanings of the Q slot: scale registers and format descriptors (R196 to R198). -/

namespace Sys2Proof.Machine
open Sys2Proof

/-- Does a command write bytes of a bank, or a copy touch them (R196)? -/
def touchesBank (c : Cmd) (cl off n : Nat) : Bool :=
  if c.eng = 3 then c.boardEntries.any fun b => b.1 == cl && meets (rng off n) (b.2.lo, b.2.hi)
  else decide (clusterOf c.g = cl) && c.outs.any (meets (rng off n))

/-- Does an unfinished command of this module write bytes of a bank, or an unfinished copy touch them (R196)? -/
def State.unsettled (s : State) (cl off n : Nat) : Bool :=
  (s.cores.any fun k => k.2.tdt.any fun e => touchesBank e.cmd cl off n) ||
    s.ctxs.any fun e => (e.2.pend.filterMap (·.submitted)).any fun c => touchesBank c cl off n

/-- QLD (R196): no interlock holds it; its address is recorded, and a reissue reloads from it. -/
def execQld (q : BitVec 4) (a : Reg) (imm : BitVec 12) (s : State) : Outcome :=
  let g := s.cur
  let va := match s.iss.ov with
    | some o => o.1
    | none => s.srcS a 0 + 8 * imm.signExtend 64
  let dest := RegN.q q.toNat
  match s.check g va 8 8 [1, 2, 3] permR false with
  | .bank cl off =>
    let v := if s.unsettled cl off 8 then s.free s.iss.slot 65 else BitVec.ofNat 256 (leNat ((s.cl cl).spad.read off 8))
    .next (s.emit (s.op 6 [⟨dest, v⟩] 0 (.recorded va 0 false)))
  | .bad c => .next (s.memFault c va 0 0 6 [dest])
  | .home _ _ _ => .next (s.memFault 0x02 va 0 0 6 [dest])
  | .remote _ _ _ => .next (s.memFault 0x02 va 0 0 6 [dest])

/-- QMOV (R197). -/
def execQmov (q : BitVec 4) (a : Reg) (s : State) : Outcome :=
  .next (s.emit (s.op 1 [⟨.q q.toNat, (s.opA a).zeroExtend 256⟩] 0 .completed))

/-- Eight scale codes of one value. -/
def codes8 (c : Byte) : Word := c ++ c ++ c ++ c ++ c ++ c ++ c ++ c

/-- QSET (R197). -/
def execQset (q : BitVec 4) (c : Byte) (s : State) : Outcome :=
  .next (s.emit (s.op 1 [⟨.q q.toNat, (codes8 c).zeroExtend 256⟩] 0 .completed))

/-- FMTSET (R198): the write is made at the end of the bundle. -/
def execFmtset (f : BitVec 4) (a : Reg) (s : State) : Outcome :=
  .next (s.atEnd (.fmt f.toNat ((s.opA a).truncate 32)))

end Sys2Proof.Machine
end

