-- ==== Sys2Proof/Machine/Block.lean ====
section
/-! DEFINITION. What blocks a bundle (R15, R298): the condition of each syllable under which its bundle does not issue, and
what such a bundle leaves behind while it waits. -/

namespace Sys2Proof.Machine
open Sys2Proof

/-! ### Memory -/

/-- What an L- or S-slot operation asks of memory at issue: its address, its bytes, and whether it stores. -/
structure MemReq where
  a     : Reg
  off   : Byte
  n     : Nat
  tags  : List Nat
  perm  : Perm
  stack : Bool
  store : Bool
  deriving DecidableEq, Repr, Inhabited

def reqLoad (a : Reg) (off : Byte) (n : Nat) : MemReq := ⟨a, off, n, tagsAll, permR, false, false⟩
def reqStore (a : Reg) (off : Byte) (n : Nat) : MemReq := ⟨a, off, n, tagsAll, permW, true, true⟩
def reqVer (a : Reg) (off : Byte) (k : Perm) (store : Bool) : MemReq := ⟨a, off, 8, tagsHome, k, store, store⟩
def reqAtom (a : Reg) (off : Byte) (o : Ord) (n : Nat) : MemReq :=
  ⟨a, off, n, if o = .spc then tagsHome else tagsBank, permRW, true, true⟩

/-- The request of an instruction: none for one that accesses no bank. -/
def memReq : Instr → Option MemReq
  | .ldI8 _ a off _ | .ldN8 _ a off _ => some (reqLoad a off 1)
  | .ldI16 _ a off _ | .ldN16 _ a off _ => some (reqLoad a off 2)
  | .ldI32 _ a off _ | .ldN32 _ a off _ => some (reqLoad a off 4)
  | .ldI64 _ a off _ => some (reqLoad a off 8)
  | .ldvec _ a off _ => some (reqLoad a off 32)
  | .ldv _ a off _ | .vget _ a off => some (reqVer a off permR false)
  | .st8 _ a off _ => some (reqStore a off 1)
  | .st16 _ a off _ => some (reqStore a off 2)
  | .st32 _ a off _ => some (reqStore a off 4)
  | .st64 _ a off _ => some (reqStore a off 8)
  | .stvec _ a off _ => some (reqStore a off 32)
  | .stf _ a off => some (reqVer a off permW true)
  | .casv _ a off _ => some (reqVer a off permRW true)
  | .rel _ a off => some ⟨a, off, 8, tagsBank, permW, true, true⟩
  | .atomAdd _ a off o | .atomMin _ a off o | .atomMax _ a off o | .atomAnd _ a off o | .atomOr _ a off o
  | .atomXor _ a off o | .atomXchg _ a off o | .atomCas _ a off o => some (reqAtom a off o 8)
  | .atomAddI32 _ a off o | .atomMinI32 _ a off o | .atomMaxI32 _ a off o | .atomAndI32 _ a off o
  | .atomOrI32 _ a off o | .atomXorI32 _ a off o | .atomXchgI32 _ a off o | .atomCasI32 _ a off o =>
    some (reqAtom a off o 4)
  | _ => none

/-- Does the range scoreboard hold an access (R247)? -/
def State.memBlocks (s : State) (r : MemReq) : Bool :=
  let va := s.ea r.a r.off r.n
  match s.check s.cur va r.n r.n r.tags r.perm r.stack with
  | .bank cl off => decide (tagOf va ≠ 3) && s.held cl off r.n r.store
  | .home _ _ _ | .remote _ _ _ | .bad _ => false

/-! ### Monitored wait -/

/-- IA and window of an MWAIT: none where it faults (R239). -/
def State.mwaitAt (s : State) (a : Reg) (off : Byte) : Option (Nat × Window) :=
  match s.check s.cur (s.ea a off 8) 8 8 tagsDev permR false with
  | .home ia w _ => some (ia, w)
  | .bank _ _ | .remote _ _ _ | .bad _ => none

/-- Does the validation set hold a pair of the line whose version is no longer the line's (R239)? -/
def State.stalePair (s : State) (line : Nat) : Bool :=
  s.me.vset.pairs.any fun p => decide (p.member = s.trust.myIdx) && decide (p.line = line) &&
    (match (s.slice (homeSlice (line * 1024))).lines.get? line with
    | some y => decide (y.ver ≠ p.ver)
    | none => true)

/-- Does the arming of an MWAIT wait, as an operation at the line's home slice would (R222 to R224, R238, R313, R323)? -/
def State.armWaits (s : State) (ia : Nat) (w : Window) : Bool :=
  s.mustHold s.cur (heldIn s.me.pend) (s.memOpOf .vget .unp (.home ia w 0) 0 0 0)

/-- The monitor of a blocked MWAIT is armed at the line's home slice (R239), once the dirty bytes of the L1 line have gone
there (R222), and is woken as it arms where the line's version is then not that of the validation set; an access that meets a
page fault stops the context instead (R322). -/
def State.armMonitor (s : State) (ia : Nat) (w : Window) (limit : Nat) : State :=
  let g := s.cur
  if s.armWaits ia w then s
  else
    let s1 := (s.ahead g ia w.world).noteWalk ia
    match s1.page ia false w.world with
    | none => s1.setAsync g 0x20
    | some _ => s1.setMe { s1.me with monitor := some ⟨ia / 1024, s1.clock, limit, s1.stalePair (ia / 1024)⟩ }

/-! ### Engines -/

/-- Commands of ENG 0 to 4 that the contexts of a core have in their memory queues. -/
def State.submitting (s : State) (core : Nat) : Nat :=
  ((s.submittedOf core).filter fun c => decide (c.eng ≤ 4)).length

/-- Is the tile dependency table full (R180)? A command that waits in its memory queue has its entry. -/
def State.tableFull (s : State) : Bool :=
  decide ((s.core (coreOf s.cur)).waiting + s.submitting (coreOf s.cur) ≥ 32)

/-- Does a matrix command block: for the lease, the queue or the table (R158)? -/
def State.matrixBlocks (s : State) (mfree : Bool) : Bool :=
  if s.holds s.cur then s.tableFull || decide ((s.cl (clusterOf s.cur)).mq.length ≥ 16) else !mfree

/-- The kinds of X-slot command for blocking. -/
inductive XKind where
  | matrix (mfree : Bool) | table | other
  deriving DecidableEq, Repr, Inhabited

def xKind : Instr → XKind
  | .mlease | .mma _ _ | .mmas _ _ | .mgath _ | .accrd _ | .accwr _ | .accz => .matrix false
  | .mfree => .matrix true
  | .vecop _ | .cpy | .cpyd | .coll _ _ => .table
  | _ => .other

/-! ### FWAIT -/

/-- The clock at which the back-off of an FWAIT ends: none while an answer is missing, 0 without a NACK (R311). -/
def Ctx.fwaitEnd (c : Ctx) (a : Reg) (step : Nat) : Option Nat :=
  let ls := c.covered a step
  if ls.all fun l => l.at_ == .answered then some ((backoffEnd ls c.nb).getD 0) else none

/-! ### The condition of a syllable -/

/-- Does this syllable block its bundle (R15)? -/
def State.blockedBy (s : State) (i : Instr) : Bool :=
  match memReq i with
  | some r => s.memBlocks r
  | none => match xKind i with
    | .matrix f => s.matrixBlocks f
    | .table => s.tableFull
    | .other => match i with
      | .mwait _ a off => match s.mwaitAt a off with
        | none => false
        | some x => match s.me.monitor with
          | some m => !m.woken
          | none => s.armWaits x.1 x.2 || !s.stalePair (x.1 / 1024)
      | .fwait a => match s.me.fwaitEnd a s.iss.step with
        | none => true
        | some t => decide (s.clock < t)
      | .yield => !s.me.yielded
      | .tlwait e a b => decide ((vget s.me.tl e.toNat 0).toNat < (s.tlTarget e a b).toNat)
      | .phreg a => match s.phPlace s.cur (s.opA a) with
        | none => false
        | some p => s.phFull s.regs p.1 p.2
      | .phsig a | .phsw a => match s.held? (s.opA a) with
        | none => false
        | some r => s.phAhead r
      | .phwait a b => match s.phPhase (s.opA a) b with
        | none => false
        | some w => s.phPending w
      | _ => false

/-- What a blocked bundle leaves behind: an armed monitor (R239), a request for the lease (R158), a wait that its phaser
counts (R301), the end of a back-off (R311), a YIELD that has blocked once (R155). -/
def State.onBlock (s : State) (i : Instr) : State :=
  match xKind i with
  | .matrix f => if s.holds s.cur || f then s else s.request s.cur
  | .table => s
  | .other => match i with
    | .mwait d a off => match s.mwaitAt a off, s.me.monitor with
      | some x, none => s.armMonitor x.1 x.2 (bits (s.srcS d 2) 31 0)
      | _, _ => s
    | .fwait a => match s.me.fwaitEnd a s.iss.step with
      | some t => s.setMe { s.me with backoff := some t }
      | none => s
    | .yield => s.setMe { s.me with yielded := true }
    | .phwait a b => match s.phPhase (s.opA a) b with
      | some w => if s.phPending w then s.noteWait s.cur w else s
      | none => s
    | _ => s

end Sys2Proof.Machine
end

