-- ==== Sys2Proof/Machine/Scalar.lean ====
section
/-! DEFINITION. The meanings of the A slot: integers, addresses, predicates, control registers and WINSET (R111 to R126,
R336, R337), with their captured words (R112). -/

namespace Sys2Proof.Machine
open Sys2Proof

/-- An integer operation on A and B (R113): the result of `f` on the two values, recorded with both (R112). -/
def State.intOp (s : State) (d a : Reg) (b : Src) (bound : Nat) (f : Word → Word → Word) : State :=
  let x := s.opA a
  let y := s.opB b
  s.emitA d (f x y) bound (.recorded x y false) x y

/-- x op y computed on integers of a type (R113). -/
def arith (t : ITy) (f : Int → Int → Int) (x y : Word) : Word := tyPut t (f (tyInt t x) (tyInt t y))

/-- An operation on the bit patterns (R113). -/
def bitwise (t : ITy) (f : Word → Word → Word) (x y : Word) : Word := tyPut t (f x y).toNat

/-- DIV (R107, R113): rounded toward zero; all ones for a divisor 0. -/
def divInt (t : ITy) (x y : Int) : Int := if y = 0 then (if tySigned t then -1 else 2 ^ tyWidth t - 1) else x.tdiv y

/-- REM (R107, R113). -/
def remInt (x y : Int) : Int := if y = 0 then x else x.tmod y

/-- SHL, SHR and SAR on the n-bit pattern; the count is bits 5:0 (R106, R113). -/
def shlTy (t : ITy) (x y : Word) : Word := tyPut t (tyPat t x * 2 ^ bits y 5 0 : Nat)
def shrTy (t : ITy) (x y : Word) : Word := tyPut t (tyPat t x / 2 ^ bits y 5 0 : Nat)
def sarTy (t : ITy) (x y : Word) : Word := tyPut t ((BitVec.ofNat (tyWidth t) x.toNat).toInt / 2 ^ bits y 5 0)

/-- ADD (R113). -/
def execAdd (d a : Reg) (b : Src) (t : ITy) (s : State) : Outcome := .next (s.intOp d a b 1 (arith t (· + ·)))

/-- SUB (R113). -/
def execSub (d a : Reg) (b : Src) (t : ITy) (s : State) : Outcome := .next (s.intOp d a b 1 (arith t (· - ·)))

/-- MUL (R113). -/
def execMul (d a : Reg) (b : Src) (t : ITy) (s : State) : Outcome := .next (s.intOp d a b 3 (arith t (· * ·)))

/-- MULH (R113): the upper half of the product. -/
def execMulh (d a : Reg) (b : Src) (t : ITy) (s : State) : Outcome :=
  .next (s.intOp d a b 3 (arith t fun x y => x * y / 2 ^ tyWidth t))

/-- DIV (R113, R107). -/
def execDiv (d a : Reg) (b : Src) (t : ITy) (s : State) : Outcome := .next (s.intOp d a b 24 (arith t (divInt t)))

/-- REM (R113, R107). -/
def execRem (d a : Reg) (b : Src) (t : ITy) (s : State) : Outcome := .next (s.intOp d a b 24 (arith t remInt))

/-- AND (R113). -/
def execAnd (d a : Reg) (b : Src) (t : ITy) (s : State) : Outcome := .next (s.intOp d a b 1 (bitwise t (· &&& ·)))

/-- OR (R113). -/
def execOr (d a : Reg) (b : Src) (t : ITy) (s : State) : Outcome := .next (s.intOp d a b 1 (bitwise t (· ||| ·)))

/-- XOR (R113). -/
def execXor (d a : Reg) (b : Src) (t : ITy) (s : State) : Outcome := .next (s.intOp d a b 1 (bitwise t (· ^^^ ·)))

/-- ANDN (R113). -/
def execAndn (d a : Reg) (b : Src) (t : ITy) (s : State) : Outcome :=
  .next (s.intOp d a b 1 (bitwise t fun x y => x &&& ~~~ y))

/-- SHL (R113, R106). -/
def execShl (d a : Reg) (b : Src) (t : ITy) (s : State) : Outcome := .next (s.intOp d a b 1 (shlTy t))

/-- SHR (R113, R106). -/
def execShr (d a : Reg) (b : Src) (t : ITy) (s : State) : Outcome := .next (s.intOp d a b 1 (shrTy t))

/-- SAR (R113, R106). -/
def execSar (d a : Reg) (b : Src) (t : ITy) (s : State) : Outcome := .next (s.intOp d a b 1 (sarTy t))

/-- MIN (R113). -/
def execMin (d a : Reg) (b : Src) (t : ITy) (s : State) : Outcome :=
  .next (s.intOp d a b 1 (arith t fun x y => if x < y then x else y))

/-- MAX (R113). -/
def execMax (d a : Reg) (b : Src) (t : ITy) (s : State) : Outcome :=
  .next (s.intOp d a b 1 (arith t fun x y => if x < y then y else x))

/-! ### Immediates (R114) -/

/-- A 64-bit operation on A and an immediate, recorded with both (R112). -/
def State.immOp (s : State) (d a : Reg) (imm : Word) (f : Word → Word → Word) : State :=
  let x := s.opA a
  let y := s.opImm imm
  s.emitA d (f x y) 1 (.recorded x y false) x y

/-- ADD_RI (R114). -/
def execAddRi (d a : Reg) (imm : BitVec 12) (s : State) : Outcome := .next (s.immOp d a (imm.signExtend 64) (· + ·))

/-- AND_RI (R114). -/
def execAndRi (d a : Reg) (imm : BitVec 12) (s : State) : Outcome := .next (s.immOp d a (imm.signExtend 64) (· &&& ·))

/-- OR_RI (R114). -/
def execOrRi (d a : Reg) (imm : BitVec 12) (s : State) : Outcome := .next (s.immOp d a (imm.signExtend 64) (· ||| ·))

/-- XOR_RI (R114). -/
def execXorRi (d a : Reg) (imm : BitVec 12) (s : State) : Outcome := .next (s.immOp d a (imm.signExtend 64) (· ^^^ ·))

/-- SHL_RI (R114). -/
def execShlRi (d a : Reg) (cnt : BitVec 6) (s : State) : Outcome :=
  .next (s.immOp d a (cnt.zeroExtend 64) fun x y => x <<< bits y 5 0)

/-- SHR_RI (R114). -/
def execShrRi (d a : Reg) (cnt : BitVec 6) (s : State) : Outcome :=
  .next (s.immOp d a (cnt.zeroExtend 64) fun x y => x >>> bits y 5 0)

/-- SAR_RI (R114). -/
def execSarRi (d a : Reg) (cnt : BitVec 6) (s : State) : Outcome :=
  .next (s.immOp d a (cnt.zeroExtend 64) fun x y => x.sshiftRight (bits y 5 0))

/-- MOVH (R117). -/
def execMovh (d a : Reg) (imm : BitVec 12) (s : State) : Outcome :=
  .next (s.immOp d a (imm.zeroExtend 64) fun x y => (x <<< 12) ||| y)

/-- The mask of a field of len1 + 1 bits (R116). -/
def fieldMask (len1 : Nat) : Word := BitVec.ofNat 64 (2 ^ (len1 + 1) - 1)

/-- EXT (R116). -/
def execExt (d a : Reg) (len1 pos : BitVec 6) (s : State) : Outcome :=
  .next (s.immOp d a ((len1 ++ pos).zeroExtend 64) fun x y => (x >>> bits y 5 0) &&& fieldMask (bits y 11 6))

/-- A result whose only record is that of the stack-limit stop: the value and 0 (R112, R364). -/
def State.emitValue (s : State) (d : Reg) (v : Word) : State :=
  let w := match s.iss.ov with
    | some o => o.1
    | none => v
  s.emitA d w 1 .completed w 0

/-- INS (R116). -/
def execIns (d a : Reg) (len1 pos : BitVec 6) (s : State) : Outcome :=
  let m := fieldMask len1.toNat
  .next (s.emitValue d ((s.srcS d 2 &&& ~~~ (m <<< pos.toNat)) ||| ((s.srcS a 0 &&& m) <<< pos.toNat)))

/-- SEL (R119). -/
def execSel (d a : Reg) (b : Src) (p : Reg) (s : State) : Outcome :=
  let y := match b with
    | .reg r => s.srcS r 1
    | .bimm => s.bimmI
  .next (s.emitValue d (if (s.srcP p 2).getLsbD 0 then s.srcS a 0 else y))

/-! ### One source (R115, R117, R120) -/

/-- An operation on A alone, recorded with it (R112). -/
def State.oneOp (s : State) (d a : Reg) (bound : Nat) (f : Word → Word) : State :=
  let x := s.opA a
  s.emitA d (f x) bound (.recorded x 0 false) x 0

/-- CLZ (R115). -/
def execClz (d a : Reg) (t : ITy) (s : State) : Outcome :=
  .next (s.oneOp d a 1 fun x => BitVec.ofNat 64 (tyWidth t - (if tyPat t x = 0 then 0 else Nat.log2 (tyPat t x) + 1)))

/-- POPC (R115). -/
def execPopc (d a : Reg) (t : ITy) (s : State) : Outcome :=
  .next (s.oneOp d a 1 fun x => BitVec.ofNat 64 ((List.range (tyWidth t)).filter fun i => x.getLsbD i).length)

/-- ICVT (R120). -/
def execIcvt (d a : Reg) (dt st : ITy) (s : State) : Outcome :=
  .next (s.oneOp d a 3 fun x => tyPut dt (tyInt st x))

/-- MOV (R117). -/
def execMov (d : Reg) (b : Src) (t : ITy) (s : State) : Outcome :=
  let y := s.opB b
  .next (s.emitA d (tyPut t (tyInt t y)) 1 (.recorded 0 y false) 0 y)

/-- The tag of a space (R199). -/
def spaceTag : Space → Nat
  | .dev => 0 | .spd => 1 | .gsp => 2 | .loc => 3 | .rmt => 4

/-- LEA (R118). -/
def execLea (d a : Reg) (b : Src) (sp : Space) (sh : BitVec 2) (s : State) : Outcome :=
  .next (s.intOp d a b 1 fun x y =>
    BitVec.ofNat 64 (spaceTag sp * 2 ^ 60) ||| ((x + (y <<< sh.toNat)) &&& 0x0FFFFFFFFFFFFFFF#64))

/-! ### Predicates (R121 to R124) -/

/-- A predicate that holds or not (R121). -/
def flagP (b : Bool) : Byte := if b then 0xFF else 0x00

/-- The condition of CMP (R121). -/
def condHolds (c : Cond) (x y : Int) : Bool :=
  match c with
  | .eq => decide (x = y)
  | .ne => decide (x ≠ y)
  | .lt => decide (x < y)
  | .le => decide (x ≤ y)
  | .gt => decide (y < x)
  | .ge => decide (y ≤ x)

/-- CMP (R121). -/
def execCmp (d a : Reg) (b : Src) (t : ITy) (c : Cond) (s : State) : Outcome :=
  let x := s.opA a
  let y := s.opB b
  .next (s.emit (s.op 1 [wrP d (flagP (condHolds c (tyInt t x) (tyInt t y)))] 0 (.recorded x y false)))

/-- A predicate operation on pA and pB, recorded with both (R112, R122). -/
def State.predOp2 (s : State) (d a b : Reg) (f : Byte → Byte → Byte) : State :=
  let x := s.opPA a
  let y := s.opPB b
  s.emit (s.op 1 [wrP d (f x y)] 0 (.recorded (x.zeroExtend 64) (y.zeroExtend 64) false))

/-- A predicate operation on pA alone. -/
def State.predOp (s : State) (d a : Reg) (bound : Nat) (f : Byte → Byte) : State :=
  let x := s.opPA a
  s.emit (s.op bound [wrP d (f x)] 0 (.recorded (x.zeroExtend 64) 0 false))

/-- PAND (R122). -/
def execPand (d a b : Reg) (s : State) : Outcome := .next (s.predOp2 d a b (· &&& ·))

/-- POR (R122). -/
def execPor (d a b : Reg) (s : State) : Outcome := .next (s.predOp2 d a b (· ||| ·))

/-- PXOR (R122). -/
def execPxor (d a b : Reg) (s : State) : Outcome := .next (s.predOp2 d a b (· ^^^ ·))

/-- PNOT (R122). -/
def execPnot (d a : Reg) (s : State) : Outcome := .next (s.predOp d a 1 (~~~ ·))

/-- PMOV (R122). -/
def execPmov (d a : Reg) (s : State) : Outcome := .next (s.predOp d a 1 id)

/-- PANY (R123). -/
def execPany (d a : Reg) (s : State) : Outcome := .next (s.predOp d a 2 fun x => flagP (decide (x ≠ 0#8)))

/-- PALL (R123). -/
def execPall (d a : Reg) (s : State) : Outcome := .next (s.predOp d a 2 fun x => flagP (decide (x = 0xFF#8)))

/-- The predicates p(n) to p(n + 7) packed, lowest first (R124). -/
def State.packed (s : State) (n : Reg) : Word :=
  leWord ((List.range 8).map fun i => s.srcP (n + BitVec.ofNat 6 i) i)

/-- PPACK (R124). -/
def execPpack (d a : Reg) (s : State) : Outcome :=
  let x := match s.iss.ov with
    | some o => o.1
    | none => s.packed a
  .next (s.emitA d x 1 (.recorded x 0 false) x 0)

/-- PUNPK (R124). -/
def execPunpk (d a : Reg) (s : State) : Outcome :=
  let x := s.opA a
  let wr : List Wr := (List.range 8).map fun i => ⟨.p (d.toNat + i), (BitVec.ofNat 8 (x.toNat / 2 ^ (8 * i))).zeroExtend 256⟩
  .next (s.emit (s.op 1 wr 0 (.recorded x 0 false)))

/-! ### Control registers (R125, R126) and windows (R336) -/

/-- A control register as MFC reads it. -/
def Ctx.creg (c : Ctx) : CReg → Word
  | .epc => c.epc
  | .estat => c.estatRead
  | .thv => c.thv
  | .slim => c.slim
  | .ftb => c.ftb
  | .rqb => c.rqb
  | .rqn => c.rqn
  | .world => c.world
  | .rngs => c.rngs
  | .safeord => c.safeord

/-- MFC (R125). A reissue writes the value that was read (R112). -/
def execMfc (d : Reg) (r : CReg) (s : State) : Outcome :=
  let v := match s.iss.ov with
    | some o => o.1
    | none => s.me.creg r
  .next (s.emitA d v 2 (.recorded v 0 false) v 0)

/-- MTC (R126): the write is made at the end of the bundle; another world is the fatal world violation (R337). -/
def execMtc (a : Reg) (r : CReg) (s : State) : Outcome :=
  let v := s.opA a
  if r = .world then
    if v = s.me.world then .next s else .next (s.fault (s.sylFault 0x21 v 0 0 []))
  else .next (s.atEnd (.mtc r v))

/-- A word of a window with a masked write applied (R336). -/
def Window.word (w : Window) (part : Bool) : Word := if part then w.w1 else w.w0
def maskedWord (old mask val : Word) : Word := (old &&& ~~~mask) ||| (val &&& mask)

/-- WINSET (R336): computed from the window as it stood before the bundle, and written at the end of the bundle. -/
def execWinset (d a : Reg) (b : Src) (part : Bool) (s : State) : Outcome :=
  .next (s.atEnd (.win d.toNat part (maskedWord ((vget s.me.win d.toNat ⟨0, 0⟩).word part) (s.opB b) (s.opA a))))

end Sys2Proof.Machine
end

