-- ==== Sys2Proof/Machine/Bundle.lean ====
section
/-! DEFINITION. Issuing a bundle (R13 to R23, R33 to R58, R142 to R152, R340, R365 to R371): what is presented and checked,
what happens before its syllables and what after them, and the events of a context. The syllables themselves are
executed between `beginItem` and `endItem` by the step. -/

namespace Sys2Proof.Machine
open Sys2Proof

/-! ### The bundle presented -/

/-- Cases of C syllables for the places in which they may stand (R144, R152). -/
inductive CKind where
  | transfer | loop | trap | resume | free
  deriving DecidableEq, Repr, Inhabited

def cKind : Instr → CKind
  | .br _ _ _ _ | .call _ | .callt _ _ | .ret | .bswap _ => .transfer
  | .loop _ _ => .loop
  | .trap _ => .trap
  | .resume => .resume
  | _ => .free

/-- Is a syllable not accepted in its place: a delay bundle (R144), a LOOP body (R152), beside others (R358)? -/
def misplaced (delay body : Bool) (n : Nat) (i : Instr) : Bool :=
  match cKind i with
  | .free => false
  | .transfer => delay || body
  | .loop => delay || body
  | .trap => delay
  | .resume => delay || body || decide (n > 1)

/-- Slot index and reason of the lowest offending slot, the header first (R57). -/
def illegalAt (delay body : Bool) (b : BundleIn) : Option (Nat × Nat) :=
  match firstIllegal b with
  | some (k, r) =>
    if k ≠ 8 && k ≠ 0 && b.syls.any (fun y => match y.dec with
      | .ok i => misplaced delay body b.syls.length i
      | .error _ => false) then some (0, 5) else some (k, r.code)
  | none =>
    if b.syls.any (fun y => match y.dec with
      | .ok i => misplaced delay body b.syls.length i
      | .error _ => false) then some (0, 5) else none

/-- The bytes of the bundle at an address: from the loop buffer where it holds them (R154), else from the instruction
scratchpad (R33). -/
def State.bundleAt (s : State) (g a : Nat) : List Byte :=
  let core := coreOf g
  let k := s.core core
  let fresh := (List.range (bundleBytes (s.iword core a) / 4)).flatMap fun i => leBytes 4 (s.iword core (a + 4 * i)).toNat
  if (s.ctx g).loop.isSome && k.loopOf = g then (k.loopBuf.get? a).getD fresh else fresh

/-- A bundle of a LOOP body joins the loop buffer of its core; a buffer held for another context is emptied (log 2). -/
def State.holdBundle (s : State) (g a : Nat) (bs : List Byte) : State :=
  let core := coreOf g
  let k := s.core core
  match (s.ctx g).loop with
  | none => if k.loopOf = g && !k.loopBuf.isEmpty then s.setCore core { k with loopBuf := [] } else s
  | some _ =>
    let old := if k.loopOf = g then k.loopBuf else []
    s.setCore core { k with loopOf := g, loopBuf := old.put a bs }

/-- Does an address fail the fetch bounds (R33, R143, R152)? -/
def State.fetchBad (s : State) (g a n : Nat) : Bool :=
  decide (a % 4 ≠ 0) || decide (a ≥ 0x20000) || !(s.core (coreOf g)).running_ a ||
    decide (a / 0x10000 ≠ (a + n - 1) / 0x10000) ||
    (match (s.ctx g).loop with
    | some l => decide (l.start.toNat / 0x10000 ≠ a / 0x10000)
    | none => false)

/-! ### Privilege (R58, R319, R337) -/

/-- Is an MTC to this register privileged (R337)? -/
def privReg : CReg → Bool
  | .epc | .thv | .rqb | .rqn | .safeord | .world => true
  | .estat | .slim | .ftb | .rngs => false

/-- A window with one word written. -/
def Window.put (w : Window) (part : Bool) (val : Word) : Window := if part then { w with w1 := val } else { w with w0 := val }

/-- The WINSETs of a bundle: window, part, and the word to be written, from the window before the bundle (R336). -/
def State.winsets (s : State) (ys : List Todo) : List (Nat × Bool × Word) :=
  ys.filterMap fun y => match y.instr with
    | .winset d a b part =>
      let t := { s with iss := { s.iss with slot := y.slot, bimm := y.bimm, step := y.step } }
      some (d.toNat, part, maskedWord ((vget s.me.win d.toNat ⟨0, 0⟩).word part) (t.opB b) (t.opA a))
    | _ => none

/-- Would the WINSETs of a bundle leave a window that breaks R319? -/
def State.badWindows (s : State) (ys : List Todo) : Bool :=
  let ws := s.winsets ys
  let win := ws.foldl (fun v x => vput v x.1 ((vget v x.1 ⟨0, 0⟩).put x.2.1 x.2.2)) s.me.win
  ws.any fun x => !s.granted (s.tenantOf (clusterOf s.cur)) (vget win x.1 ⟨0, 0⟩)

/-- Does a bundle take the privileged stop? -/
def State.privileged (s : State) (ys : List Todo) : Bool :=
  (!s.me.hm && ys.any fun y => match y.instr with
    | .mtc _ r => privReg r
    | .resume => true
    | .winset _ _ _ _ => true
    | _ => false) || s.badWindows ys

/-! ### Safe points and breakpoints (R366 to R368) -/

/-- The ordinal of the bundle at an address. -/
def State.ordinalAt (s : State) (g a : Nat) : BitVec 32 := (s.core (coreOf g)).smap.get a 0

/-- Does a breakpoint name this bundle (R367)? -/
def State.breaks (s : State) (g a : Nat) (stop : Bool) : Bool :=
  let o := s.ordinalAt g a
  stop && !(s.ctx g).hm && decide (o ≠ 0) && (s.cl (clusterOf g)).dbg.bp.toList.any fun w =>
    bit w 63 && bit w (32 + memberOf g) && decide (bits w 31 0 = o.toNat)

/-- The effects of a STOP bundle that issues as a step outside handler mode, its ordinal not 0: SAFEORD (R366) and the kind
1 record (R370). -/
def State.safePoint (s : State) (g a : Nat) (stop hm : Bool) (step : Nat) : State :=
  let o := s.ordinalAt g a
  if !stop || hm || decide (o = 0) then s
  else (s.setCtx g { s.ctx g with safeord := o.zeroExtend 64 }).owl g 1 0 o.toNat
    (leBytes 4 a ++ leBytes 8 step ++ leBytes 4 0)

/-- Is context g stepped (R368)? -/
def State.stepped (s : State) (g : Nat) (stop : Bool) : Bool :=
  stop && !(s.ctx g).hm && bit (s.cl (clusterOf g)).dbg.step (memberOf g)

/-! ### Transfers (R142 to R153) -/

/-- The unlanded writers that count for a BR (R145). -/
def Ctx.brWriters (c : Ctx) (x : Xfer) : List Op :=
  c.pend.filter fun o => !o.landed && decide (o.step ≤ x.step) && o.dests.contains (.p x.p)

/-- The value v of a BR as far as it is known: of its youngest writer, or of the register, which a younger one that has landed may
have written (R21, R145). -/
def Ctx.brValue (c : Ctx) (x : Xfer) : Option Byte :=
  match (c.brWriters x).reverse with
  | [] => some (if x.p = 0 then 0xFF else (c.reg (.p x.p)).truncate 8)
  | o :: _ =>
    match o.wr.reverse.find? fun w => w.reg == .p x.p with
    | some w => if o.check.isSome then none else some (w.val.truncate 8)
    | none => some ((c.reg (.p x.p)).truncate 8)

/-- Is a BR resolved: have its writers landed? -/
def Ctx.brDone (c : Ctx) (x : Xfer) : Bool := x.val.isSome && (c.brWriters x).isEmpty

/-- Is a BR taken (R145)? -/
def Xfer.taken (x : Xfer) : Bool := ((x.val.getD 0).getLsbD 0) != x.neg

/-- Is a BSWAP target valid (R153)? -/
def Xfer.swapOk (x : Xfer) : Bool :=
  decide (x.target.toNat % 4 = 0) && decide (x.target.toNat < 0x20000) &&
    decide (x.target.toNat / 0x10000 ≠ x.home.toNat / 0x10000)

/-- The halves swapped: the target's running, the one left idle (R153). -/
def State.swapHalves (s : State) (g : Nat) (x : Xfer) : State :=
  let k := s.core (coreOf g)
  s.setCore (coreOf g) { k with aRun := decide (x.target.toNat < 0x10000), bRun := decide (x.target.toNat ≥ 0x10000) }

/-- The transfer ends and fetch continues at an address. -/
def State.goTo (s : State) (g : Nat) (a : Word) : State := s.setCtx g { s.ctx g with xfer := none, pc := a }

/-- The skip of a breakpoint check lasts for the first bundle outside handler mode (R367). -/
def Ctx.skipDone (c : Ctx) : Ctx := { c with skipBp := c.skipBp && c.hm }

/-- One tentative bundle counts as a step (R146): its entry is released. -/
def State.countTent (s : State) (g : Nat) (t : Tent) : State :=
  let c := s.ctx g
  let k := s.core (coreOf g)
  let s1 := (s.setCtx g { c.skipDone with steps := c.steps + 1 }).setCore (coreOf g)
    { k with cbuf := k.cbuf.map fun e => if e.g = g && e.step = c.steps then { e with released := true } else e }
  (s1.countEvent ⟨0, g, t.addr, c.steps, t.stop, 0⟩).safePoint g t.addr.toNat t.stop c.hm c.steps

/-- The tentative bundles of a correct arm in order; a breakpoint stops before its bundle, a single step after it
(R146, R367, R368). -/
def State.countTents (s : State) (g : Nat) : List Tent → State × Option StopReq
  | [] => (s, none)
  | t :: r =>
    if s.breaks g t.addr.toNat t.stop && !(s.ctx g).skipBp then
      let o := s.ordinalAt g t.addr.toNat
      (s.setCtx g { s.ctx g with safeord := o.zeroExtend 64, pc := t.addr }, some (.plain 0x0A t.addr))
    else
      let s1 := s.countTent g t
      if s1.stepped g t.stop then
        let next := match r with
          | u :: _ => u.addr
          | [] => (s1.ctx g).pc
        (s1.setCtx g { s1.ctx g with pc := next }, some (.plain 0x0B next))
      else s1.countTents g r

/-- An unresolved BR whose delay bundles have issued: fetch follows the predicted arm (R146). -/
def State.followArm (s : State) (g : Nat) (x : Xfer) : State :=
  if x.arm_ then s
  else
    let c := s.ctx g
    s.setCtx g { c with
      xfer := some { x with arm_ := true, fall := c.pc }, pc := if x.arm then x.target else c.pc }

/-- A transfer whose delay bundles have all issued takes place where it can (R142 to R153): the state, and the stop that
takes its place. -/
def State.settle (s : State) (g : Nat) : State × Option StopReq :=
  let c := s.ctx g
  match c.xfer with
  | none => (s, none)
  | some x =>
    if x.left ≠ 0 then (s, none)
    else match x.kind with
      | .br =>
        if !c.brDone x then (s.followArm g x, none)
        else if !x.arm_ then (s.goTo g (if x.taken then x.target else c.pc), none)
        else if x.taken == x.arm then
          let ts := c.tent
          let r := (s.setCtx g { c with xfer := none, tent := [] }).countTents g ts
          let k := r.1.core (coreOf g)
          (r.1.setCore (coreOf g) { k with stalled := none, cbuf := k.cbuf.filter fun e => e.g != g || e.released }, r.2)
        else ((s.dropTentative g).goTo g (if x.taken then x.target else x.fall), none)
      | .call | .ret => (s.goTo g x.target, none)
      | .callt =>
        match x.entry with
        | none => (s, none)
        | some e =>
          if !x.landed then (s, none)
          else if e.2 = x.sig.zeroExtend 64 then (s.goTo g x.target, none)
          else (s, some (.plain 0x08 x.target))
      | .bswap =>
        if x.swapOk then ((s.swapHalves g x).goTo g x.target, none)
        else (s, some (.plain 0x09 x.target))

/-! ### Ends of a bundle -/

/-- A control register as a write leaves it (R359, R337, R366). -/
def Ctx.mtc (c : Ctx) (r : CReg) (v : Word) : Ctx :=
  match r with
  | .epc => { c with epc := v }
  | .estat =>
    if c.hm then { c with estat := v &&& 0x00000FFF00FFFFFF#64 }
    else { c with estat := (c.estat &&& ~~~0xFF#64) ||| (v &&& 0xFF#64) }
  | .thv => { c with thv := v &&& 0x1FFFC#64 }
  | .slim => { c with slim := v }
  | .ftb => { c with ftb := v }
  | .rqb => { c with rqb := v &&& ~~~0x7FF#64 }
  | .rqn => { c with rqn := v &&& 0x7F#64 }
  | .world => c
  | .rngs => { c with rngs := v }
  | .safeord => { c with safeord := v &&& 0xFFFFFFFF#64 }

/-- Flags of the operations that have landed and are within their bounds (R92). -/
def Ctx.recentFlags (c : Ctx) : Byte := c.pend.foldl (fun f o => if o.landed then f ||| o.flags else f) 0

/-- A write to ESTAT: the flags of operations still within their bounds are ORed in after it (R92). -/
def Ctx.mtcEnd (c : Ctx) (r : CReg) (v : Word) : Ctx :=
  if r = .estat then (c.mtc r v).orFlags c.recentFlags else c.mtc r v

/-- One effect at the end of a bundle. -/
def State.applyEnd (s : State) (g : Nat) (e : EndEff) : State :=
  let c := s.ctx g
  match e with
  | .mtc r v => s.setCtx g (c.mtcEnd r v)
  | .erw k n v => if erWritable k n then s.setCtx g (c.setEr k n v) else s
  | .fmt f d =>
    if d = 0#32 || dOk d then s.setCtx g { c with f := vput c.f f d }
    else (s.setCtx g { c with f := vput c.f f 0 }).orFlags g flagNV
  | .win n part val => s.setCtx g { c with win := vput c.win n ((vget c.win n ⟨0, 0⟩).put part val) }
  | .vclr => s.setCtx g { c with vset := VSet.empty }
  | .rngs v => s.setCtx g { c with rngs := v }
  | .covered ids => s.setCtx g { c with ldfs := c.ldfs.filter fun l => !ids.contains l.id }

/-- The effects at the end of a bundle, in slot order. -/
def State.applyEnds (s : State) : State :=
  let s1 := s.iss.ends.foldl (fun t e => t.applyEnd s.cur e) s
  { s1 with iss := { s1.iss with ends := [] } }

/-- The PC after a bundle: the next in order, or the next position of a LOOP (R151). -/
def Ctx.advance (c : Ctx) (addr : Word) (len : Nat) : Ctx :=
  let seq := addr + BitVec.ofNat 64 len
  match c.loop with
  | none => { c with pc := seq }
  | some l =>
    if addr.toNat < l.start.toNat then { c with pc := seq }
    else if l.pos + 1 < l.size then { c with pc := seq, loop := some { l with pos := l.pos + 1 } }
    else
      let r := loopDown ((List.range l.cnt.length).map fun j => vget c.l j 0) l.cnt
      let c1 := c.setLs 0 r.1
      if r.2 then { c1 with pc := seq, loop := none } else { c1 with pc := l.start, loop := some { l with pos := 0 } }

/-- Has every context of the crew at a cluster ended? -/
def State.crewOver (s : State) (cl : Nat) : Bool :=
  (s.ctxs.filter fun e => clusterOf e.1 == cl).all fun e => e.2.ended

/-- What the end of a context does to its scheduling state (R286, R293); the end of its crew flushes the near combiner
(R234). -/
def State.endSched (s : State) (g : Nat) : State :=
  let s1 := s.phDropAll g
  let s2 := s1.setCtx g { s1.ctx g with binds := [], ending := false }
  let s3 := (s2.taskFail g false).leaveLease g
  if s3.crewOver (clusterOf g) then s3.flushCombs (clusterOf g) else s3

/-- The issue slot is free: the context left it (R16). -/
def State.vacate (s : State) (g : Nat) : State :=
  let k := s.core (coreOf g)
  if k.running = some (g % 4) then s.setCore (coreOf g) { k with running := none, last := g % 4, stalled := none } else s

/-- A drain stub that has ended completes the drain (R354): every register result has landed, and stays undefined inside its
bound (R22); an LDF still unanswered is cancelled, and what handler mode set aside is the program's again (R345). A LOOP that is
active in the stub stays active, which is the model's choice (log 129). -/
def State.drained (s : State) (g : Nat) : State :=
  let s1 := s.landAll g fun _ => true
  let c := s1.ctx g
  let lost := (c.ldfs.filter fun l => l.at_ != .answered && !l.gone).map fun l => RegN.s l.dest
  s1.setCtx g { (c.lose s lost).prune with
    status := .drained, hm := false, drain := false, ending := false, ldfs := c.ldfs.filter (·.at_ == .answered)
    vset := (c.aside.map (·.vset)).getD c.vset, aside := none, xfer := none, tent := [], blocked := none }

/-- The operations of a context that has exited: register results are discarded, memory operations complete (R156). -/
def Ctx.onlyHeld (c : Ctx) : List Op := (c.pend.filter (·.mem.isSome)).map fun o => { o with dests := [] }

/-- The context that a drain stub's EXIT, or another's, leaves while its memory operations are still to be performed: the
drain is completed, or R286 carried out, after them. -/
def State.endNow (s : State) (g : Nat) : State :=
  if !(heldIn (s.ctx g).pend).isEmpty then s.setCtx g { s.ctx g with ending := true }
  else if (s.ctx g).drain then s.drained g
  else s.endSched g

/-- Scope reports that a stop displaced are written as records (R340, R373). -/
def State.flushReports (s : State) (g : Nat) : State :=
  let c := s.ctx g
  c.report.foldl (fun t r => t.scopeRecord g r) (s.setCtx g { c with report := [] })

/-- EXIT of context g (R156, R354): in drain mode it completes the drain instead. A transfer that is pending is dropped
(R144), and a scope report that finds no further bundle is a record (R373). -/
def State.exitCtx (s : State) (g : Nat) : State :=
  if (s.ctx g).drain then
    let s1 := (s.flushReports g).vacate g
    (s1.setCtx g { s1.ctx g with xfer := none, blocked := none }).endNow g
  else
    let s0 := ((s.performLdfs g fun _ => true).flushReports g).vacate g
    let k := s0.core (coreOf g)
    let s1 := s0.setCore (coreOf g) { k with cbuf := k.cbuf.filter fun e => e.g != g || e.released }
    let c := s1.ctx g
    (s1.setCtx g { c with
      status := .exited, pend := c.onlyHeld, xfer := none, tent := [], loop := none, ldfs := [], phsw := none, monitor := none
      waitPh := none, blocked := none, yielded := false, backoff := none, report := [] }).endNow g

/-- The lowest-slot fault of the bundle. -/
def lowestFault : List SylFault → Option SylFault
  | [] => none
  | f :: r => match lowestFault r with
    | none => some f
    | some h => if f.slot ≤ h.slot then some f else some h

/-- The address that fetch would present next outside the predicted arm of an unresolved BR (R340, R347); a RESUME in
progress goes on at EPC (R349). -/
def Ctx.nextPc (c : Ctx) : Word :=
  if c.redo.isSome then c.epc
  else match c.xfer with
  | some x => if x.left = 0 && x.kind = .br && x.arm_ then x.fall else c.pc
  | none => c.pc

/-- The stop that a finished bundle takes (R340): software trap, syllable fault of the lowest slot, what stands in place of
a transfer, single step, scope report. -/
def State.afterStop (s : State) (late : Option StopReq) (single : Bool) : State :=
  let g := s.cur
  let c := s.me
  match s.iss.trap, lowestFault s.iss.faults, late with
  | some code, _, _ => (s.flushReports g).stop ⟨0x0C, 15, 0, code.toNat, c.nextPc⟩ s.iss.faults
  | none, some f, _ => (s.flushReports g).stop ⟨f.cause, f.slot, 0, 0, c.nextPc⟩ s.iss.faults
  | none, none, some q => ((s.setCtx g { c with xfer := none }).flushReports g).stop q []
  | none, none, none =>
    if single then (s.flushReports g).stop (.plain 0x0B c.nextPc) []
    else match c.report with
      | [] => s
      | _ :: rest => ((s.setCtx g { c with report := rest }).flushReports g).stop (.plain 0x0E c.nextPc) []

/-- A transfer after the bundle being finished (R142, R145): one just armed takes its predicate's value, one with delay
bundles to issue has one fewer. -/
def Ctx.countDelay (c : Ctx) (step : Nat) : Ctx :=
  match c.xfer with
  | none => c
  | some x =>
    if x.left = 0 then c
    else if x.step = step then { c with xfer := some { x with val := if x.kind = .br then c.brValue x else none } }
    else { c with xfer := some { x with left := x.left - 1 } }

/-- The context after its bundle has issued as a step (R5): the PC, the step, and what held the bundle. -/
def Ctx.stepOver (c : Ctx) (i : Iss) : Ctx :=
  let c1 := if i.moved then c else c.advance i.addr i.len
  { (c1.countDelay i.step).skipDone with steps := c.steps + 1, blocked := none, yielded := false, backoff := none }

/-- Does EXIT end its bundle's context, or complete its drain? A fatal stop of the bundle comes first, and in handler mode
every stop does, as the nested one (R345, R354, log 54). -/
def State.exits (s : State) : Bool :=
  s.iss.exit && !(s.iss.faults.any fun f => decide (f.cause ≥ 0x20)) && (!s.me.hm || s.iss.faults.isEmpty)

/-- The end of a bundle (R13, R126, R142, R156, R340). -/
def State.finishBundle (s : State) : State :=
  let g := s.cur
  let hm := s.me.hm
  let s1 := s.applyEnds
  let s2 := s1.setMe (s1.me.stepOver s.iss).prune
  if s.exits then (s2.safePoint g s.iss.addr.toNat s.iss.stop hm s.iss.step).exitCtx g
  else
    let r := s2.settle g
    (r.1.safePoint g s.iss.addr.toNat s.iss.stop hm s.iss.step).afterStop r.2 (s.stepped g s.iss.stop)

/-- LDF records reissued before a fault whose answers have not landed are recorded again (R349). -/
def Ctx.again (c : Ctx) (ws : List Written) : List Written :=
  ws.flatMap fun w => match c.ldfs.find? fun l => l.id == w.ldf with
    | some l => l.toRec.map fun k => { k with w1 := w.w1, step := w.step, slot := w.slot }
    | none => []

/-- The record of a syllable that faults in a reissue: its words 0 and 1 stay, its address is the one that faulted. -/
def refault (w : Written) (f : SylFault) : Written :=
  { w with opa := f.opa, opb := f.opb, hold := f.hold, w7 := (w.w7 &&& 0xE00#32) ||| BitVec.ofNat 32 (256 + f.cause)
           xfer := f.xfer, ldf := 0 }

/-- A RESUME that has reissued every record (R349 step 5): fetch resumes at EPC. The state of an active LOOP is the one set
aside, its position in the body included, whatever EPC holds now (R152, log 105). -/
def State.resumed (s : State) : State :=
  let g := s.cur
  let c := s.me
  let xf := c.xfer.map fun x => if x.kind = .br then { x with val := c.brValue { x with step := c.steps } } else x
  let r := (s.setMe { c with rqn := 0, pc := c.epc, xfer := xf, written := [], redo := none }).settle g
  ({ r.1 with iss := { r.1.iss with faults := [], trap := none } }).afterStop r.2 false

/-- A RESUME whose next record has to wait: the slot is free until then (log 115). -/
def State.suspend (s : State) : State :=
  let s1 := s.vacate s.cur
  s1.setMe { s1.me with
    redo := some ⟨false, s.iss.todo, s.iss.again, (s1.me.redo.map (·.step)).getD 0⟩, status := .waiting, blocked := some s.clock }

/-- The end of a step of a RESUME (R349): every record has been reissued, one faulted and the context stops again, or the next
one waits. -/
def State.finishResume (s : State) : State :=
  let g := s.cur
  let s0 := s.applyEnds
  let s1 := if s.iss.resume then
      s0.setMe { s0.me with steps := s0.me.steps + 1, blocked := none, yielded := false, backoff := none }
    else s0
  let c := s1.me
  match s.iss.faults, s.iss.rec_ with
  | f :: _, some w =>
    ((s1.setMe { c with phsw := none }).flushReports g).takeStop ⟨f.cause, f.slot, 0, 0, c.epc⟩
      (c.again s.iss.again ++ (c.phsw.map (·.toRec)).toList ++ [refault w f] ++ s.iss.todo.flatMap (·.again))
  | _, _ => if s.iss.todo.isEmpty then s1.resumed else s1.suspend

/-- The end of a commit-buffer release (R182): a fault of the syllable stops its context. -/
def State.finishRelease (s : State) : State :=
  let s1 := s.applyEnds
  match lowestFault s.iss.faults with
  | none => s1
  | some f => (s1.flushReports s.cur).stop ⟨f.cause, f.slot, 0, 0, s1.me.nextPc⟩ s.iss.faults

/-- What follows the last syllable. -/
def State.finish (s : State) : State :=
  let s1 := match s.iss.mode with
    | .none => s
    | .bundle => s.finishBundle
    | .reissue => s.finishResume
    | .release => s.finishRelease
  { s1 with iss := Iss.none }

/-! ### The syllables in turn -/

/-- A released X-slot record goes back into the commit buffer (R347). -/
def State.rebuffer (s : State) (t : Todo) (w : Written) : State :=
  let k := s.core (coreOf s.cur)
  let o := t.ov.getD (0, 0)
  s.setCore (coreOf s.cur) { k with
    cbuf := k.cbuf ++ [⟨s.cur, t.syl, t.bimm, o.1, o.2, w.hold, t.step, w.addr, true⟩] }

/-- Is a syllable to be reissued one that waits in the commit buffer? -/
def Todo.buffered (t : Todo) : Bool :=
  match t.rec_ with
  | some w => decide (t.slot = 6) && w.w7.getLsbD 10
  | none => false

/-- Do released entries of the commit buffer hold what context g does next (R182)? -/
def State.cbHeld (s : State) (g : Nat) : Bool := (s.core (coreOf g)).cbuf.any fun e => e.g == g && e.released

/-- The latch as an operation of slot k of a bundle sees it. -/
def State.atSlot (s : State) (t : Todo) : State :=
  { s with iss := { s.iss with slot := t.slot, syl := t.syl, bimm := t.bimm, step := t.step, ov := t.ov, rec_ := t.rec_ } }

/-- Does a record wait before it is reissued (R349): for the one before it to complete, or for the range scoreboard
(R247)? -/
def State.redoHolds (s : State) (t : Todo) : Bool :=
  s.me.phsw.isSome || s.cbHeld s.cur || (match memReq t.instr with
    | some q => (s.atSlot t).memBlocks q
    | none => false)

/-- The next syllable to execute, with the latch set for it: none when there is no further one, or a reissue has faulted or
waits. -/
def State.beginItem : Nat → State → Option (Instr × State)
  | 0, _ => none
  | n + 1, s =>
    if s.iss.mode = .reissue && (!s.iss.faults.isEmpty || s.iss.wait) then none
    else match s.iss.todo with
      | [] => none
      | t :: r =>
        let s1 := { s with iss := { s.iss with todo := r } }
        if s.iss.mode = .reissue && s.redoHolds t then none
        else if s.iss.mode = .reissue && t.buffered then (s1.rebuffer t (t.rec_.getD default)).beginItem n
        else some (t.instr, s1.atSlot t)

/-- The syllable being executed, to be executed again: its reissue has to wait. -/
def State.putBack (s : State) (i : Instr) : State :=
  { s with iss := { s.iss with
    todo := ⟨i, s.iss.slot, s.iss.syl, s.iss.bimm, s.iss.step, s.iss.ov, s.iss.rec_⟩ :: s.iss.todo } }

/-- What follows one syllable: a reissued LDF that has still an entry is kept in mind until the reissue ends (R349). -/
def State.endItem (s : State) (i : Instr) : State :=
  if s.iss.wait then s.putBack i
  else match s.iss.mode, i, s.iss.rec_ with
  | .reissue, .ldf _ _ _, some w =>
    let c := s.me
    match c.ldfs.find? fun l => l.id == w.ldf || (l.id == c.nextLdf && l.step == w.step) with
    | some l => { s with iss := { s.iss with again := s.iss.again ++ [{ w with ldf := l.id }] } }
    | none => s
  | _, _, _ => s

end Sys2Proof.Machine
end

