-- ==== Sys2Proof/Machine/Riscv.lean ====
section
/-! DEFINITION. The RV64IMAC core of a badger core (R214, log 13): one instruction of a handler's code, by the RISC-V
unprivileged specification, over its partition and its ports. Whatever raises an exception, or accesses an address outside
the two, is an abort (R215). -/

namespace Sys2Proof.Machine
open Sys2Proof

/-! ### The 32-bit encodings -/

/-- Bits hi to lo of an instruction. -/
def rvBits (w : Nat) (hi lo : Nat) : Nat := w / 2 ^ lo % 2 ^ (hi + 1 - lo)

/-- A number of n bits, sign-extended. -/
def rvSext (n v : Nat) : Word := BitVec.ofInt 64 (if v < 2 ^ (n - 1) then (v : Int) else (v : Int) - 2 ^ n)

/-- The immediates of the I, S, B, U and J formats. -/
def rvI (w : Nat) : Word := rvSext 12 (rvBits w 31 20)
def rvS (w : Nat) : Word := rvSext 12 (rvBits w 31 25 * 2 ^ 5 + rvBits w 11 7)
def rvB (w : Nat) : Word :=
  rvSext 13 (rvBits w 31 31 * 2 ^ 12 + rvBits w 7 7 * 2 ^ 11 + rvBits w 30 25 * 2 ^ 5 + rvBits w 11 8 * 2)
def rvU (w : Nat) : Word := rvSext 32 (rvBits w 31 12 * 2 ^ 12)
def rvJ (w : Nat) : Word :=
  rvSext 21 (rvBits w 31 31 * 2 ^ 20 + rvBits w 19 12 * 2 ^ 12 + rvBits w 20 20 * 2 ^ 11 + rvBits w 30 21 * 2)

/-- Words of the I, S, B, J and R formats from their fields; immediates are taken modulo their widths. -/
def rvEncI (imm rs1 f3 rd op : Nat) : Nat := imm % 4096 * 2 ^ 20 + rs1 * 2 ^ 15 + f3 * 2 ^ 12 + rd * 2 ^ 7 + op
def rvEncS (imm rs2 rs1 f3 : Nat) : Nat :=
  imm / 32 % 128 * 2 ^ 25 + rs2 * 2 ^ 20 + rs1 * 2 ^ 15 + f3 * 2 ^ 12 + imm % 32 * 2 ^ 7 + 0x23
def rvEncB (imm rs1 f3 : Nat) : Nat :=
  imm / 4096 % 2 * 2 ^ 31 + imm / 32 % 64 * 2 ^ 25 + rs1 * 2 ^ 15 + f3 * 2 ^ 12 + imm / 2 % 16 * 2 ^ 8 + imm / 2048 % 2 * 2 ^ 7 +
    0x63
def rvEncJ (imm rd : Nat) : Nat :=
  imm / 2 ^ 20 % 2 * 2 ^ 31 + imm / 2 % 1024 * 2 ^ 21 + imm / 2048 % 2 * 2 ^ 20 + imm / 4096 % 256 * 2 ^ 12 + rd * 2 ^ 7 + 0x6F
def rvEncR (f7 rs2 rs1 f3 rd op : Nat) : Nat :=
  f7 * 2 ^ 25 + rs2 * 2 ^ 20 + rs1 * 2 ^ 15 + f3 * 2 ^ 12 + rd * 2 ^ 7 + op

/-! ### The C extension -/

/-- A number of n bits as a 32-bit pattern, sign-extended. -/
def rvWide (n v : Nat) : Nat := if v < 2 ^ (n - 1) then v else v + (2 ^ 32 - 2 ^ n)

/-- The sum of bit fields of a compressed instruction, each moved to its place: high bit, low bit, place. -/
def rvPick (h : Nat) (fs : List (Nat × Nat × Nat)) : Nat :=
  fs.foldl (fun n f => n + rvBits h f.1 f.2.1 * 2 ^ f.2.2) 0

/-- Quadrant 0: C.ADDI4SPN, C.LW, C.LD, C.SW and C.SD. -/
def rvC0 (h : Nat) : Option Nat :=
  let rd := 8 + rvBits h 4 2
  let rs := 8 + rvBits h 9 7
  let w := rvPick h [(12, 10, 3), (6, 6, 2), (5, 5, 6)]
  let d := rvPick h [(12, 10, 3), (6, 5, 6)]
  match rvBits h 15 13 with
  | 0 =>
    let n := rvPick h [(12, 11, 4), (10, 7, 6), (6, 6, 2), (5, 5, 3)]
    if n = 0 then none else some (rvEncI n 2 0 rd 0x13)
  | 2 => some (rvEncI w rs 2 rd 0x03)
  | 3 => some (rvEncI d rs 3 rd 0x03)
  | 6 => some (rvEncS w rd rs 2)
  | 7 => some (rvEncS d rd rs 3)
  | _ => none

/-- The register operations of quadrant 1. -/
def rvC1Alu (h : Nat) : Option Nat :=
  let rd := 8 + rvBits h 9 7
  let rs := 8 + rvBits h 4 2
  let sh := rvPick h [(12, 12, 5), (6, 2, 0)]
  match rvBits h 11 10 with
  | 0 => some (rvEncI sh rd 5 rd 0x13)
  | 1 => some (rvEncI (sh + 1024) rd 5 rd 0x13)
  | 2 => some (rvEncI (rvWide 6 sh) rd 7 rd 0x13)
  | _ => match rvBits h 12 12, rvBits h 6 5 with
    | 0, 0 => some (rvEncR 0x20 rs rd 0 rd 0x33)
    | 0, 1 => some (rvEncR 0 rs rd 4 rd 0x33)
    | 0, 2 => some (rvEncR 0 rs rd 6 rd 0x33)
    | 0, _ => some (rvEncR 0 rs rd 7 rd 0x33)
    | _, 0 => some (rvEncR 0x20 rs rd 0 rd 0x3B)
    | _, 1 => some (rvEncR 0 rs rd 0 rd 0x3B)
    | _, _ => none

/-- Quadrant 1: C.ADDI, C.ADDIW, C.LI, C.ADDI16SP, C.LUI, the register operations, C.J, C.BEQZ and C.BNEZ. -/
def rvC1 (h : Nat) : Option Nat :=
  let rd := rvBits h 11 7
  let imm := rvWide 6 (rvPick h [(12, 12, 5), (6, 2, 0)])
  let j := rvWide 12 (rvPick h [(12, 12, 11), (11, 11, 4), (10, 9, 8), (8, 8, 10), (7, 7, 6), (6, 6, 7), (5, 3, 1), (2, 2, 5)])
  let b := rvWide 9 (rvPick h [(12, 12, 8), (11, 10, 3), (6, 5, 6), (4, 3, 1), (2, 2, 5)])
  match rvBits h 15 13 with
  | 0 => some (rvEncI imm rd 0 rd 0x13)
  | 1 => if rd = 0 then none else some (rvEncI imm rd 0 rd 0x1B)
  | 2 => some (rvEncI imm 0 0 rd 0x13)
  | 3 =>
    if rd = 2 then
      let n := rvPick h [(12, 12, 9), (6, 6, 4), (5, 5, 6), (4, 3, 7), (2, 2, 5)]
      if n = 0 then none else some (rvEncI (rvWide 10 n) 2 0 2 0x13)
    else if imm = 0 then none
    else some (imm % 2 ^ 20 * 2 ^ 12 + rd * 2 ^ 7 + 0x37)
  | 4 => rvC1Alu h
  | 5 => some (rvEncJ j 0)
  | 6 => some (rvEncB b (8 + rvBits h 9 7) 0)
  | _ => some (rvEncB b (8 + rvBits h 9 7) 1)

/-- Quadrant 2: C.SLLI, C.LWSP, C.LDSP, C.JR, C.MV, C.EBREAK, C.JALR, C.ADD, C.SWSP and C.SDSP. -/
def rvC2 (h : Nat) : Option Nat :=
  let rd := rvBits h 11 7
  let rs := rvBits h 6 2
  match rvBits h 15 13 with
  | 0 => some (rvEncI (rvPick h [(12, 12, 5), (6, 2, 0)]) rd 1 rd 0x13)
  | 2 => if rd = 0 then none else some (rvEncI (rvPick h [(12, 12, 5), (6, 4, 2), (3, 2, 6)]) 2 2 rd 0x03)
  | 3 => if rd = 0 then none else some (rvEncI (rvPick h [(12, 12, 5), (6, 5, 3), (4, 2, 6)]) 2 3 rd 0x03)
  | 4 =>
    if rvBits h 12 12 = 0 then
      if rs ≠ 0 then some (rvEncR 0 rs 0 0 rd 0x33)
      else if rd = 0 then none else some (rvEncI 0 rd 0 0 0x67)
    else if rs ≠ 0 then some (rvEncR 0 rs rd 0 rd 0x33)
    else if rd = 0 then none else some (rvEncI 0 rd 0 1 0x67)
  | 6 => some (rvEncS (rvPick h [(12, 9, 2), (8, 7, 6)]) rs 2 2)
  | 7 => some (rvEncS (rvPick h [(12, 10, 3), (9, 7, 6)]) rs 2 3)
  | _ => none

/-- The 32-bit instruction that a compressed one stands for: none where it is illegal here (no F or D) or an EBREAK. -/
def rvExpand (h : Nat) : Option Nat :=
  match h % 4 with
  | 0 => rvC0 h
  | 1 => rvC1 h
  | _ => rvC2 h

/-! ### Arithmetic -/

/-- The operations of OP and OP-IMM by funct3; `alt` is SUB and SRA. -/
def rvAlu (f3 : Nat) (alt : Bool) (a b : Word) : Word :=
  match f3 with
  | 0 => if alt then a - b else a + b
  | 1 => a <<< (b.toNat % 64)
  | 2 => if a.slt b then 1 else 0
  | 3 => if a.ult b then 1 else 0
  | 4 => a ^^^ b
  | 5 => if alt then a.sshiftRight (b.toNat % 64) else a >>> (b.toNat % 64)
  | 6 => a ||| b
  | _ => a &&& b

/-- Those of OP-32 and OP-IMM-32: none for a funct3 that has none. -/
def rvAluW (f3 : Nat) (alt : Bool) (a b : BitVec 32) : Option (BitVec 32) :=
  match f3 with
  | 0 => some (if alt then a - b else a + b)
  | 1 => some (a <<< (b.toNat % 32))
  | 5 => some (if alt then a.sshiftRight (b.toNat % 32) else a >>> (b.toNat % 32))
  | _ => none

/-- Quotient and remainder as RISC-V defines them where the divisor is 0 or the quotient overflows. -/
def rvDiv {n : Nat} (a b : BitVec n) : BitVec n := if b = 0 then BitVec.allOnes n else a.sdiv b
def rvDivu {n : Nat} (a b : BitVec n) : BitVec n := if b = 0 then BitVec.allOnes n else a / b
def rvRem {n : Nat} (a b : BitVec n) : BitVec n := if b = 0 then a else a.srem b
def rvRemu {n : Nat} (a b : BitVec n) : BitVec n := if b = 0 then a else a % b

/-- The M extension. -/
def rvMul (f3 : Nat) (a b : Word) : Word :=
  match f3 with
  | 0 => a * b
  | 1 => BitVec.ofInt 64 (a.toInt * b.toInt / 2 ^ 64)
  | 2 => BitVec.ofInt 64 (a.toInt * (b.toNat : Int) / 2 ^ 64)
  | 3 => BitVec.ofNat 64 (a.toNat * b.toNat / 2 ^ 64)
  | 4 => rvDiv a b
  | 5 => rvDivu a b
  | 6 => rvRem a b
  | _ => rvRemu a b

/-- Its operations on 32 bits. -/
def rvMulW (f3 : Nat) (a b : BitVec 32) : Option (BitVec 32) :=
  match f3 with
  | 0 => some (a * b)
  | 4 => some (rvDiv a b)
  | 5 => some (rvDivu a b)
  | 6 => some (rvRem a b)
  | 7 => some (rvRemu a b)
  | _ => none

/-- An AMO by funct5 on n bits: none where it is reserved. -/
def rvAmo {n : Nat} (f5 : Nat) (old b : BitVec n) : Option (BitVec n) :=
  match f5 with
  | 0 => some (old + b)
  | 1 => some b
  | 4 => some (old ^^^ b)
  | 8 => some (old ||| b)
  | 12 => some (old &&& b)
  | 16 => some (if old.slt b then old else b)
  | 20 => some (if b.slt old then old else b)
  | 24 => some (if old.ult b then old else b)
  | 28 => some (if b.ult old then old else b)
  | _ => none

/-- A branch by funct3: none where it is reserved. -/
def rvTaken (f3 : Nat) (a b : Word) : Option Bool :=
  match f3 with
  | 0 => some (a == b)
  | 1 => some (a != b)
  | 4 => some (a.slt b)
  | 5 => some (!a.slt b)
  | 6 => some (a.ult b)
  | 7 => some (!a.ult b)
  | _ => none

/-! ### One instruction -/

/-- What an instruction comes to: the core and its partition go on, or a port is loaded from into register rd or stored to
at an offset, `after` being the core that goes on when that is done; or it raises an exception or goes astray. -/
inductive RvRes where
  | next (c : Rv) (m : Mem)
  | load (off rd : Nat) (after : Rv)
  | store (off : Nat) (v : Word) (after : Rv)
  | bad
  deriving DecidableEq, Repr, Inhabited

/-- A register, x0 being 0; and its write. -/
def Rv.get (c : Rv) (r : Nat) : Word := if r = 0 then 0 else vget c.x r 0
def Rv.put (c : Rv) (r : Nat) (v : Word) : Rv := if r = 0 then c else { c with x := vput c.x r v }

/-- Where the ports begin (R214). -/
def portBase : Nat := 0x80000000

/-- The offset of a port that n bytes at an address are: aligned, and eight of them. -/
def portOff (a n : Nat) : Option Nat :=
  if n = 8 && a % 8 = 0 && decide (portBase ≤ a) && decide (a < portBase + 0x80) then some (a - portBase) else none

/-- May n bytes of the partition at an address be accessed? -/
def rvInside (size a n : Nat) : Bool := decide (a + n ≤ size) && (decide (a % n = 0) || Config.badgerSplits)

/-- A load of n bytes by funct3, its value sign-extended or not. -/
def rvExt (f3 : Nat) (n : Nat) (v : Nat) : Word := if f3 < 4 then rvSext (8 * n) v else BitVec.ofNat 64 v

/-- A load of funct3 at an address into rd, `c` being the core that goes on. -/
def rvLoad (base size : Nat) (m : Mem) (c : Rv) (f3 a rd : Nat) : RvRes :=
  let n := 2 ^ (f3 % 4)
  if f3 = 7 then .bad
  else match portOff a n with
    | some off => .load off rd c
    | none => if rvInside size a n then .next (c.put rd (rvExt f3 n (leNat (m.read (base + a) n)))) m else .bad

/-- A store. -/
def rvStore (base size : Nat) (m : Mem) (c : Rv) (f3 a : Nat) (v : Word) : RvRes :=
  let n := 2 ^ f3
  if f3 > 3 then .bad
  else match portOff a n with
    | some off => .store off v c
    | none => if rvInside size a n then .next c (m.write (base + a) (leBytes n v.toNat)) else .bad

/-- An instruction of the A extension on n bytes at an aligned address of the partition. A store conditional on bytes that
the core has reserved succeeds (log 118). -/
def rvAtomic (base size : Nat) (m : Mem) (c : Rv) (f5 n a rd rs2 : Nat) : RvRes :=
  if a + n > size || a % n ≠ 0 then .bad
  else
    let old := leNat (m.read (base + a) n)
    let b := c.get rs2
    let put := fun (v : Nat) => m.write (base + a) (leBytes n v)
    if f5 = 2 then if rs2 = 0 then .next { c.put rd (rvSext (8 * n) old) with resv := some (a, n) } m else .bad
    else if f5 = 3 then
      let ok := decide (c.resv = some (a, n))
      .next { c.put rd (if ok then 0 else 1) with resv := none } (if ok then put b.toNat else m)
    else match rvAmo f5 (BitVec.ofNat (8 * n) old) (b.truncate (8 * n)) with
      | some v => .next (c.put rd (rvSext (8 * n) old)) (put v.toNat)
      | none => .bad

/-- A 32-bit instruction w of `len` bytes (2 where it stands for a compressed one). -/
def rvExec (base size : Nat) (m : Mem) (c : Rv) (w len : Nat) : RvRes :=
  let rd := rvBits w 11 7
  let f3 := rvBits w 14 12
  let rs2 := rvBits w 24 20
  let f7 := rvBits w 31 25
  let a := c.get (rvBits w 19 15)
  let b := c.get rs2
  let link := c.pc + BitVec.ofNat 64 len
  let go := { c with pc := link }
  let res := fun (v : Word) => RvRes.next (go.put rd v) m
  let resW := fun (v : Option (BitVec 32)) => match v with
    | some x => res (x.signExtend 64)
    | none => RvRes.bad
  match rvBits w 6 0 with
  | 0x37 => res (rvU w)
  | 0x17 => res (c.pc + rvU w)
  | 0x6F => .next ({ c with pc := c.pc + rvJ w }.put rd link) m
  | 0x67 => if f3 = 0 then .next ({ c with pc := (a + rvI w) &&& ~~~1#64 }.put rd link) m else .bad
  | 0x63 => match rvTaken f3 a b with
    | some t => .next { c with pc := if t then c.pc + rvB w else link } m
    | none => .bad
  | 0x03 => rvLoad base size m go f3 (a + rvI w).toNat rd
  | 0x23 => rvStore base size m go f3 (a + rvS w).toNat b
  | 0x13 =>
    let sh := BitVec.ofNat 64 (rvBits w 25 20)
    if f3 = 1 then if rvBits w 31 26 = 0 then res (rvAlu 1 false a sh) else .bad
    else if f3 = 5 then
      if rvBits w 31 26 = 0 then res (rvAlu 5 false a sh)
      else if rvBits w 31 26 = 0x10 then res (rvAlu 5 true a sh) else .bad
    else res (rvAlu f3 false a (rvI w))
  | 0x1B =>
    let sh := BitVec.ofNat 32 rs2
    if f3 = 0 then resW (rvAluW 0 false (a.truncate 32) ((rvI w).truncate 32))
    else if f7 = 0 then resW (rvAluW f3 false (a.truncate 32) sh)
    else if f7 = 0x20 && f3 = 5 then resW (rvAluW 5 true (a.truncate 32) sh) else .bad
  | 0x33 =>
    if f7 = 1 then res (rvMul f3 a b)
    else if f7 = 0 then res (rvAlu f3 false a b)
    else if f7 = 0x20 && (f3 = 0 || f3 = 5) then res (rvAlu f3 true a b) else .bad
  | 0x3B =>
    if f7 = 1 then resW (rvMulW f3 (a.truncate 32) (b.truncate 32))
    else if f7 = 0 then resW (rvAluW f3 false (a.truncate 32) (b.truncate 32))
    else if f7 = 0x20 && (f3 = 0 || f3 = 5) then resW (rvAluW f3 true (a.truncate 32) (b.truncate 32)) else .bad
  | 0x2F => if f3 = 2 || f3 = 3 then rvAtomic base size m go (rvBits w 31 27) (2 ^ f3) a.toNat rd rs2 else .bad
  | 0x0F => if f3 = 0 then .next go m else .bad
  | _ => .bad

/-- The next instruction of a handler whose partition is `size` bytes of the handler memory m from `base` on. -/
def rvStep (base size : Nat) (m : Mem) (c : Rv) : RvRes :=
  let a := c.pc.toNat
  let h := leNat (m.read (base + a) 2)
  if a % 2 ≠ 0 || a + 2 > size then .bad
  else if h % 4 ≠ 3 then match rvExpand h with
    | some w => rvExec base size m c w 2
    | none => .bad
  else if a + 4 > size || h / 4 % 8 = 7 then .bad
  else rvExec base size m c (leNat (m.read (base + a) 4)) 4

end Sys2Proof.Machine
end

