-- ==== Sys2Proof/Machine/Badger.lean ====
section
/-! DEFINITION. Badger cores (R212 to R218): images, messages, the code of a handler, which executes one instruction in a
step (log 13), and what it does at its ports: those accesses that act on the slice are the events of the table. -/

namespace Sys2Proof.Machine
open Sys2Proof

/-! ### Replies -/

/-- The access of a badger core on behalf of a tenant. -/
def badgerAcc (world : Byte) (tenant g : Nat) : Acc := ⟨world, 3, tenant, g, (.pod, g)⟩

/-- The reply of a message: an STF to its future word (R214); `kind` is 2 for ABORT sent by the machine (R312). A reply
whose page faults is lost. -/
def State.badgerReply (s : State) (e : BEvent) (v : Word) (kind : Nat) : State :=
  match s.writeTxn (badgerAcc e.world e.tenant e.g) (cellsAt e.ia (leBytes 8 v.toNat)) true kind .nobody with
  | (s1, .ok _) => s1
  | (s1, .pageFault) => s1
  | (s1, .poisoned) => s1

/-- An event that ends without its handler's result: a message is answered with ABORT, a hint has no effect (R215). -/
def State.badgerDrop (s : State) (e : BEvent) : State := if e.kind = 3 then s.badgerReply e abortW 2 else s

/-! ### Images (R212, R216) -/

/-- The image of a tenant at a slice, with its place. -/
def Slice.imageOf (x : Slice) (tenant : Nat) : Option (Nat × Image) := x.images.find? fun i => i.2.tenant == tenant

/-- Does the tenant's image at a slice take events of a kind? -/
def Slice.takes (x : Slice) (tenant kind : Nat) : Bool :=
  match x.imageOf tenant with
  | some i => i.2.enabled && (i.2.entries.getD kind none).isSome
  | none => false

/-- An image section's entries. -/
def mkImage (tenant : Nat) (bs : List Byte) : Image :=
  ⟨tenant, bs, (List.range 4).map (Config.badgerEntry bs), true⟩

/-- The partition of a place in the handler memory: an eighth of the 64 KiB (R212, log 117). -/
def partSize : Nat := 8192
def partBase (place : Nat) : Nat := partSize * place

/-- A slice with a tenant's image in its lowest free place, enabled, its partition holding the image's bytes and 0 after
them, and its overrun counter 0. -/
def Slice.install (x : Slice) (tenant : Nat) (bs : List Byte) : Slice :=
  match (List.range 8).find? fun i => (x.images.get? i).isNone with
  | none => x
  | some i => { x with
      images := x.images.put i (mkImage tenant bs)
      hmem := (x.hmem.clear (partBase i) partSize).write (partBase i) (bs.take partSize)
      overrun := vput x.overrun tenant 0 }

/-- The image installed at every slice (R216). -/
def State.installImage (s : State) (tenant : Nat) (bs : List Byte) : State :=
  (List.range 96).foldl (fun t k => t.setSlice k ((t.slice k).install tenant bs)) s

/-- The image removed from one slice: its queued events are discarded, messages answered with ABORT; so is the event of a
handler that is running. -/
def State.removeAt (s : State) (k tenant : Nat) : State :=
  let x := s.slice k
  let mine := x.events.filter fun e => e.tenant == tenant
  let run := match x.handler with
    | some h => if h.ev.tenant = tenant then [h.ev] else []
    | none => []
  let s1 := s.setSlice k { x with
    images := x.images.filter fun i => i.2.tenant != tenant
    hmem := match x.imageOf tenant with
      | some i => x.hmem.clear (partBase i.1) partSize
      | none => x.hmem
    events := x.events.filter fun e => e.tenant != tenant
    handler := if run.isEmpty then x.handler else none }
  (run ++ mine).foldl (fun t e => t.badgerDrop e) s1

/-- The image removed from every slice (R216). -/
def State.removeImage (s : State) (tenant : Nat) : State :=
  (List.range 96).foldl (fun t k => t.removeAt k tenant) s

/-! ### Messages (R213, R250) -/

/-- A BMSG completes with BSTAT. -/
def State.endBmsg (s : State) (e : BEvent) (stat : Word) : State :=
  (s.setCtx e.g ((s.ctx e.g).setEr 8 4 stat)).complete e.g 8 e.n

/-- BADGER_MSG_ARRIVE (R213, R250). -/
def execBadgerMsgArrive (sl : Nat) (s : State) : Outcome :=
  let x := s.slice sl
  match x.coming with
  | [] => .next s
  | e :: r =>
    let s1 := s.setSlice sl { x with coming := r }
    if !x.takes e.tenant 3 then .next ((s1.badgerDrop e).endBmsg e 0)
    else if x.events.length ≥ 32 then
      .next ((s1.setSlice sl { x with coming := r, nacks := x.nacks + 1 }).endBmsg e 1)
    else .next ((s1.setSlice sl { x with coming := r, events := x.events ++ [e] }).endBmsg e 0)

/-! ### Handlers (R214, R215) -/

/-- The core at the start of a handler (R214): x10 holds the event's kind, x11 its IA, x2 the top of the partition; every
other register is undefined. -/
def State.startRv (s : State) (e : BEvent) (entry : Nat) : Rv where
  pc := BitVec.ofNat 64 entry
  x := Vector.ofFn fun i => match i.val with
    | 2 => BitVec.ofNat 64 partSize
    | 10 => BitVec.ofNat 64 e.kind
    | 11 => BitVec.ofNat 64 e.ia
    | r => (s.free 4210 r).truncate 64
  resv := none

/-- BADGER_HANDLER_START (R213, R214): the next event in arrival order; one whose image takes it no longer is discarded. -/
def execBadgerHandlerStart (sl : Nat) (s : State) : Outcome :=
  let x := s.slice sl
  match x.handler, x.events with
  | none, e :: r =>
    let entry := (x.imageOf e.tenant).bind fun i => if i.2.enabled then i.2.entries.getD e.kind none else none
    match entry with
    | some a =>
      .next (s.setSlice sl { x with events := r, handler := some ⟨e, s.refClock, s.startRv e a, none, 0, 0, none, false⟩ })
    | none => .next ((s.setSlice sl { x with events := r }).badgerDrop e)
  | _, _ => .next s

/-- Badger clocks since a handler's first instruction: three for four reference clocks (R4, R387). -/
def State.badgerClocks (s : State) (h : Handler) : Nat := (s.refClock - h.since) * 3 / 4

/-- The handler of a slice that is within its budget. -/
def State.handling (s : State) (sl : Nat) : Option Handler :=
  match (s.slice sl).handler with
  | some h => if s.badgerClocks h < 2048 then some h else none
  | none => none

/-- BUDGET as the handler reads it. -/
def State.budget (s : State) (h : Handler) : Nat := 2048 - s.badgerClocks h

/-- The world of the line of an IA: that of the resident line, else that of its page. -/
def State.lineWorld (s : State) (ia : Nat) : Option Byte :=
  match (s.slice (homeSlice ia)).lines.get? (ia / 1024) with
  | some y => some y.world
  | none => match s.walk ia with
    | some p => if p.v then some p.world else none
    | none => none

/-- Does a tenant own a world? World 0 is open (R324). -/
def State.ownsWorld (s : State) (tenant : Nat) (w : Byte) : Bool :=
  w == 0 || (match s.slotOf w with
    | some k => k.tenant == tenant
    | none => false)

/-- The world of the line that a handler may access, where R214 does not refuse the address. -/
def State.portWorld (s : State) (sl : Nat) (h : Handler) (addr : Word) : Option Byte :=
  if addr.toNat % 8 ≠ 0 || addr.toNat ≥ 2 ^ 52 || homeSlice addr.toNat ≠ sl then none
  else match s.lineWorld addr.toNat with
    | none => none
    | some w => if s.ownsWorld h.ev.tenant w then some w else none

/-- A handler in its slice. -/
def State.setHandler (s : State) (sl : Nat) (h : Handler) : State :=
  s.setSlice sl { s.slice sl with handler := some h }

/-- The request of a handler has been served: STATUS is set, and its code goes on. -/
def State.served_ (s : State) (sl : Nat) (h : Handler) (err : Bool) : State := s.setHandler sl { h with err := err, req := none }

/-- A read of RDATA has been served with a value. -/
def State.gaveRdata (s : State) (sl : Nat) (h : Handler) (rd : Nat) (err : Bool) (v : Word) : State :=
  s.served_ sl { h with rv := h.rv.put rd v } err

/-! ### The code (R214, R215) -/

/-- A load from a port: of a register of the event or of STATUS at once, of RDATA as a request; any other goes astray. -/
def State.portLoad (s : State) (h : Handler) (off rd : Nat) (c : Rv) : Handler :=
  let give := fun (v : Word) => { h with rv := c.put rd v }
  match off with
  | 0x00 => give (BitVec.ofNat 64 h.ev.kind)
  | 0x08 => give (BitVec.ofNat 64 h.ev.ia)
  | 0x10 => give h.ev.info
  | 0x18 => give h.ev.ver
  | 0x20 => give h.ev.msg0
  | 0x28 => give h.ev.msg1
  | 0x30 => give (BitVec.ofNat 64 (s.budget h))
  | 0x50 => { h with rv := c, req := some (.rdata rd) }
  | 0x70 => give (if h.err then 1 else 0)
  | _ => { h with req := some .abort }

/-- A store to a port. -/
def portStore (h : Handler) (off : Nat) (v : Word) (c : Rv) : Handler :=
  match off with
  | 0x40 => { h with rv := c, req := some (.pfetch v) }
  | 0x48 => { h with rv := c, raddr := v }
  | 0x58 => { h with rv := c, waddr := v }
  | 0x60 => { h with rv := c, req := some (.wdata v) }
  | 0x68 => { h with rv := c, reply := some v }
  | 0x78 => { h with rv := c, req := some .done }
  | _ => { h with req := some .abort }

/-- The next instruction of the handler of a slice, where it has made no request that is still to be served. -/
def State.badgerStep (s : State) (sl : Nat) : State :=
  match s.handling sl with
  | none => s
  | some h =>
    let x := s.slice sl
    match h.req, x.imageOf h.ev.tenant with
    | none, some i => match rvStep (partBase i.1) partSize x.hmem h.rv with
      | .next c m => s.setSlice sl { x with hmem := m, handler := some { h with rv := c } }
      | .load off rd c => s.setHandler sl (s.portLoad h off rd c)
      | .store off v c => s.setHandler sl (portStore h off v c)
      | .bad => s.setHandler sl { h with req := some .abort }
    | _, _ => s

/-- Every badger core executes an instruction (log 13). -/
def State.badgerSteps (s : State) : State := (s.slices.map (·.1)).foldl (fun t sl => t.badgerStep sl) s

/-! ### The ports that act on the slice -/

/-- The sectors of a line that are not present are to be fetched by its home slice for a handler, or the prefetch is
dropped. That it is dropped also for a line of a world which the tenant does not own is the model's choice (log 131). -/
def State.prefetch (s : State) (h : Handler) (ia : Nat) : State :=
  let line := ia / 1024
  let k := homeSlice ia
  match (if ia < 2 ^ 52 then s.lineWorld ia else none) with
  | none => s
  | some w =>
    match s.page ia false w with
    | none => s
    | some p =>
      if !s.ownsWorld h.ev.tenant w then s
      else
        let x := s.slice k
        let have_ := match x.lines.get? line with
          | some y => y.filled
          | none => 0
        let new := ((List.range 4).filter fun i => !have_.getLsbD i &&
          !(x.fills.any fun f => f.ia == line * 1024 + 256 * i)).map fun i =>
            (⟨line * 1024 + 256 * i, w, p.cls, h.ev.tenant, h.ev.g⟩ : Fill)
        s.setSlice k { x with fills := x.fills ++ new }

/-- BADGER_PFETCH (R214): the handler's code has written PFETCH. It sets no error. -/
def execBadgerPfetch (sl : Nat) (ia : Word) (s : State) : Outcome :=
  match s.handling sl with
  | none => .next s
  | some h =>
    if h.req = some (.pfetch ia) then .next ((s.setHandler sl { h with req := none }).prefetch h ia.toNat) else .next s

/-- BADGER_RDATA (R214): the handler's code reads RDATA, RADDR holding `addr`; ciphertext for a protected line. -/
def execBadgerRdata (sl : Nat) (addr : Word) (s : State) : Outcome :=
  match s.handling sl with
  | none => .next s
  | some h =>
    match h.req with
    | some (.rdata rd) =>
      if h.raddr ≠ addr then .next s
      else match s.portWorld sl h addr with
        | none => .next (s.gaveRdata sl h rd true emptyW)
        | some w =>
          let ia := addr.toNat
          let a := badgerAcc w h.ev.tenant h.ev.g
          match s.bring ia a false false true with
          | (s1, .ok res) =>
            let v := if s1.badSector ia res then (s.free 4200 0).truncate 64 else leWord (s1.rawRead ia 8 a res)
            .next ((s1.touch ia).gaveRdata sl h rd false v)
          | (s1, .pageFault) => .next (s1.gaveRdata sl h rd true emptyW)
          | (s1, .poisoned) => .next (s1.gaveRdata sl h rd true emptyW)
    | _ => .next s

/-- BADGER_WDATA (R214, R218): the handler's code writes WDATA, WADDR holding `addr`: one write transaction, for which it
waits where the slice cannot take it yet (R206, R323); a protected line refuses it. -/
def execBadgerWdata (sl : Nat) (addr val : Word) (s : State) : Outcome :=
  match s.handling sl with
  | none => .next s
  | some h =>
    if h.req ≠ some (.wdata val) || h.waddr ≠ addr then .next s
    else match s.portWorld sl h addr with
      | none => .next (s.served_ sl h true)
      | some w =>
        let a := badgerAcc 0 h.ev.tenant h.ev.g
        let cells := cellsAt addr.toNat (leBytes 8 val.toNat)
        if w ≠ 0 then .next (s.served_ sl h true)
        else if s.txnWaits a cells true then .next s
        else match s.writeTxn a cells true with
          | (s1, .ok _) => .next (s1.served_ sl h false)
          | (s1, .pageFault) => .next (s1.served_ sl h true)
          | (s1, .poisoned) => .next (s1.served_ sl h true)

/-- BADGER_DONE (R214): the handler's code writes DONE; a message's reply is REPLY, 0 where it was never written. -/
def execBadgerDone (sl : Nat) (reply : Option Word) (s : State) : Outcome :=
  match s.handling sl with
  | none => .next s
  | some h =>
    if h.req ≠ some .done || h.reply ≠ reply then .next s
    else
      let s1 := s.setSlice sl { s.slice sl with handler := none }
      .next (if h.ev.kind = 3 then s1.badgerReply h.ev (reply.getD 0) 0 else s1)

/-- A tenant's image disabled at a slice. -/
def Slice.disable (x : Slice) (tenant : Nat) : Slice :=
  { x with images := x.images.map fun i => if i.2.tenant = tenant then (i.1, { i.2 with enabled := false }) else i }

/-- A handler is aborted (R215): its reply is ABORT, the counters rise, and the 16th overrun disables the image. -/
def State.abortHandler (s : State) (sl : Nat) (h : Handler) : State :=
  let x := s.slice sl
  let t := h.ev.tenant
  let n := min 16 (vget x.overrun t 0 + 1)
  let y : Slice := { x with handler := none, aborts := x.aborts + 1, overrun := vput x.overrun t n }
  if n = 16 && x.overrun[t]? ≠ some 16 then
    ((s.setSlice sl (y.disable t)).badgerDrop h.ev).notice t 0x20 (BitVec.ofNat 64 sl)
  else (s.setSlice sl y).badgerDrop h.ev

/-- BADGER_BUDGET_EXPIRE (R215). -/
def execBadgerBudgetExpire (sl : Nat) (s : State) : Outcome :=
  match (s.slice sl).handler with
  | some h => if s.badgerClocks h ≥ 2048 then .next (s.abortHandler sl h) else .next s
  | none => .next s

/-- BADGER_ABORT (R215): the handler's code has raised an exception, or accessed an address outside the partition and the
ports. -/
def execBadgerAbort (sl : Nat) (s : State) : Outcome :=
  match (s.slice sl).handler with
  | some h => if h.req = some .abort then .next (s.abortHandler sl h) else .next s
  | none => .next s

/-- The event that serves a handler's request. -/
def Handler.event (h : Handler) (sl : Nat) : Option Instr :=
  match h.req with
  | some (.rdata _) => some (.badgerRdata sl h.raddr)
  | some (.wdata v) => some (.badgerWdata sl h.waddr v)
  | some (.pfetch ia) => some (.badgerPfetch sl ia)
  | some .done => some (.badgerDone sl h.reply)
  | some .abort => some (.badgerAbort sl)
  | none => none

end Sys2Proof.Machine
end

