-- ==== Sys2Proof/Machine/Issue.lean ====
section
/-! DEFINITION. The choice of a context and the presentation of its bundle (R13 to R16, R23, R146, R340), and the events of
a context: landing (R19), the resolution of a branch and its stall (R146), the release of the commit buffer (R182), and
the ends of monitored waits and back-offs (R239, R311). -/

namespace Sys2Proof.Machine
open Sys2Proof

/-! ### Blocking and stopping -/

/-- What an attempt to issue from a context came to: it used the issue slot, or the context stays waiting. -/
inductive Tried where
  | acted (s : State)
  | waits (s : State)
  deriving Inhabited

/-- The context has the issue slot (R16). -/
def State.seize (s : State) (g : Nat) : State :=
  let k := s.core (coreOf g)
  s.setCore (coreOf g) { k with running := some (g % 4) }

/-- The bundle of context g blocks (R15, R23): the context becomes waiting, and the slot is free. -/
def State.block (s : State) (g : Nat) (late : Bool) : Tried :=
  let c := s.ctx g
  if c.status = .waiting then .waits s
  else
    let k := s.core (coreOf g)
    let s1 := (s.setCtx g { c with status := .waiting, blocked := some s.clock }).setCore (coreOf g)
      { k with running := none, last := g % 4, stalled := none }
    let s2 := s1.countEvent ⟨1, g, c.pc, c.steps, false, 0⟩
    .acted (if late then s2.countEvent ⟨2, g, c.pc, c.steps, false, 0⟩ else s2)

/-- A YIELD blocks its bundle, and its context is ready again at once (R15, R155). -/
def State.blockYield (s : State) (g : Nat) : Tried :=
  match (s.setCtx g { s.ctx g with status := .ready }).block g false with
  | .acted s1 => .acted (s1.setCtx g { s1.ctx g with status := .ready, blocked := none })
  | .waits s1 => .waits s1

/-- Context g waits, and no bundle of it blocks: the RESUME it waits in has issued (log 115). The slot is free, and no counter
counts it (R371). -/
def State.park (s : State) (g : Nat) : Tried :=
  let c := s.ctx g
  if c.status = .waiting then .waits s
  else .acted ((s.setCtx g { c with status := .waiting, blocked := some s.clock }).vacate g)

/-- A stop of the context presented, taken before its bundle issues; a scope report that it displaces is a record (R340). The
context has the issue slot in its handler: R16 names a block and an exit, and no stop, as what makes the core choose another
(log 103). -/
def State.stopNow (s : State) (q : StopReq) : Tried :=
  let s1 := s.seize s.cur
  let s2 := s1.setMe { s1.me with status := .ready, blocked := none }
  .acted ({ ((s2.flushReports s2.cur).stop q []) with iss := Iss.none })

/-! ### Landing before a step -/

/-- The operations whose bound ends at step m (R23). -/
def Op.due (o : Op) (m : Nat) : Bool := !o.landed && decide (o.step + o.bound ≤ m)

/-- Those of fixed latency land now. -/
def State.landDue (s : State) (g m : Nat) : State := s.landAll g fun o => o.due m && !o.late

/-- Does a late result hold the bundle at step m (R23)? One sent at a stop lands before the handler's first bundle (R242). -/
def Ctx.lateAt (c : Ctx) (m : Nat) : Bool := c.pend.any fun o => (o.due m && o.late) || (o.first && !o.landed)

/-! ### The syllables of a bundle -/

/-- A bundle's syllables with their slots; a NOP bundle is one (R35). -/
def todoOf (b : BundleIn) (step : Nat) : List Todo :=
  match b.syls with
  | [] => [⟨.nop b.hdr.stop b.hdr.gn b.hdr.gp b.hdr.hint b.hdr.bimm, 0, 0, b.hdr.bimm, step, none, none⟩]
  | ys => ys.filterMap fun y => match y.dec with
    | .ok i => some ⟨i, y.slot.index, y.bits, b.hdr.bimm, step, none, none⟩
    | .error _ => none

/-- The guard value of a bundle (R37, R38): an undefined predicate gives a free one. -/
def State.guard (s : State) (h : Header) (step : Nat) : Bool :=
  if h.gp = 0#6 && !h.gn then true
  else
    let t := { s with iss := { s.iss with slot := 8, step := step } }
    (t.srcP h.gp 0).getLsbD 0 != h.gn

/-- The syllables that the guard leaves: L, S and X are guarded (R37). -/
def live (guard : Bool) (ts : List Todo) : List Todo :=
  ts.filter fun t => guard || !(t.slot == 3 || t.slot == 4 || t.slot == 6)

/-- Address register, offset and unit of an L- or S-slot operation with an address. -/
def lsAddr (i : Instr) : Option (Reg × Byte × Nat) :=
  match memReq i with
  | some r => some (r.a, r.off, r.n)
  | none => match i with
    | .ldf _ a off | .probe _ a off | .pft _ a off | .mwait _ a off => some (a, off, 8)
    | _ => none

/-- Does a syllable access memory at tag 0x0 or 0x4 (R371)? -/
def State.homeBound (s : State) (t : Todo) : Bool :=
  match lsAddr t.instr with
  | some x => let k := tagOf ((s.atSlot t).ea x.1 x.2.1 x.2.2); k == 0 || k == 4
  | none => false

/-- Slot of the sampled request of a bundle that accesses memory at tag 0x0 or 0x4: its lowest-slot memory syllable (R372). -/
def State.sampleSlot (s : State) (ts : List Todo) : Option Nat :=
  if ts.any s.homeBound then (ts.find? fun t => (lsAddr t.instr).isSome).map (·.slot) else none

/-- Does a syllable hold its bundle? -/
def State.holdsBundle (s : State) (t : Todo) : Bool := (s.atSlot t).blockedBy t.instr

/-! ### The predicted arm (R146) -/

/-- May a bundle issue on the predicted arm: is it empty, or has it only an X syllable? -/
def armBundle (b : BundleIn) : Bool := b.syls.all fun y => y.slot == .x

/-- The operands of an X-slot syllable as the commit buffer takes them: A, B, and the pair of a BIND or UNBIND. -/
def State.cbOperands (s : State) (i : Instr) : Word × Word × Vec :=
  let two := fun (a : Reg) (b : Src) => (s.opA a, s.opB b, (0 : Vec))
  match i with
  | .erw _ a b _ => two a b
  | .tlwait _ a b => two a b
  | .cbsync a b => two a b
  | .phwait a b => two a b
  | .bind a b => (s.srcS a 0, s.opB b, (s.srcS a 0 ++ s.srcS (a + 1) 2).zeroExtend 256)
  | .unbind a b => (s.srcS a 0, s.opB b, (s.srcS a 0 ++ s.srcS (a + 1) 2).zeroExtend 256)
  | .phreg a | .phdrop a | .phsig a | .phsw a => (s.opA a, 0, 0)
  | _ => (0, 0, 0)

/-- A bundle on the arm stalls; after 16 clocks the stall is a late-result block, which lasts until the branch resolves
(R14, R15, R146). -/
def State.stallArm (s : State) (g : Nat) : Tried :=
  let k := s.core (coreOf g)
  let c := s.ctx g
  let late := s.setCtx g { c with xfer := c.xfer.map fun x => { x with blocked := true } }
  if (c.xfer.map (·.blocked)).getD false then s.block g true
  else
    let t := k.stalled.getD s.clock
    if s.clock ≥ t + 16 then late.block g true
    else .acted ((s.setCore (coreOf g) { k with stalled := some t, running := some (g % 4) }).setCtx g
      { c with status := .ready, blocked := none })

/-- A bundle issued tentatively (R146, R182). -/
def State.tentative (s : State) (g : Nat) (b : BundleIn) : Tried :=
  let c := s.ctx g
  let m := c.steps + c.tent.length
  let ts := live (s.guard b.hdr m) ((todoOf b m).filter fun t => t.slot == 6)
  let k := s.core (coreOf g)
  if !ts.isEmpty && decide (k.cbuf.length ≥ 8) then s.block g false
  else
    let es := ts.map fun t =>
      let o := (s.atSlot t).cbOperands t.instr
      (⟨g, t.syl, t.bimm, o.1, o.2.1, o.2.2, m, c.pc, false⟩ : CbEntry)
    .acted ((s.setCore (coreOf g) { k with cbuf := k.cbuf ++ es, stalled := none, running := some (g % 4) }).setCtx g { c with
      status := .ready, blocked := none, pc := c.pc + BitVec.ofNat 64 b.hdr.len
      tent := c.tent ++ [⟨c.pc, b.hdr.stop, !es.isEmpty⟩] })

/-! ### Presentation -/

/-- A wait on a phaser that the context no longer makes. -/
def State.endWait (s : State) (g : Nat) : State :=
  match (s.ctx g).waitPh with
  | none => s
  | some w => (s.setCtx g { s.ctx g with waitPh := none }).phTouch w.1 w.2.1

/-- Is an instruction PHWAIT, or YIELD? -/
def isPhwait : Instr → Bool
  | .phwait _ _ => true
  | _ => false
def isYield : Instr → Bool
  | .yield => true
  | _ => false

/-- A legal bundle off the arm, its stops aside: it blocks, or it is latched for execution and counted (R13, R15, R371). -/
def State.issueBundle (s : State) (g : Nat) (b : BundleIn) (bs : List Byte) : Tried :=
  let m := (s.ctx g).steps
  let s1 := s.landDue g m
  if (s1.ctx g).lateAt m then s1.block g true
  else
    let ts := live (s1.guard b.hdr m) (todoOf b m)
    let held := ts.filter s1.holdsBundle
    let waited := if held.any (fun y => isPhwait y.instr) then s1 else s1.endWait g
    if !held.isEmpty then
      let s2 := held.foldl (fun t y => { (t.atSlot y).onBlock y.instr with iss := t.iss }) waited
      if held.all (fun y => isYield y.instr) then s2.blockYield g else s2.block g false
    else
      let c := waited.ctx g
      let s2 := waited.seize g
      let s3 := (s2.setCtx g { s2.ctx g with status := .ready, blocked := none }).holdBundle g c.pc.toNat bs
      let s4 := s3.countEvent ⟨0, g, c.pc, m, b.hdr.stop, 0⟩
      let s5 := match s1.sampleSlot ts with
        | some k => s4.countEvent ⟨3, g, c.pc, m, b.hdr.stop, k⟩
        | none => s4
      .acted { s5 with iss := { Iss.none with
        mode := .bundle, addr := c.pc, len := b.hdr.len, stop := b.hdr.stop, bimm := b.hdr.bimm, step := m, todo := ts } }

/-- The checks of a bundle that is presented, in the order of R340, and its issue. -/
def State.presentBundle (s : State) (g : Nat) : Tried :=
  let c := s.ctx g
  let a := c.pc.toNat
  let bs := s.bundleAt g a
  let b := decodeBundle bs
  let bad := s.fetchBad g a bs.length
  let arm := match c.xfer with
    | some x => decide (x.left = 0) && x.arm_
    | none => false
  let delay := match c.xfer with
    | some x => decide (x.left ≠ 0)
    | none => false
  let ill := illegalAt delay c.loop.isSome b
  if arm then
    if bad || ill.isSome || !armBundle b then s.stallArm g else s.tentative g b
  else if bad then s.stopNow (.plain 0x09 c.pc)
  else match ill with
    | some r => s.stopNow ⟨0x06, r.1, r.2, 0, c.pc⟩
    | none =>
      if s.privileged (todoOf b c.steps) then s.stopNow (.plain 0x07 c.pc)
      else if s.breaks g a b.hdr.stop && !c.skipBp then
        (s.setCtx g { c with safeord := (s.ordinalAt g a).zeroExtend 64 }).stopNow (.plain 0x0A c.pc)
      else s.issueBundle g b bs

/-- Is a CALLT's entry still on its way after the delay bundles (R149)? -/
def Ctx.calltLate (c : Ctx) : Bool :=
  match c.xfer with
  | some x => decide (x.left = 0) && x.kind == .callt && !x.landed
  | none => false

/-- Is a context's wait on a phaser over (R301, R304)? -/
def State.woken (s : State) (w : Nat × Nat × Word × Nat) : Bool := !s.phPending ((w.1, w.2.1), w.2.2.1)

/-- May a waiting context of a core with a free issue slot issue once its wait on a phaser is over? -/
def State.mayReturn (s : State) (g : Nat) : Bool :=
  let c := s.ctx g
  let k := s.core (coreOf g)
  c.status == .waiting && c.async.isNone && c.redo.isNone && k.running.isNone && !k.fenced && decide (k.frozen ≤ s.clock) &&
    !s.cbHeld g && !c.lateAt c.steps

/-- Does another wait on the same phaser, over like this one, return first, since it blocked earlier (R295, log 113)? -/
def State.phTurn (s : State) (g : Nat) : Bool :=
  match (s.ctx g).waitPh with
  | none => false
  | some w => s.woken w && s.ctxs.any fun e => match e.2.waitPh with
    | none => false
    | some v => v.1 == w.1 && v.2.1 == w.2.1 && decide (v.2.2.2 < w.2.2.2) && s.woken v && s.mayReturn e.1

/-- A RESUME in progress goes on (R349): it waits (log 115), or latches the records still to be reissued. -/
def State.presentRedo (s : State) (g : Nat) (r : Redo) : Tried :=
  if r.start then
    if s.resumeWaits then s.park g
    else
      let s1 := s.seize g
      .acted (State.restore (s1.setCtx g { s1.ctx g with status := .ready, blocked := none }))
  else
    let w := s.phswWait g
    let s1 := { w.1 with iss := { Iss.none with mode := .reissue, todo := r.todo, again := r.again } }
    let wait := match r.todo with
      | [] => w.2 || s1.cbHeld g
      | t :: _ => w.2 || s1.redoHolds t
    if wait then { s1 with iss := Iss.none }.park g
    else
      let s2 := s1.seize g
      .acted (s2.setCtx g { s2.ctx g with status := .ready, blocked := none })

/-- Context g presents its next bundle, at the address that fetch goes on at. -/
def State.presentNext (s : State) (g : Nat) : Tried :=
  let w := s.phswWait g
  if w.2 || w.1.cbHeld g then w.1.block g false
  else
    let c := w.1.ctx g
    let s1 := w.1.landDue g (c.steps + c.tent.length)
    let r := s1.settle g
    match r.2 with
    | some q => (r.1.setCtx g { r.1.ctx g with xfer := none }).stopNow q
    | none =>
      if r.1.cbHeld g then r.1.block g false
      else if (r.1.ctx g).calltLate || (r.1.ctx g).lateAt (c.steps + c.tent.length) then r.1.block g true
      else r.1.presentBundle g

/-- Context g is presented: an asynchronous fatal stop comes first, then a RESUME in progress, then the scope-checker stop of a
load that has filled its line since the last bundle (R373), then its next bundle. -/
def State.present (s0 : State) (g : Nat) : Tried :=
  let s := { s0 with cur := g, iss := Iss.none }
  match (s.ctx g).async with
  | some cause => s.stopNow (.plain cause (s.ctx g).nextPc)
  | none => match (s.ctx g).redo with
    | some r => s.presentRedo g r
    | none => match (s.ctx g).report with
      | _ :: rest => (s.setCtx g { s.ctx g with report := rest }).stopNow (.plain 0x0E (s.ctx g).nextPc)
      | [] => if s.phTurn g then .waits s else s.presentNext g

/-! ### The choice of a context (R16) -/

/-- Is a gang being pre-empted, so that this context must divert before it issues outside its handler and its RESUME
(R354)? -/
def State.mustDivert (s : State) (g : Nat) : Bool :=
  match s.gangOf g with
  | some (x, _) => x.phase == .draining && !(s.ctx g).hm && (s.ctx g).redo.isNone
  | none => false

/-- May the context be presented? -/
def State.presentable (s : State) (g : Nat) : Bool :=
  ((s.ctx g).status == .ready || (s.ctx g).status == .waiting) && !(s.ctx g).ending && !s.mustDivert g

/-- The contexts of a core tried in order until one uses the slot. -/
def State.tryOrder (s : State) (core : Nat) : List Nat → State
  | [] => s
  | x :: r =>
    let g := core * 4 + x
    if s.presentable g then
      match s.present g with
      | .acted s1 => s1
      | .waits s1 => { s1 with iss := Iss.none }.tryOrder core r
    else s.tryOrder core r

/-- Hardware contexts in the order in which a core considers them: the running one, else upward from the one that left. -/
def Core.order (k : Core) : List Nat :=
  match k.running with
  | some x => [x]
  | none => [(k.last + 1) % 4, (k.last + 2) % 4, (k.last + 3) % 4, k.last % 4]

/-- BUNDLE_ISSUE (R13). -/
def execBundleIssue (core : Nat) (s : State) : Outcome :=
  let k := s.core core
  .next (if k.fenced || decide (s.clock < k.frozen) then s else s.tryOrder core k.order)

/-! ### Events of a context -/

/-- Indices of the unfinished operations. -/
def Ctx.unfinished (c : Ctx) : List Nat :=
  (List.range c.pend.length).filter fun i => match c.pend[i]? with
    | some o => !o.landed
    | none => false

/-- RESULT_LAND (R19, R21, R228). -/
def execResultLand (g k : Nat) (s : State) : Outcome :=
  match ((s.ctx g).unfinished)[k]? with
  | some i => .next (s.land g i)
  | none => .next s

/-- BRANCH_RESOLVE (R146). -/
def execBranchResolve (g : Nat) (s : State) : Outcome :=
  let c := s.ctx g
  match c.xfer with
  | none => .next s
  | some x =>
    if x.kind = .br && x.left = 0 && c.brDone x then
      let r := s.settle g
      match r.2 with
      | none => .next r.1
      | some q =>
        let s1 := { r.1 with cur := g, iss := Iss.none }
        .next { ((s1.flushReports g).stop q []) with iss := Iss.none }
    else .next s

/-- ARM_STALL_TIMEOUT (R146). -/
def execArmStallTimeout (g : Nat) (s : State) : Outcome :=
  let k := s.core (coreOf g)
  let on := match (s.ctx g).xfer with
    | some x => x.arm_ && !(s.ctx g).brDone x
    | none => false
  match k.stalled with
  | some t =>
    if on && decide (k.running = some (g % 4)) && decide (s.clock ≥ t + 16) then
      let c := s.ctx g
      match (s.setCtx g { c with xfer := c.xfer.map fun x => { x with blocked := true } }).block g true with
      | .acted s1 => .next s1
      | .waits s1 => .next s1
    else .next s
  | none => .next s

/-- The released entries of a commit buffer that may be captured next: the oldest of each context, in order. -/
def firstEntries : List CbEntry → List CbEntry
  | [] => []
  | e :: r => e :: (firstEntries r).filter fun f => f.g != e.g

/-- The latch for the release of an entry (R182). -/
def State.releaseItem (s : State) (e : CbEntry) (i : Instr) : State :=
  let w := { (default : Written) with hold := e.hold, addr := e.addr }
  let t : Todo := ⟨i, 6, e.syl, e.bimm, e.step, some (e.opa, e.opb), some w⟩
  ({ s with
    cur := e.g, iss := { Iss.none with mode := .release, addr := e.addr, bimm := e.bimm, step := e.step, todo := [t] } } :
      State).atSlot t

/-- The oldest entry whose release does not wait is latched; those that wait leave their requests. What follows a PHSW waits for
its phase (R303). -/
def State.releaseFrom (s : State) (core : Nat) : List CbEntry → State
  | [] => s
  | e :: r =>
    match decodeSyl .x e.syl with
    | .error _ => s
    | .ok i =>
      let w := s.phswWait e.g
      let t := w.1.releaseItem e i
      if w.2 then { w.1 with iss := s.iss }.releaseFrom core r
      else if t.blockedBy i then { (t.onBlock i) with iss := Iss.none, cur := s.cur }.releaseFrom core r
      else
        let k := t.core core
        t.setCore core { k with cbuf := k.cbuf.erase e }

/-- COMMIT_BUFFER_RELEASE (R182). -/
def execCommitBufferRelease (core : Nat) (s : State) : Outcome :=
  .next (s.releaseFrom core (firstEntries ((s.core core).cbuf.filter (·.released))))

/-- A waiting context whose wait has ended becomes ready (R15). -/
def State.readied (s : State) (g : Nat) : State :=
  let c := s.ctx g
  if c.status = .waiting then s.setCtx g { c with status := .ready } else s

/-- MWAIT_TIMEOUT (R239). -/
def execMwaitTimeout (g : Nat) (s : State) : Outcome :=
  match (s.ctx g).monitor with
  | none => .next s
  | some m =>
    if m.limit ≠ 0 && decide (s.clock ≥ m.since + m.limit) then
      .next ((s.setCtx g { s.ctx g with monitor := some { m with woken := true } }).readied g)
    else .next s

/-- MWAIT_SPURIOUS_WAKE (R239). -/
def execMwaitSpuriousWake (g : Nat) (s : State) : Outcome :=
  match (s.ctx g).monitor with
  | none => .next s
  | some m => .next ((s.setCtx g { s.ctx g with monitor := some { m with woken := true } }).readied g)

/-- FWAIT_BACKOFF_EXPIRE (R311). -/
def execFwaitBackoffExpire (g : Nat) (s : State) : Outcome :=
  match (s.ctx g).backoff with
  | none => .next s
  | some t => if s.clock ≥ t then .next (s.readied g) else .next s

end Sys2Proof.Machine
end

