-- ==== Sys2Proof/Machine/Debug.lean ====
section
/-! DEFINITION. Sampling (R371, R372). -/

namespace Sys2Proof.Machine
open Sys2Proof

/-- The first entry of a list that satisfies a test, and the list without it. -/
def takeFirst {α : Type} (p : α → Bool) : List α → Option (α × List α)
  | [] => none
  | x :: r => if p x then some (x, r) else (takeFirst p r).map fun q => (q.1, x :: q.2)

/-- CNT_SAMPLE (R371): the record names the bundle that wrapped the counter. -/
def execCntSample (cl n : Nat) (s : State) : Outcome :=
  let c := s.cl cl
  match takeFirst (fun h => h.cnt == n) c.dbg.hits with
  | none => .next s
  | some (h, rest) =>
    .next ((s.setCl cl { c with dbg := { c.dbg with hits := rest } }).owlAt h.time h.g 3 n h.ord
      (leBytes 4 h.addr.toNat ++ leBytes 8 h.step ++ leBytes 4 0))

/-- The 64 bytes of a return block (R372). -/
def returnBlock (seq : Word) (time : Nat) (addr : Word) (total : BitVec 32) (stages : List Byte) : List Byte :=
  leBytes 8 seq.toNat ++ leBytes 8 time ++ leBytes 4 addr.toNat ++ leBytes 4 total.toNat ++ stages ++ leBytes 24 0

/-- Are the clocks of a request those that R372 allows: eight stages, within TOTAL unless one saturates? -/
def stagesOk (total : BitVec 32) (stages : List (BitVec 16)) : Bool :=
  decide (stages.length = 8) && (stages.any (· == 0xFFFF#16) ||
    decide ((stages.map (·.toNat)).foldl (· + ·) 0 ≤ total.toNat))

/-- Has a sampled request still to land or to be performed? -/
def Ctx.sampleWaits (c : Ctx) (h : Sample) : Bool :=
  (c.pend.any fun o => !o.landed && o.step == h.step && o.slot == h.slot) ||
    (decide (h.slot = 3) && c.ldfs.any fun l => l.step == h.step && l.at_ != .answered)

/-- SAMPLE_BREAKDOWN (R372): once the sampled request has landed or been performed. -/
def execSampleBreakdown (cl n : Nat) (total : BitVec 32) (stages : List (BitVec 16)) (s : State) : Outcome :=
  let d := (s.cl cl).dbg
  match takeFirst (fun h => h.cnt == n) d.sample with
  | none => .next s
  | some (h, rest) =>
    if (s.ctx h.g).sampleWaits h || !stagesOk total stages then .next s
    else
      let c := s.cl cl
      let sb := stages.flatMap fun x => leBytes 2 x.toNat
      let s1 := (s.setCl cl { c with dbg := { d with sample := rest } }).owl h.g 4 n total.toNat sb
      let base := bits d.retBase 51 6 * 64
      if base = 0 then .next s1
      else
        let k := s1.ctx h.g
        let seq := k.retSeq + 1
        let s2 := s1.setCtx h.g { k with retSeq := seq }
        match s2.writeTxn (unitFor ((s2.tenantOf cl).getD 16))
            (cellsAt (base + 64 * memberOf h.g) (returnBlock seq s.refClock h.addr total sb)) false 0 .nobody with
        | (s3, .ok _) => .next s3
        | (s3, .pageFault) => .next s3
        | (s3, .poisoned) => .next s3

end Sys2Proof.Machine
end

