-- ==== Sys2Proof/Machine/MemEvents.lean ====
section
/-! DEFINITION. Events of the memory side: fills and evictions (R204, R208, R272), futures (R210, R235), the near combiner
(R234), refresh and errors of memory (R219, R220), and TINV (R323). -/

namespace Sys2Proof.Machine
open Sys2Proof

/-- SLICE_LINE_FILL (R208, R272): a sector that was asked for arrives; it is dropped where its slice cannot take it. An access
that has found it on its way has made it arrive already. -/
def execSliceLineFill (sl k : Nat) (s : State) : Outcome :=
  match (s.slice sl).fills[k]? with
  | none => .next s
  | some f => .next (s.arrive sl f)

/-- WRITE_TRANSACTION (R204, R208): a line of the L1 is evicted, never one that holds buffered bytes (R292). -/
def execWriteTransaction (core k : Nat) (s : State) : Outcome :=
  match (s.core core).l1[k]? with
  | none => .next s
  | some e => .next (s.l1Evict core e.1)

/-- LDF_PERFORM (R210): the LDF reaches its slice, after the context's earlier ones to that line (R223); it waits where its
slice cannot take its line (R206). -/
def execLdfPerform (g k : Nat) (s : State) : Outcome :=
  match (s.ctx g).ldfs[k]? with
  | none => .next s
  | some l =>
    if l.at_ = .sent && !s.ldfWaits g l then
      .next (s.performLdfs g fun x => x.member == l.member && x.ia / 1024 == l.ia / 1024 && decide (x.id ≤ l.id))
    else .next s

/-- Is an operation issued before an LDF of a context (R21)? -/
def Ldf.after (l : Ldf) (step slot : Nat) : Bool := decide (step < l.step) || (decide (step = l.step) && decide (slot < 3))

/-- Has a stop of a context been taken and the first bundle of its handler not issued? An answer that arrives then lands after
that bundle, as one that takes longer would. -/
def Ctx.atEntry (c : Ctx) : Bool :=
  c.hm && (match c.aside with
    | some a => decide (c.steps = a.step)
    | none => false)

/-- FUTURE_ANSWER (R235): an answer lands; an older result never overwrites it (R21, R348), nor it a younger one. -/
def execFutureAnswer (g k : Nat) (s : State) : Outcome :=
  let c := s.ctx g
  match c.ldfs[k]? with
  | none => .next s
  | some l =>
    if l.at_ ≠ .answering || c.atEntry then .next s
    else
      let d := RegN.s l.dest
      let c1 := if l.gone then c else c.putReg d (l.val.zeroExtend 256)
      let ldfs := c1.ldfs.map fun x =>
        if x.id = l.id then { x with at_ := .answered, time := s.clock }
        else if x.dest = l.dest && decide (x.id < l.id) && x.at_ ≠ .answered then { x with gone := true } else x
      let pend := if l.gone then c1.pend else c1.pend.map fun o => if l.after o.step o.slot then supersede [d] o else o
      let xfer := if l.gone then c1.xfer else c1.xfer.map fun x => x.passed l.step 3 [d]
      let c2 : Ctx := { c1 with ldfs := ldfs, pend := pend, xfer := xfer }
      .next (s.setCtx g (if l.gone then c2 else c2.passRecs l.step 3 [d]))

/-- QNT_FLUSH_FULL (R234). -/
def execQntFlushFull (cl k : Nat) (s : State) : Outcome :=
  match (s.cl cl).comb[k]? with
  | some e => if e.count ≥ 64 then .next (s.flushComb cl k) else .next s
  | none => .next s

/-- QNT_FLUSH_TIMEOUT (R234). -/
def execQntFlushTimeout (cl k : Nat) (s : State) : Outcome :=
  match (s.cl cl).comb[k]? with
  | some e => if s.clock ≥ e.since + 4096 then .next (s.flushComb cl k) else .next s
  | none => .next s

/-! ### Memory controllers -/

/-- Key of a bank's postponed refreshes. -/
def bankKey (ctrl bank : Nat) : Nat := ctrl * 2 ^ 16 + bank

/-- HBM_REFRESH (R220): the refresh is performed, or postponed where a request waits, which the device decides. The ninth
is the forced one. -/
def execHbmRefresh (ctrl bank : Nat) (s : State) : Outcome :=
  let n := s.mg.postponed.get (bankKey ctrl bank) 0
  if n ≥ 8 then .next s
  else
    let n1 := if (s.free 4300 (bankKey ctrl bank)).getLsbD 0 then n + 1 else 0
    .next { s with mg := { s.mg with postponed := s.mg.postponed.put (bankKey ctrl bank) n1 } }

/-- HBM_FORCED_REFRESH (R220): every bank of the channel is refreshed; which banks share a channel the manual does not
say. -/
def execHbmForcedRefresh (ctrl bank clocks : Nat) (s : State) : Outcome :=
  if s.mg.postponed.get (bankKey ctrl bank) 0 < 8 then .next s
  else
    let post := s.mg.postponed.map fun e =>
      if e.1 = bankKey ctrl bank || (decide (e.1 / 2 ^ 16 = ctrl) && (s.free 4301 e.1).getLsbD 0) then (e.1, 0) else e
    let n := s.mg.forced.get ctrl 0
    .next { s with mg := { s.mg with postponed := post, forced := s.mg.forced.put ctrl (n + BitVec.ofNat 64 clocks) } }

/-- ECC_UNCORRECTABLE (R219): a sector is poisoned, in memory or in its L2 copy alone. -/
def execEccUncorrectable (ia : Nat) (inMemory : Bool) (s : State) : Outcome :=
  if inMemory then .next { s with poison := ia / 256 :: s.poison.filter (· != ia / 256) }
  else
    let sl := homeSlice ia
    let x := s.slice sl
    match x.lines.get? (ia / 1024) with
    | none => .next s
    | some y => .next (s.setSlice sl { x with lines := x.lines.put (ia / 1024) { y with
        poison := y.poison ||| (y.filled &&& (1#4 <<< (ia / 256 % 4))) } })

/-! ### TINV -/

/-- TINV (R323, R379): a write of TINVLEN starts it. -/
def execTinv (len : Word) (s : State) : Outcome :=
  if !s.mg.ready then .next s
  else
    let s1 := { s with mg := { s.mg with tinvLen := len, tbusy := true } }
    .next (if s.mg.tbusy then s1 else s1.pfMsg 1)

/-- TINV_COMPLETE (R323): the kept entries of the range go. -/
def execTinvComplete (s : State) : Outcome :=
  if s.mg.tbusy then
    let lo := bits s.mg.tinvBase 35 0
    let n := s.mg.tinvLen.toNat
    .next (({ s with
      tlb := s.tlb.filter fun e => !(decide (lo ≤ e.1) && decide (e.1 < lo + n))
      mg := { s.mg with tbusy := false } } : State).pfMsg 1)
  else .next s

end Sys2Proof.Machine
end

