-- ==== Sys2Proof/Machine/Load.lean ====
section
/-! DEFINITION. What fills half A at a placement: the expansion of a stored text stream (R80, R282), the measured loader of
a sealed object (R72, R73, R84, R331), the measurement of a load (R332), and the safe-point map (R366). -/

namespace Sys2Proof.Machine
open Sys2Proof

/-- A window that maps IA to IA from an address on (R279: no window exists before the gang starts). -/
def idWindow (ia : Nat) : Window :=
  let b := ia / 65536 % 2 ^ 36
  let n := min (2 ^ 16) (2 ^ 36 - b) - 1
  ⟨BitVec.ofNat 64 (2 ^ 63 + 2 ^ 62 + 2 ^ 60 + b), BitVec.ofNat 64 (b * 2 ^ 28 + n)⟩

/-- A fill of half A. -/
def fillCmd (eng : Nat) (text dict : Word) (streamWords : Nat) (aux : List Word) : Cmd where
  instr := .ifill
  g := 0
  eng := eng
  n := 0
  regs := [text, dict, 0, 65536, BitVec.ofNat 64 streamWords]
  fmts := []
  qa := 0
  qb := 0
  win := [idWindow text.toNat, idWindow dict.toNat]
  world := 0
  ins := []
  outs := []
  taint := []
  rng := 0
  aux := aux
  tenure := 0
  at_ := 0

/-- The words of half A expanded from TEXT and DICT, or the IFSTAT value of a fill that fails. -/
def State.expandText (s : State) (text dict : Word) : State × Except Word (List Nat) :=
  let c := fillCmd fillLaunch text dict 0 []
  let f := runUnits c (65536 / 4 + 2) text ⟨s, [], none⟩
  let stat := f.stat.getD 2
  if stat = 0 then (f.s, .ok f.out.reverse) else (f.s, .error (BitVec.ofNat 64 (stat + 4 * f.out.length * 2 ^ 32)))

/-- 32-bit words of bytes. -/
def wordsOf (bs : List Byte) : List Nat := (chunks 4 (bs.length / 4) bs).map leNat

/-- The words expanded from a stream and a dictionary that are held: none where they break R79 or R80, or expand past 64 KiB,
for which R80 names no code and 0x05 is the model's choice (log 112). -/
def State.expandHeld (s : State) (text dict : List Byte) : Option (List Nat) :=
  let ws := wordsOf text
  let c := fillCmd fillHeld 0 (if dict.isEmpty then 0 else 0x100000000#64) ws.length
    ((ws ++ wordsOf dict).map (BitVec.ofNat 64))
  let f := runUnits c (65536 / 4 + 2) 0 ⟨s, [], none⟩
  if f.stat = some 0 then some f.out.reverse else none

/-! ### Sealed objects -/

/-- A section of an object, with the number of its entry in the section table (R73). -/
structure Sect where
  ix    : Nat
  ty    : Nat
  flags : Nat
  name  : Nat
  align : Nat
  link  : Nat
  bytes : List Byte
  deriving DecidableEq, Repr, Inhabited

/-- n bytes of the object at an address, read as the command unit reads (R279). -/
def State.objBytes (s : State) (ia n : Nat) : State × Option (List Byte) :=
  match s.homeMany unitAcc ia n with
  | (s1, .ok bs) => (s1, some bs)
  | (s1, .pageFault) => (s1, none)
  | (s1, .poisoned) => (s1, none)

/-- Is a number a power of two that a 32-bit field holds? -/
def isPow2 (n : Nat) : Bool := (List.range 32).any fun k => 2 ^ k == n

/-- Is an entry of a section table well-formed (R73)? Its reserved FLAGS bits are ignored (R8). -/
def sectEntryOk (e : List Byte) : Bool :=
  decide (1 ≤ fld e 0 2) && decide (fld e 0 2 ≤ 17) && decide (fld e 8 8 % 8 = 0) && isPow2 (fld e 24 4)

/-- The sections that the entries of a section table name, the first of them entry i: none where one is malformed or cannot
be read. -/
def State.readSects (s : State) (base i : Nat) : List (List Byte) → State × Option (List Sect)
  | [] => (s, some [])
  | e :: r =>
    if !sectEntryOk e then (s, none)
    else match s.objBytes (base + fld e 8 8) (fld e 16 8) with
      | (s1, none) => (s1, none)
      | (s1, some bs) =>
        match s1.readSects base (i + 1) r with
        | (s2, none) => (s2, none)
        | (s2, some xs) => (s2, some (⟨i, fld e 0 2, fld e 2 2 % 16, fld e 4 4, fld e 24 4, fld e 28 4, bs⟩ :: xs))

/-- The first section of a type: of several tables of one type the manual does not say which counts, and that it is the first, its
LINK unread, is the model's choice (log 127). -/
def sectOf (xs : List Sect) (ty : Nat) : Option Sect := xs.find? fun x => x.ty == ty

/-- The sections that the seal encrypts, in section-table order (R84). -/
def sealedOf (xs : List Sect) : List Sect := xs.filter fun x => x.ty != 15 && x.ty != 16

/-- The sections with their bytes taken from a plaintext in order. -/
def spread : List Sect → List Byte → List Sect
  | [], _ => []
  | x :: r, bs => { x with bytes := bs.take x.bytes.length } :: spread r (bs.drop x.bytes.length)

/-- A section in expanded form (R84): none where its stream cannot be expanded. -/
def State.expanded (s : State) (xs : List Sect) (x : Sect) : Option (List Byte) :=
  if x.ty = 1 && x.flags % 2 = 1 then
    (s.expandHeld x.bytes (match sectOf xs 2 with
      | some d => d.bytes
      | none => [])).map wordBytes
  else some x.bytes

/-- The 32 bytes of a key, as SHAKE256 takes them. -/
def keyBytes (k : BitVec 256) : List Byte := leBytes 32 k.toNat

/-- Seal key and key identifier of a tenant key (R330). -/
def sealKey (kt : BitVec 256) : List Byte := shake256 32 (0x01#8 :: keyBytes kt)
def keyIdent (kt : BitVec 256) : List Byte := shake256 16 (0x04#8 :: keyBytes kt)

/-- What a load leaves to be placed: half A, what is measured (R332), the function table (R331), and whether
it was sealed. -/
structure Loaded where
  half  : Half
  plain : List Byte
  ftab  : List Byte
  shut  : Bool
  deriving DecidableEq, Repr, Inhabited

/-! #### The tables of an object -/

/-- The entries of a table section: none where its size is no multiple of theirs. -/
def entriesOf (n : Nat) (bs : List Byte) : Option (List (List Byte)) :=
  if bs.length % n = 0 then some (chunks n (bs.length / n) bs) else none

/-- The name at an offset of the string section, up to its zero byte (log 122). -/
def nameAt (strs : List Byte) (o : Nat) : List Byte := (strs.drop o).takeWhile (· != 0#8)

/-- A global definition among the symbol entries (R75). -/
def symDef (e : List Byte) : Bool := decide (fld e 4 2 ≠ 0) && decide (fld e 6 2 % 2 = 1)

/-- An undefined reference that finds no definition (R76, code 0x03). -/
def undefinedSym (strs : List Byte) (syms : List (List Byte)) : Bool :=
  syms.any fun e => decide (fld e 4 2 = 0) &&
    !(syms.any fun d => symDef d && nameAt strs (fld d 0 4) == nameAt strs (fld e 0 4))

/-- The bytes of an entry of a table by the section's type: 1 where the manual gives no entry (R74, R75, R78, R81 to R83,
R291). -/
def entrySize : Nat → Nat
  | 5 => 16
  | 7 => 32
  | 8 | 11 | 13 => 24
  | 9 | 10 => 64
  | _ => 1

/-- A relocation entry, with the section that it applies to (R73, R78). -/
structure Reloc where
  sect : Nat
  e    : List Byte
  deriving DecidableEq, Repr, Inhabited

/-- The relocations of an object, in ascending order of their sites. -/
def relocsOf (ps : List Sect) : List Reloc :=
  let rs := (ps.filter fun x => x.ty == 13).flatMap fun x => (chunks 24 (x.bytes.length / 24) x.bytes).map (Reloc.mk x.link)
  rs.mergeSort fun a b => decide (fld a.e 0 8 ≤ fld b.e 0 8)

/-- Site and mask of a relocation by its type: bytes, and the bits that it writes (R78). -/
def Reloc.site (r : Reloc) : Nat × Nat :=
  match fld r.e 12 2 with
  | 1 => (8, 2 ^ 64 - 1)
  | 3 => (4, 2 ^ 22 - 1)
  | 4 | 5 | 6 | 7 | 8 | 9 => (4, 2 ^ 12 - 1)
  | _ => (4, 2 ^ 32 - 1)

/-- The bytes of a section with the site of a relocation set to zero. -/
def Reloc.clear (bs : List Byte) (r : Reloc) : List Byte :=
  let o := fld r.e 0 8
  let n := r.site.1
  bs.take o ++ (leBytes n ((fld bs o n) - (fld bs o n) % (r.site.2 + 1))).take (bs.length - o) ++ bs.drop (o + n)

/-- What a relocation contributes to a content hash: its type, its addend and the name of its symbol (R76), as they stand in the
object (log 124). -/
def Reloc.adds (strs : List Byte) (syms : List (List Byte)) (r : Reloc) : List Byte :=
  sub r.e 12 2 ++ sub r.e 16 8 ++ nameAt strs (fld (syms.getD (fld r.e 8 4) []) 0 4)

/-- The content hash of a symbol, of the expanded bytes of its section (R76). -/
def contentHash (strs : List Byte) (syms : List (List Byte)) (rs : List Reloc) (parts : List (Nat × List Byte))
    (e : List Byte) : BitVec 256 :=
  let bs := ((parts.find? fun p => p.1 == fld e 4 2).map (·.2)).getD []
  let here := rs.filter fun r => decide (r.sect = fld e 4 2) && decide (fld e 8 8 ≤ fld r.e 0 8) &&
    decide (fld r.e 0 8 < fld e 8 8 + fld e 16 4)
  shake32 (sub (here.foldl Reloc.clear bs) (fld e 8 8) (fld e 16 4) ++ here.flatMap (Reloc.adds strs syms))

/-- Two definitions of one global name that R76 refuses (code 0x04); `hash` is the content hash. -/
def duplicateSym (strs : List Byte) (hash : List Byte → BitVec 256) : List (List Byte) → Bool
  | [] => false
  | e :: r => (symDef e && r.any fun d => symDef d && nameAt strs (fld d 0 4) == nameAt strs (fld e 0 4) &&
      !(bit (BitVec.ofNat 64 (fld d 6 2)) 1 && bit (BitVec.ofNat 64 (fld e 6 2)) 1 && hash d == hash e)) ||
      duplicateSym strs hash r

/-- Does a symbol lie outside the section that it names (R75, R77)? `parts` are the sections in expanded form. -/
def symOutside (parts : List (Nat × List Byte)) (e : List Byte) : Bool :=
  decide (fld e 4 2 ≠ 0) && parts.any fun p => p.1 == fld e 4 2 && decide (p.2.length < fld e 8 8 + fld e 16 4)

/-- A drain entry in 24 bytes: START, END and STUB (R83). -/
def drainEntry (bs : List Byte) : Word × Word × Word :=
  (BitVec.ofNat 64 (fld bs 0 8), BitVec.ofNat 64 (fld bs 8 8), BitVec.ofNat 64 (fld bs 16 8))

/-- Do drain entries lie within a text of n bytes (R83)? -/
def drainWithin (n : Nat) (es : List (Word × Word × Word)) : Bool :=
  es.all fun e => decide (e.1.toNat ≤ e.2.1.toNat) && decide (e.2.1.toNat ≤ n) && decide (e.2.2.toNat < n)

/-- Do two drain entries overlap, END being exclusive (R83)? -/
def drainMeets (e f : Word × Word × Word) : Bool :=
  decide (e.1.toNat < f.2.1.toNat) && decide (f.1.toNat < e.2.1.toNat)

/-- Do some drain entries overlap, in whatever order? -/
def drainOverlaps : List (Word × Word × Word) → Bool
  | [] => false
  | e :: r => r.any (drainMeets e) || drainOverlaps r

/-- The safe points that a safe-point table gives (R82), the first 8192 in address order (R366). -/
def safePoints (es : List (List Byte)) : Tab (BitVec 32) × Tab SafeMap :=
  let m := es.foldl (fun t e => (t.1.put (fld e 4 4) (BitVec.ofNat 32 (fld e 0 4)),
    t.2.put (fld e 4 4) ⟨BitVec.ofNat 32 (fld e 8 4), BitVec.ofNat 32 (fld e 12 4), BitVec.ofNat 48 (fld e 16 6),
      BitVec.ofNat 32 (fld e 24 4)⟩)) (([], []) : Tab (BitVec 32) × Tab SafeMap)
  (m.1.take 8192, m.2.take 8192)

/-- The bytes of the first section of a type, none being an empty one. -/
def tableOf (xs : List Sect) (ty : Nat) : List Byte := ((sectOf xs ty).map (·.bytes)).getD []

/-- The first code of a list whose cause holds. -/
def firstCode (cs : List (Nat × Bool)) : Option Nat := (cs.find? (·.2)).map (·.1)

/-- What the checks of an object find once its sections are in plaintext: the lowest code of R77 that applies. `ps` are the
sealed sections, `es` their expanded forms, `man` the manifest, `n` the number of sections and `reloc` whether one is a
relocation section. Log 112 settles text that half A cannot take. -/
def sealedCode (ps : List Sect) (es : List (Option (List Byte))) (man : List Byte) (n : Nat) (reloc : Bool) : Option Nat :=
  let strs := tableOf ps 12
  let syms := entriesOf 24 (tableOf ps 11)
  let syms0 := syms.getD []
  let drains := entriesOf 24 (tableOf ps 8)
  let text := ((ps.zip es).find? fun p => p.1.ty == 1).bind (·.2)
  let parts := (ps.zip es).filterMap fun p => p.2.map fun b => (p.1.ix, b)
  let ds := (drains.getD []).map drainEntry
  let whole := (List.range es.length).all fun i =>
    let e := (es.getD i none).getD []
    decide (e.length = Config.manifestSize man i) && decide (shake32 e = Config.manifestDigest man i)
  firstCode [
    (0x02, ps.any (fun x => decide (x.bytes.length % entrySize x.ty ≠ 0)) ||
      syms0.any fun e => decide (n ≤ fld e 4 2) || symOutside parts e),
    (0x03, undefinedSym strs syms0),
    (0x04, duplicateSym strs (contentHash strs syms0 (relocsOf ps) parts) syms0),
    (0x05, es.any (·.isNone)),
    (0x07, !whole || (match text with
      | some t => decide (65536 < t.length) || decide (t.length % 4 ≠ 0)
      | none => true)),
    (0x08, reloc),
    (0x09, !drainWithin (text.getD []).length ds || drainOverlaps ds)]

/-- Why half A is not loaded: a code of R77, and whether half A has been written (R331), a fill that fails with an IFSTAT
value (R280), or a write of the function table that the memory side holds, for which the placement waits (R323). -/
inductive LoadErr where
  | refused (code : Nat) (wrote : Bool)
  | fill (stat : Word)
  | waits
  deriving DecidableEq, Repr, Inhabited

/-- Steps 1 to 4 of R331 on an object that has been read, and the checks of R84 and of R77, whose lowest code a refusal
gives: a stream that R80 refuses gives 0x05, before the 0x07 of R331. A sealed object without a text section, or with one
that is longer than 64 KiB or no whole number of words, is refused with 0x07, and of several text sections the first is
placed: the manual is silent on these, and this is the model's choice (log 112). -/
def State.unseal (s : State) (flags : Nat) (kt : Option (BitVec 256)) (xs : List Sect) : Except LoadErr Loaded :=
  match kt, sectOf xs 15, sectOf xs 16 with
  | some k, some man, some lock =>
    let ct := (sealedOf xs).flatMap (·.bytes)
    let nonce := sub lock.bytes 16 12
    if flags % 4 ≠ 3 || lock.bytes.length ≠ 44 || sub lock.bytes 0 16 ≠ keyIdent k ||
        xs.any (fun x => x.ty == 3 || x.ty == 4) then .error (.refused 0x07 false)
    else if gcmTag (sealKey k) nonce man.bytes ct ≠ sub lock.bytes 28 16 then .error (.refused 0x07 true)
    else
      let ps := spread (sealedOf xs) (gcmStream (sealKey k) nonce ct)
      let es := ps.map (s.expanded ps)
      match sealedCode ps es man.bytes xs.length (xs.any fun x => x.ty == 13) with
      | some c => .error (.refused c true)
      | none =>
        let t := (((ps.zip es).find? fun p => p.1.ty == 1).bind (·.2)).getD []
        let m := safePoints ((entriesOf 32 (tableOf ps 7)).getD [])
        .ok ⟨⟨wordsOf t, m.1, m.2⟩, es.flatMap (·.getD []) ++ man.bytes, tableOf ps 5, true⟩
  | _, _, _ => .error (.refused 0x07 false)

/-- The object at TEXT read and unsealed (R72, R331). A SECTOFF that is no multiple of 8 is refused with 0x02: R72 asks the
alignment of sections and is silent on the table's, and this is the model's choice (log 111). -/
def State.loadSealed (s : State) (text : Nat) (hdr : List Byte) (kt : Option (BitVec 256)) : State × Except LoadErr Loaded :=
  let n := fld hdr 16 4
  if fld hdr 4 2 ≠ 1 then (s, .error (.refused 0x01 false))
  else if n = 0 || n > 1024 || fld hdr 24 8 % 8 ≠ 0 then (s, .error (.refused 0x02 false))
  else match s.objBytes (text + fld hdr 24 8) (32 * n) with
    | (s1, none) => (s1, .error (.refused 0x02 false))
    | (s1, some tab) =>
      match s1.readSects text 0 (chunks 32 n tab) with
      | (s2, none) => (s2, .error (.refused 0x02 false))
      | (s2, some xs) => (s2, s2.unseal (fld hdr 6 2) kt xs)

/-! ### Safe points of a stored stream (R82, R366) -/

/-- The STOP bundles of half A in address order, with their ordinals: at most 8192, counted from 1 (log 51). -/
def stopMap : Nat → Nat → Nat → List Nat → Tab (BitVec 32)
  | 0, _, _, _ => []
  | n + 1, a, k, ws =>
    match ws with
    | [] => []
    | w :: r =>
      let m := popMask (BitVec.ofNat 8 (w / 2 ^ 24))
      if (headerOf (BitVec.ofNat 32 w)).stop then
        if k > 8192 then [] else (a, BitVec.ofNat 32 k) :: stopMap n (a + 4 + 4 * m) (k + 1) (r.drop m)
      else stopMap n (a + 4 + 4 * m) k (r.drop m)

/-! ### Measurement (R332) -/

/-- The measurement D of a load in a world: none where it would be the 33rd. -/
def KeySlot.measure (k : KeySlot) (d : BitVec 256) : Option KeySlot :=
  if k.digests.contains d then some k
  else if k.digests.length ≥ 32 then none
  else some { k with mr := shake32 (keyBytes k.mr ++ keyBytes d), digests := k.digests ++ [d] }

/-- The state with a key slot replaced. -/
def State.setSlot (s : State) (k : KeySlot) : State :=
  { s with trust := { s.trust with slots := s.trust.slots.map fun x => if x.world = k.world then k else x } }

/-- Bytes written through a gang's windows (R331 step 5), block by block: refused where one is, and waiting where the memory
side holds one. -/
def State.putTable (s : State) (ws : List Window) (world : Byte) (tenant : Nat) (no : LoadErr) :
    Nat → Nat → List Byte → Except LoadErr State
  | 0, _, bs => if bs.isEmpty then .ok s else .error no
  | n + 1, va, bs =>
    if bs.isEmpty then .ok s
    else
      let m := min bs.length (16 - va % 16)
      match translate ws world va m permW with
      | .windowFault => .error no
      | .worldViolation => .error no
      | .ok ia w =>
        let a : Acc := ⟨w.world, w.cls, tenant, 0, (.pod, 0)⟩
        if s.txnWaits a (cellsAt ia (bs.take m)) false then .error .waits
        else match s.writeTxn a (cellsAt ia (bs.take m)) false with
        | (s1, .ok _) => s1.putTable ws world tenant no n (va + m) (bs.drop m)
        | (_, .pageFault) => .error no
        | (_, .poisoned) => .error no

/-- What a launch record names for half A (R282 step 2, R331), read and checked, with nothing written. How a LAUNCH is seen
to name a sealed object and not a stored stream the manual does not say: here the first word at TEXT is MAGIC (R72) and the
world is protected, which is the model's choice (log 110). -/
def State.textOf (s : State) (r : LaunchRec) : State × Except LoadErr Loaded :=
  let text := BitVec.ofNat 64 (fld r.bytes 0 8)
  let world := BitVec.ofNat 8 r.world
  let first := if world = 0 then (s, none) else s.objBytes text.toNat 4
  let isObj := match first.2 with
    | some h => decide (leNat h = 0x004F5147)
    | none => false
  if isObj then
    match first.1.objBytes text.toNat 64 with
    | (s1, none) => (s1, .error (.fill 3))
    | (s1, some hdr) => s1.loadSealed text.toNat hdr ((s.slotOf world).bind (·.kt))
  else match first.1.expandText text (BitVec.ofNat 64 (fld r.bytes 8 8)) with
    | (s1, .error v) => (s1, .error (.fill v))
    | (s1, .ok ws) => (s1, .ok ⟨⟨ws, stopMap 16384 0 1 ws, []⟩, wordBytes ws, [], false⟩)

/-- What a launch record names for half A, measured, and its function table written (R331 step 5, R332); `ws` are the windows
that the gang starts with. -/
def State.loadText (s : State) (r : LaunchRec) (ws : List Window) (tenant : Nat) : State × Except LoadErr Half :=
  let world := BitVec.ofNat 8 r.world
  match s.textOf r with
  | (s1, .error e) => (s1, .error e)
  | (s1, .ok l) =>
    if world = 0 then (s1, .ok l.half)
    else
      match (s1.slotOf world).bind (·.measure (shake32 l.plain)) with
      | none => (s1, .error (.refused 0x07 l.shut))
      | some k =>
        let ftb := BitVec.ofNat 64 (fld r.bytes 64 8)
        if !l.ftab.isEmpty && tagOf ftb ≠ 0 then (s1, .error (.refused 0x07 l.shut))
        else match s1.putTable ws world tenant (.refused 0x07 l.shut) (l.ftab.length / 16 + 2) (bits ftb 57 0) l.ftab with
          | .error e => (s1, .error e)
          | .ok s2 => (s2.setSlot k, .ok l.half)

end Sys2Proof.Machine
end

