-- ==== Sys2Proof/Machine/Gang.lean ====
section
/-! DEFINITION. Gangs: placement and start (R281 to R284, R307, R389), retirement (R285), failure (R288, R293, R329), fatal
stops and the dump (R352), and hardware errors (R288, R386). -/

namespace Sys2Proof.Machine
open Sys2Proof

/-! ### Members -/

/-- The contexts of a gang's members on its clusters (R25, R26). -/
def Gang.ctxs (x : Gang) : List Nat := x.block.flatMap fun cl => (List.range x.rec_.crewSize).map (ctxOfMember cl)

/-- The cores that take a member. -/
def Gang.cores (x : Gang) : List Nat := x.block.flatMap fun cl => (List.range (min x.rec_.crewSize 4)).map (cl * 4 + ·)

/-- JSEQ, and the PLACE byte of a journal entry (R289). -/
def LaunchRec.jseq (r : LaunchRec) : Word := BitVec.ofNat 64 (fld r.bytes 40 8)
def Gang.place (x : Gang) : Nat :=
  match x.block with
  | [] => 0
  | cl :: _ => cl / 32 * 128 + cl % 32

/-- A gang of a protected world (R324). -/
def Gang.protected_ (x : Gang) : Bool := decide (x.rec_.world ≠ 0)

/-- Is a gang on clusters, wholly or in part? -/
def Gang.placed (x : Gang) : Bool :=
  match x.phase with
  | .running | .draining => true
  | .waiting | .saved | .over => false

/-! ### Commands of a queue -/

/-- Priority of a LAUNCH (R279). -/
def LaunchRec.prio (r : LaunchRec) : Nat := fld r.bytes 32 1

/-- Does a LAUNCH overlap earlier ones (OVLP, R276)? -/
def State.overlaps (s : State) (c : QCmd) : Bool :=
  decide (c.op = 1) && (match s.gang? c.gid with
    | some x => decide (x.rec_.flags / 2 % 2 = 1)
    | none => false)

/-- The first command of a queue that has not started, where R276 lets it start. -/
def State.headCmd (s : State) (q : Nat) : Option QCmd :=
  let cs := (s.queue q).cmds
  match cs.find? fun c => !c.started with
  | none => none
  | some c =>
    let earlier := cs.takeWhile (·.started)
    if earlier.isEmpty || (s.overlaps c && earlier.all fun e => e.op == 1) then some c else none

/-- A gang that waits behind another command, after a relaunch before it: it no longer stands at the head (R284). -/
def Gang.behind (x : Gang) : Gang := if x.phase = .waiting then { x with head := none, reserving := false, target := [] } else x

/-- A LAUNCH at the head of its queue is timed from when it got there, and one behind the first command that has not started
is not (R284). -/
def State.noteHead (s : State) (q : Nat) : State :=
  match (s.queue q).cmds.find? fun c => !c.started with
  | none => s
  | some c =>
    let atHead := (s.headCmd q).isSome
    { s with gangs := s.gangs.map fun x =>
      if x.queue ≠ q then x
      else if x.id = c.gid then (if atHead then { x with head := x.head.orElse fun _ => some s.clock } else x)
      else x.behind }

/-- A command of a queue replaced. -/
def State.setCmd (s : State) (q : Nat) (p : QCmd → Bool) (f : QCmd → QCmd) : State :=
  let x := s.queue q
  s.setQueue q { x with cmds := x.cmds.map fun c => if p c then f c else c }

/-- A command leaves its queue: it has retired or failed. -/
def State.dropCmd (s : State) (q : Nat) (p : QCmd → Bool) : State :=
  let x := s.queue q
  (s.setQueue q { x with cmds := x.cmds.filter fun c => !p c }).noteHead q

/-- The command of a gang. -/
def ofGang (gid : Nat) (c : QCmd) : Bool := c.op == 1 && c.gid == gid

/-- A gang is no more (R269: the copies of control blocks that it caused to be read go with it). -/
def State.forget (s : State) (gid : Nat) : State :=
  { s with gangs := s.gangs.filter fun x => x.id != gid, cbCopies := s.cbCopies.filter fun c => c.gid != gid }

/-- A LAUNCH that fails before it starts (R280, R289). -/
def State.refuseLaunch (s : State) (x : Gang) (code : Nat) (detail : Word) : State :=
  ((s.journal x.queue x.rec_.jseq 4 code 0 detail).dropCmd x.queue (ofGang x.id)).forget x.id

/-! ### Placements (R281, R284) -/

/-- The clusters of a block of a shape with its origin, in crew order (R26). -/
def blockAt (sh : Nat × Nat) (origin : Nat) : List Nat :=
  (List.range (sh.1 * sh.2)).map fun j => origin + j / sh.2 * 8 + j % sh.2

/-- The origins of a shape: die A first, then the lowest cluster number. -/
def origins (sh : Nat × Nat) : List Nat :=
  (List.range 64).filter fun cl => cl % 32 / 8 % sh.1 == 0 && cl % 8 % sh.2 == 0

/-- Is a cluster owned by a tenant and not fenced (R273)? -/
def State.owned (s : State) (tenant cl : Nat) : Bool :=
  decide (s.tenantOf cl = some tenant) && !s.mg.cfence.getLsbD cl

/-- May a cluster receive a gang (R281)? -/
def State.available (s : State) (x : Gang) (cl : Nat) : Bool :=
  s.owned x.tenant cl && (s.cl cl).crew.isNone &&
    !(s.gangs.any fun y => y.id != x.id && y.reserving && y.target.contains cl)

/-- Are the eight image places of the slices taken (R280)? -/
def State.imagesFull (s : State) : Bool := decide ((s.slice 0).images.length ≥ 8)

/-- Does a gang's badger image let it be placed (R216)? A gang that has started before and is placed again waits for a place
for its image, since R280 is not tested anew (R288, log 121). -/
def State.imageFits (s : State) (x : Gang) : Bool :=
  x.image.isEmpty || (match (s.slice 0).imageOf x.tenant with
    | none => x.starts = 0 || !s.imagesFull
    | some i => decide (i.2.bytes = x.image))

/-- Has the journal room for what a gang placed again will write (R289)? -/
def Queue.roomy (q : Queue) : Bool :=
  let unread := (q.jhead.toNat + q.jlen - q.jread.toNat % q.jlen) % q.jlen
  decide (unread + reservedFor q.cmds ≤ q.jlen - 1)

/-- The placement of a gang, if there is one (R281, R284). -/
def State.placement (s : State) (x : Gang) : Option (List Nat) :=
  if !s.imageFits x || !(s.queue x.queue).roomy then none
  else if x.reserving then (if x.target.all (s.available x) then some x.target else none)
  else ((origins (shapeOf x.rec_.shape)).map (blockAt (shapeOf x.rec_.shape))).find? fun b => b.all (s.available x)

/-- Is the head LAUNCH of a queue the gang that is to be placed, tested and waiting? -/
def Gang.waits (x : Gang) : Bool := x.tested && (x.phase == .waiting || x.phase == .saved)

/-- The head command of a queue that may have an effect now: none while a journal entry of the queue waits to be written, since
the transition that it reports takes effect for later commands after it (R289). -/
def State.journalled (s : State) (q : Nat) : Option QCmd := if (s.queue q).jwait.isEmpty then s.headCmd q else none

/-- A queue is ready (R277): its head command may start, and a placement exists for a LAUNCH. -/
def State.readyHead (s : State) (q : Nat) : Option QCmd :=
  match s.journalled q with
  | none => none
  | some c =>
    if c.op = 1 then
      match s.gang? c.gid with
      | none => none
      | some x => if x.waits && (s.placement x).isSome then some c else none
    else some c

/-- The priority of a queue (R274). -/
def Queue.prio (q : Queue) : Nat := bits q.ctl 3 1

/-- PRIO of a queue's head LAUNCH, with its tenant. -/
def State.headPrio (s : State) (q : Nat) : Option (Nat × Nat) :=
  match s.headCmd q with
  | some c => if c.op = 1 then (s.gang? c.gid).map fun x => (x.tenant, x.rec_.prio) else none
  | none => none

/-- The queue that a die's command unit serves next (R277, R389). -/
def State.served (s : State) (die : Nat) : Option Nat :=
  let qs := ((List.range 32).map (die * 32 + ·)).filter fun q => (s.readyHead q).isSome
  let top := (qs.map fun q => (s.queue q).prio).foldl max 0
  let best := qs.filter fun q => decide ((s.queue q).prio = top)
  let left := best.filter fun q => match s.headPrio q with
    | none => true
    | some a => !(best.any fun r => match s.headPrio r with
      | some b => a.1 == b.1 && decide (a.2 < b.2)
      | none => false)
  let last := s.mg.rr.getD die 0
  let order := (List.range 32).map fun i => die * 32 + (last + 1 + i) % 32
  order.find? left.contains

/-- A die has served a queue. -/
def State.serve (s : State) (q : Nat) : State := { s with mg := { s.mg with rr := s.mg.rr.set (q / 32) q } }

/-- Has a die a placement ready? -/
def State.placing (s : State) (die : Nat) : Bool :=
  match s.served die with
  | some q => (match s.headCmd q with
    | some c => c.op == 1
    | none => false)
  | none => false

/-- May a die's command unit place a gang now: the arbiter grants the two units alternately (R278)? -/
def State.granted2 (s : State) (die : Nat) : Bool := !(s.placing (1 - die)) || decide (s.mg.arbiter ≠ die)

/-- The clusters of a block that are free now. -/
def State.freeIn (s : State) (x : Gang) (b : List Nat) : Nat := (b.filter (s.available x)).length

/-- The block that a reserving LAUNCH takes (R284): owned, with the most free clusters, the lowest origin winning. -/
def State.bestBlock (s : State) (x : Gang) : Option (List Nat) :=
  let bs := ((origins (shapeOf x.rec_.shape)).map (blockAt (shapeOf x.rec_.shape))).filter fun b => b.all (s.owned x.tenant)
  match bs with
  | [] => none
  | b :: r => some (r.foldl (fun y z => if s.freeIn x z > s.freeIn x y then z else y) b)

/-- The clock at which a waiting head LAUNCH became eligible to reserve: none while it is not (R284). -/
def State.eligible (s : State) (x : Gang) : Option Nat :=
  match x.head with
  | none => none
  | some t =>
    let atHead := match s.headCmd x.queue with
      | some c => ofGang x.id c
      | none => false
    if x.waits && !x.reserving && atHead && decide (s.clock > t + s.mg.ageb) && (s.placement x).isNone then
      some (t + s.mg.ageb)
    else none

/-- Does y reserve before x (R284, R389)? -/
def State.before2 (s : State) (y x : Gang) : Bool :=
  match s.eligible y, s.eligible x with
  | some a, some b =>
    decide (a < b) || (decide (a = b) && (decide (y.rec_.prio > x.rec_.prio) ||
      (decide (y.rec_.prio = x.rec_.prio) && decide (y.queue < x.queue))))
  | _, _ => false

/-- Does a reserving LAUNCH hold a block that its tenant may no longer use, a cluster of it having been fenced or given to
another owner? It picks anew (R296, log 93). -/
def State.lostTarget (s : State) (x : Gang) : Bool := x.waits && x.reserving && !(x.target.all (s.owned x.tenant))

/-- LAUNCH_RESERVING (R284): one LAUNCH of a tenant at a time, the one that became eligible first. -/
def execLaunchReserving (gid : Nat) (s : State) : Outcome :=
  match s.gang? gid with
  | none => .next s
  | some x =>
    let others := s.gangs.filter fun y => y.tenant == x.tenant && y.id != x.id
    if s.lostTarget x then
      match s.bestBlock x with
      | none => .next (s.setGang { x with reserving := false, target := [] })
      | some b => .next (s.setGang { x with target := b })
    else if (s.eligible x).isNone || others.any (fun y => y.reserving || s.before2 y x) then .next s
    else match s.bestBlock x with
      | none => .next s
      | some b => .next (s.setGang { x with reserving := true, target := b })

/-! ### The start of a gang -/

/-- The windows of WINTAB, those that R319 does not allow with V := 0 (R283). -/
def State.windowsOf (s : State) (tenant : Nat) (bs : List Byte) : List Window :=
  (List.range 8).map fun i =>
    let w : Window := ⟨BitVec.ofNat 64 (fld bs (16 * i) 8), BitVec.ofNat 64 (fld bs (16 * i + 8) 8)⟩
    if s.granted (some tenant) w then w else { w with w0 := w.w0 &&& 0x7FFFFFFFFFFFFFFF#64 }

/-- The state in which member m of crew j starts (R283); `seed` is what the context slot keeps: the identity of its next
LDF. -/
def startCtx (r : LaunchRec) (ws : List Window) (g j m nextLdf : Nat) : Ctx :=
  let num := fun (o n : Nat) => BitVec.ofNat 64 (fld r.bytes o n)
  let sreg := fun (i : Nat) => match i with
    | 2 => BitVec.ofNat 64 (3 * 2 ^ 60 + r.localBytes)
    | 3 => num 56 8
    | 4 => num 48 8
    | 5 => BitVec.ofNat 64 j
    | 6 => BitVec.ofNat 64 m
    | 7 => BitVec.ofNat 64 r.crewSize
    | 8 => BitVec.ofNat 64 g
    | _ => 0
  { Ctx.idle with
    status := .ready
    pc := num 16 4
    s := Vector.ofFn fun i => sreg i.val
    p := vput Ctx.idle.p 0 0xFF#8
    f := Vector.ofFn fun i => BitVec.ofNat 32 (fld r.bytes (128 + 4 * i.val) 4)
    win := Vector.ofFn fun i => ws.getD i.val ⟨0, 0⟩
    thv := num 72 4
    ftb := num 64 8
    world := BitVec.ofNat 64 r.world
    slim := BitVec.ofNat 64 (3 * 2 ^ 60)
    rqb := num 80 8 + BitVec.ofNat 64 (2048 * (16 * j + m))
    rngs := num 96 8 ^^^ BitVec.ofNat 64 ((16 * j + m) * 2 ^ 32)
    nextLdf := nextLdf }

/-- A core at a placement (R282): half A filled, with its safe points, half B zero and idle, the L1 empty. -/
def startCore (world : Byte) (half : Half) : Core := { Core.init with
  ispad := Mem.write [] 0 (wordBytes half.words), world := world, smap := half.smap, lives := half.lives }

/-- A cluster at a placement (R282 step 1). -/
def startCluster (c : Cluster) (gid j : Nat) : Cluster := { Cluster.init with
  tenure := c.tenure, dbg := c.dbg, crew := some (gid, j) }

/-- A context slot is taken by a gang: no longer the rank of a gang that has failed. -/
def State.arrives (s : State) (g : Nat) : State := { s with collLost := s.collLost.filter (· != g) }

/-- Crew j started at its cluster. -/
def State.startCrew (s : State) (x : Gang) (ws : List Window) (half : Half) (cl j : Nat) : State :=
  let s1 := s.setCl cl (startCluster (s.cl cl) x.id j)
  let s2 := (List.range (min x.rec_.crewSize 4)).foldl (fun t k =>
    (t.l1FlushAll (cl * 4 + k) (.dev, cl * 16)).setCore (cl * 4 + k) (startCore (BitVec.ofNat 8 x.rec_.world) half)) s1
  (List.range x.rec_.crewSize).foldl (fun t m =>
    let g := ctxOfMember cl m
    (t.arrives g).setCtx g (startCtx x.rec_ ws g j m (t.ctx g).nextLdf)) s2

/-- Crews started from crew j on. -/
def State.startCrews (s : State) (x : Gang) (ws : List Window) (half : Half) : Nat → List Nat → State
  | _, [] => s
  | j, cl :: r => (s.startCrew x ws half cl j).startCrews x ws half (j + 1) r

/-! ### Pools (R307) -/

/-- A block of 64 bytes that the task unit reads through a gang's windows: none where the start fails. A task record is a
control block (R269), the pool descriptor is none. -/
def State.poolBlock (s : State) (x : Gang) (ws : List Window) (task : Bool) (va : Word) : State × Option (List Byte) :=
  if tagOf va ≠ 0 || va.toNat % 64 ≠ 0 then (s, none)
  else match translate ws (BitVec.ofNat 8 x.rec_.world) (bits va 57 0) 64 permR with
    | .windowFault => (s, none)
    | .worldViolation => (s, none)
    | .ok ia w =>
      let a : Acc := ⟨w.world, w.cls, x.tenant, 0, (.pod, 0)⟩
      match (if task then s.readControl (readTask (x.block.headD 0 / 32)) x.id (ia, 64) ia 64 a else s.homeMany a ia 64) with
      | (s1, .ok bs) => (s1, some bs)
      | (s1, .pageFault) => (s1, none)
      | (s1, .poisoned) => (s1, none)

/-- The task of a record: ready at the start where its counter is 0 (R291). -/
def taskOf (clock : Nat) (bs : List Byte) : TaskSt :=
  ⟨if fld bs 40 4 = 0 then some clock else none, clock, none, [], false, fld bs 52 1⟩

/-- Records i to i + n − 1. -/
def State.poolTasks (s : State) (x : Gang) (ws : List Window) (base : Word) : Nat → Nat → State × Option (List TaskSt)
  | _, 0 => (s, some [])
  | i, n + 1 =>
    match s.poolBlock x ws true (base + BitVec.ofNat 64 (64 * i)) with
    | (s1, none) => (s1, none)
    | (s1, some bs) =>
      match s1.poolTasks x ws base (i + 1) n with
      | (s2, none) => (s2, none)
      | (s2, some r) => (s2, some (taskOf s.clock bs :: r))

/-- POOL_START (R307): the pool of a gang, where it names one; false where the start fails. -/
def State.startPool (s : State) (x : Gang) (ws : List Window) : State × Option Pool × Bool :=
  let desc := BitVec.ofNat 64 (fld x.rec_.bytes 112 8)
  if desc = 0 then (s, none, true)
  else match s.poolBlock x ws false desc with
    | (s1, none) => (s1, none, false)
    | (s1, some bs) =>
      let base := BitVec.ofNat 64 (fld bs 0 8)
      let n := fld bs 8 4
      if n > 65535 then (s1, none, false)
      else match s1.poolTasks x ws base 0 n with
        | (s2, none) => (s2, none, false)
        | (s2, some ts) =>
          (s2, some ⟨desc, base, BitVec.ofNat 64 (fld bs 16 8), ts, false, ws, BitVec.ofNat 64 x.rec_.world⟩, true)

/-! ### GANG_PLACE -/

/-- WINTAB read (R279). -/
def State.readWintab (s : State) (x : Gang) : State × Option (List Byte) := s.objBytes (fld x.rec_.bytes 88 8) 128

/-- Does the gang need its image installed (R216)? -/
def State.needsImage (s : State) (x : Gang) : Bool := !x.image.isEmpty && ((s.slice 0).imageOf x.tenant).isNone

/-- Half A of the cores that a placement would have filled, zeroed after a refusal of the measured loader (R331). -/
def State.zeroHalf (s : State) (x : Gang) (b : List Nat) : State :=
  ({ x with block := b } : Gang).cores.foldl (fun t k =>
    let c := t.core k
    t.setCore k { c with
      ispad := c.ispad.clear 0 65536, undef := c.undef.filter fun r => decide (65536 ≤ r.1)
      smap := c.smap.filter fun e => decide (65536 ≤ e.1), lives := c.lives.filter fun e => decide (65536 ≤ e.1) }) s

/-- A LAUNCH whose half A cannot be filled fails (R77, R280, R331), and one whose function table cannot be written yet waits. -/
def State.refuseLoad (s : State) (x : Gang) (b : List Nat) : LoadErr → State
  | .fill v => s.refuseLaunch x 0x12 v
  | .refused k wrote => (if wrote then s.zeroHalf x b else s).refuseLaunch x k 0
  | .waits => s

/-- A gang started on a block (R282), with its started entry. -/
def State.startOn (s : State) (x : Gang) (b : List Nat) (wt : List Byte) (half : Half) (pool : Option Pool) : State :=
  let ws := s.windowsOf x.tenant wt
  let s1 := if s.needsImage x then s.installImage x.tenant x.image else s
  let y : Gang := { x with
    phase := .running, block := b, pool := pool, reserving := false, target := [], starts := x.starts + 1
    first := x.first.orElse fun _ => some ⟨wt, half, pool⟩ }
  let s2 := (s1.setGang y).startCrews y ws half 0 b
  ((s2.setCmd x.queue (ofGang x.id) fun c => { c with started := true }).journal x.queue x.rec_.jseq 2 0 y.place 0).noteHead
    x.queue

/-- A first placement (R282): the gang starts, or the LAUNCH fails with the first code of R280 that applies and its placement
is undone. What the measured loader refuses stands where code 0x12 does, half A not being filled (log 75). -/
def State.placeFirst (s : State) (x : Gang) (b : List Nat) : State :=
  match s.textOf x.rec_ with
  | (s1, .error e) => s1.refuseLoad x b e
  | (s1, .ok _) =>
    let full := s1.needsImage x && s1.imagesFull
    match s1.readWintab x with
    | (s2, none) => s2.refuseLaunch x (if full then 0x18 else 0x1B) 0
    | (s2, some wt) =>
      let ws := s2.windowsOf x.tenant wt
      let p := s2.startPool { x with block := b } ws
      match p.1.loadText x.rec_ ws x.tenant with
      | (_, .error .waits) => s
      | (s3, .error e) => s3.refuseLoad x b e
      | (s3, .ok half) =>
        if full then p.1.refuseLaunch x 0x18 0
        else if !p.2.2 then p.1.refuseLaunch x 0x1B 0
        else s3.startOn x b wt half p.2.1

/-- A pool started again, its tasks ready from now on. -/
def Pool.again (p : Pool) (clock : Nat) : Pool := { p with tasks := p.tasks.map fun t => { t with
  ready := t.ready.map fun _ => clock, first := clock } }

/-- A relaunch (R288): it places and fills as a first placement does, but nothing of R280 is tested anew; what can no longer
be read or filled is as it was at the gang's first start (log 121). -/
def State.placeAgain (s : State) (x : Gang) (b : List Nat) (f : GangStart) : State :=
  let w := s.readWintab x
  let wt := w.2.getD f.wintab
  let ws := w.1.windowsOf x.tenant wt
  let p := w.1.startPool { x with block := b } ws
  let pool := if p.2.2 then p.2.1 else f.pool.map (·.again s.clock)
  match p.1.loadText x.rec_ ws x.tenant with
  | (s1, .ok half) => s1.startOn x b wt half pool
  | (_, .error .waits) => s
  | (s1, .error _) => s1.startOn x b wt f.half pool

/-- A gang placed on a block (R282, R288). -/
def State.placeOn (s : State) (x : Gang) (b : List Nat) : State :=
  match x.first with
  | none => s.placeFirst x b
  | some f => s.placeAgain x b f

/-- The gang that may be placed now, with its block (R277, R278). -/
def State.mayPlace (s : State) (gid : Nat) (ph : Phase) : Option (Gang × List Nat) :=
  match s.gang? gid with
  | none => none
  | some x =>
    let die := x.queue / 32
    let first := match s.headCmd x.queue with
      | some c => ofGang gid c
      | none => false
    if x.phase = ph && x.waits && first && decide (s.served die = some x.queue) && s.granted2 die then
      (s.placement x).map fun b => (x, b)
    else none

/-- The arbiter has granted a die a placement. -/
def State.grant (s : State) (x : Gang) : State :=
  let s1 := s.serve x.queue
  { s1 with mg := { s1.mg with arbiter := x.queue / 32 } }

/-- GANG_PLACE (R282). -/
def execGangPlace (gid : Nat) (s : State) : Outcome :=
  match s.mayPlace gid .waiting with
  | none => .next s
  | some p => .next ((s.grant p.1).placeOn p.1 p.2)

/-! ### The end of a gang -/

/-- Is another gang of the tenant placed that names its image (R216)? -/
def State.imageUsed (s : State) (x : Gang) : Bool :=
  s.gangs.any fun y => y.id != x.id && decide (y.tenant = x.tenant) && y.placed && !y.image.isEmpty

/-- The last gang that names an image has gone (R216). -/
def State.leaveImage (s : State) (x : Gang) : State :=
  if x.image.isEmpty || s.imageUsed x then s else s.removeImage x.tenant

/-- A cluster freed; a protected gang's is scrubbed (R329). -/
def freeCluster (scrub : Bool) (c : Cluster) : Cluster :=
  if scrub then { Cluster.init with tenure := c.tenure, dbg := c.dbg }
  else { Cluster.init with tenure := c.tenure, dbg := c.dbg, spad := c.spad, acc := c.acc }

/-- A core freed; a protected gang's is scrubbed (R329). -/
def freeCore (scrub : Bool) (k : Core) : Core :=
  if scrub then Core.init
  else { Core.init with
    ispad := k.ispad, undef := k.undef, smap := k.smap, lives := k.lives, aRun := k.aRun, bRun := k.bRun }

/-- The cluster of a crew freed, with its cores and contexts (R285, R329). -/
def State.freeCrew (s : State) (scrub : Bool) (cl : Nat) : State :=
  let s1 := s.setCl cl (freeCluster scrub (s.cl cl))
  let s2 := (List.range 4).foldl (fun t k => t.setCore (cl * 4 + k) (freeCore scrub (t.core (cl * 4 + k)))) s1
  (List.range 16).foldl (fun t i =>
    t.setCtx (cl * 16 + i) { Ctx.idle with nextLdf := (t.ctx (cl * 16 + i)).nextLdf }) s2

/-- The clusters that a gang still holds. -/
def State.holding (s : State) (x : Gang) : List Nat :=
  x.block.filter fun cl => match (s.cl cl).crew with
    | some c => c.1 == x.id
    | none => false

/-- The contexts of its members there. -/
def State.liveCtxs (s : State) (x : Gang) : List Nat :=
  (s.holding x).flatMap fun cl => (List.range x.rec_.crewSize).map (ctxOfMember cl)

/-- Has a context no engine command outstanding (R285)? -/
def State.quiet (s : State) (g : Nat) : Bool :=
  let c := s.ctx g
  ((List.range 10).all fun e => vget c.tl e 0 == c.issued e) &&
    !((s.core (coreOf g)).cbuf.any fun e => e.g == g)

/-- The context of a waiting transaction. -/
def LateTxn.g : LateTxn → Nat
  | .write _ _ _ _ g _ _ _ _ _ => g
  | .atom _ _ _ _ g _ _ _ => g

/-- Have the memory operations of some contexts, and what they have sent, all been performed, and would the write-back of
some cores' L1 and the flush of some clusters' combiners be (R206, R323)? -/
def State.settled (s : State) (gs cores cls : List Nat) : Bool :=
  gs.all (fun g => (heldIn (s.ctx g).pend).isEmpty && !(s.ctx g).ending) && !(s.late.any fun t => gs.contains t.g) &&
    !(cores.any s.flushWaits) && !(cls.any s.combWaits)

/-- May a gang retire (R285)? -/
def State.retires (s : State) (x : Gang) : Bool :=
  x.phase == .running && x.ctxs.all (fun g => (s.ctx g).status == .exited && s.quiet g) &&
    s.settled x.ctxs x.cores x.block

/-- GANG_RETIRE (R285): the L1s go home at scope .dev, the combiners are flushed (R234), and the clusters are freed. -/
def execGangRetire (gid : Nat) (s : State) : Outcome :=
  match s.gang? gid with
  | none => .next s
  | some x =>
    if !s.retires x then .next s
    else
      let s1 := x.block.foldl (fun t cl => t.flushCombs cl) s
      let s2 := x.cores.foldl (fun t k => t.l1FlushAll k (.dev, k * 4)) s1
      let s3 := x.block.foldl (fun t cl => t.freeCrew x.protected_ cl) s2
      let s4 := s3.leaveImage x
      .next (((s4.journal x.queue x.rec_.jseq 3 0 x.place 0).dropCmd x.queue (ofGang gid)).forget gid)

/-! ### Failure (R288) -/

/-- A place moved by some bytes. -/
def Place.move (p : Place) (i : Nat) : Place :=
  match p with
  | .bank cl off => .bank cl (off + i)
  | .home ia w l => .home (ia + i) w l
  | .remote m ia w => .remote m (ia + i) w
  | .bad c => .bad c

/-- A copy cancelled while it runs: each of its output bytes keeps its value or takes the copy's (R288). -/
def State.cancelCopy (s : State) (c : Cmd) : State :=
  let r := s.copyReads c c.copyN 0
  let key := match c.instr with
    | .cpyd => some ((s.contentKey (c.world.truncate 8)).getD 0)
    | _ => none
  let ws := s.copyWrites c key r.2
  let parts : List ElemWrite := (ws.mapIdx fun t w => (w.2.mapIdx fun i b =>
    if (s.free 4401 (t * 512 + i)).getLsbD 0 then [(w.1.move i, [b])] else []).flatten).flatten
  r.1.writeElems c parts (s.copySpans c true)

/-- The lines of an L1 go: each may have been evicted, or its dirty bytes are lost; buffered bytes are discarded. -/
def State.loseLines (s : State) (core : Nat) : State :=
  let s1 := (((s.core core).l1).map fun e => e.1).foldl (fun t key =>
    if (s.free 4402 key).getLsbD 0 then t.l1WriteBack core key (.ctx, core * 4) else t) s
  s1.setCore core { s1.core core with l1 := [] }

/-- The SEQs of the collectives in progress that some contexts take part in (R355). -/
def State.collSeqs (s : State) (gs : List Nat) : List Word :=
  ((s.colls.filter fun w => gs.contains w.cmd.g).map (·.seq)).eraseDups

/-- The COLLs that some contexts have issued and that have not started: in the dependency table or the memory queue. -/
def State.collComing (s : State) (gs : List Nat) : List Cmd :=
  gs.flatMap fun g => (((s.core (coreOf g)).tdt.map (·.cmd)) ++ (s.ctx g).pend.filterMap (·.submitted)).filter fun c =>
    c.g == g && c.eng == 4

/-- The SEQs of the collectives that some contexts take part in or are named by, whether they have started or not (R195). -/
def State.collTouched (s : State) (gs : List Nat) : List Word :=
  (((s.colls.filter fun w => gs.contains w.cmd.g || (s.collNamed [w.cmd]).any gs.contains).map (·.seq)) ++
    (s.collComing gs).map (·.reg 6)).eraseDups

/-- The started copies of some contexts. -/
def State.runningCopies (s : State) (gs : List Nat) : List Cmd :=
  gs.flatMap fun g => ((s.core (coreOf g)).tdt.filter fun e => e.cmd.g == g && e.started && e.cmd.eng == 3).map (·.cmd)

/-- The engine commands of a gang are cancelled, and what it has on its way (R288, R195). -/
def State.cancelAll (s : State) (x : Gang) : State :=
  let gs := s.liveCtxs x
  let s1 := gs.foldl (fun t g => t.performLdfs g fun _ => true) s
  let coming := s1.collComing gs
  let s2 := (s1.collTouched gs).foldl (fun t q => t.failSeq q 2 gs (coming.filter fun c => c.reg 6 == q)) s1
  let s3 := (s2.runningCopies gs).foldl (fun t c => t.cancelCopy c) s2
  let s4 := (s3.holding x).foldl (fun t cl => t.flushCombs cl) s3
  { s4 with
    collLost := (gs ++ s4.collLost).eraseDups
    clusters := s4.clusters.map fun e => (e.1, { e.2 with board := e.2.board.filter fun b => !gs.contains b.g })
    slices := s4.slices.map fun e => (e.1, { e.2 with coming := e.2.coming.filter fun m => !gs.contains m.g }) }

/-- A gang's clusters left after a failure (R288, R329). -/
def State.clearOut (s : State) (x : Gang) : State :=
  let hold := s.holding x
  let s1 := hold.foldl (fun t cl => (List.range 4).foldl (fun u k => u.loseLines (cl * 4 + k)) t) (s.cancelAll x)
  (hold.foldl (fun t cl => t.freeCrew x.protected_ cl) s1).leaveImage x

/-- PSTATE := 2 where the request in progress is this gang's (R379). -/
def State.endRequest (s : State) (x : Gang) : State :=
  if x.phase = .draining then ({ s with mg := { s.mg with pstate := 2 } } : State).pfMsg 1 else s

/-- A gang that idempotent restart relaunches waits for a placement again (R288). -/
def Gang.again (x : Gang) : Gang := { x with
  phase := .waiting, block := [], reserving := false, target := [], pool := none, head := none, saved := [], fell := [] }

/-- The journal entry of a gang's failure: not written to a host ring of a function being reset (R377). -/
def State.failEntry (s : State) (x : Gang) (code : Nat) (detail : Word) : State :=
  if code = 0x1A && bit (s.queue x.queue).jbase 63 then s else s.journal x.queue x.rec_.jseq 4 code x.place detail

/-- A gang fails (R288). -/
def State.failGang (s : State) (gid code : Nat) (detail : Word) : State :=
  match s.gang? gid with
  | none => s
  | some x =>
    let s1 := (if x.placed then s.clearOut x else s).endRequest x
    let s2 := s1.failEntry x code detail
    if code = 0x14 && x.rec_.flags % 2 = 0 then
      ({ s2.setCmd x.queue (ofGang gid) fun c => { c with started := false } with
        cbCopies := s2.cbCopies.filter fun c => c.gid != gid } : State).setGang x.again |>.noteHead x.queue
    else (s2.dropCmd x.queue (ofGang gid)).forget gid

/-! ### Fatal stops and the dump (R352) -/

/-- The bytes of a dump slot. -/
def State.dumpBytes (s : State) (x : Gang) (g : Nat) : List Byte :=
  let c := s.ctx g
  let hide := x.protected_
  let recs := c.written.take 64
  let rec_ := fun (w : Written) => ({ w with opa := if hide then 0 else w.opa, opb := if hide then 0 else w.opb } : Written).bytes
  leBytes 8 s.refClock ++ leBytes 8 x.rec_.jseq.toNat ++ [BitVec.ofNat 8 x.queue, BitVec.ofNat 8 c.cause] ++ leBytes 2 g ++
    [BitVec.ofNat 8 c.rqn.toNat] ++ leBytes 3 0 ++ leBytes 8 c.epc.toNat ++ leBytes 8 (c.creg .estat).toNat ++ leBytes 8 0 ++
    (c.s.toList.flatMap fun v => leBytes 8 (if hide then 0 else v.toNat)) ++ leBytes 1744 0 ++ recs.flatMap rec_ ++
    leBytes (2048 - 32 * recs.length) 0

/-- DUMP_WRITE (R352): the notice, then the slot; a slot whose page faults is not written. -/
def State.dump (s : State) (x : Gang) (g : Nat) : State :=
  if s.mg.dumpBase = 0 then s.notice x.tenant 0x22 0xFFFFFFFFFFFFFFFF#64
  else
    let h := s.mg.dumpHead
    let s1 := s.notice x.tenant 0x22 (BitVec.ofNat 64 h)
    let r := s1.sectorWrites (unitFor x.tenant) .nobody 17 (s.mg.dumpBase.toNat + 4096 * h) (s1.dumpBytes x g)
    { r.1 with mg := { r.1.mg with dumpHead := (h + 1) % 16 } }

/-- The end of a context whose gang goes on (R293). -/
def State.endCtx (s : State) (g : Nat) : State :=
  let s1 := (s.performLdfs g fun _ => true).vacate g
  let c := s1.ctx g
  (s1.setCtx g { c with
    status := .exited, hm := false, drain := false, pend := [], xfer := none, tent := [], loop := none, ldfs := [], phsw := none
    monitor := none, waitPh := none, blocked := none, yielded := false, backoff := none, report := [], async := none
    written := [], redo := none, ending := false, aside := none }).endSched g

/-- FATAL_STOP (R352): the dump, then the context's task fails (R293), or its gang does (R288). -/
def execFatalStop (g : Nat) (s : State) : Outcome :=
  let c := s.ctx g
  match c.status with
  | .fatal =>
    match s.gangOf g with
    | none => .next s
    | some (x, _) =>
      let s1 := s.dump x g
      if c.holds.isSome then .next (s1.endCtx g) else .next (s1.failGang x.id 0x14 (BitVec.ofNat 64 g))
  | .idle | .ready | .waiting | .exited | .drained => .next s

/-! ### Hardware errors (R288, R293, R386) -/

/-- The state with a cluster fenced by firmware. -/
def State.fenceCluster (s : State) (cl : Nat) : State :=
  { s with mg := { s.mg with cfence := s.mg.cfence ||| (1#64 <<< cl), cfenceFw := s.mg.cfenceFw ||| (1#64 <<< cl) } }

/-- UNCORRECTABLE_HARDWARE_ERROR (R288, R293, R386): the gang fails where a context of the core holds no task; else the
tasks fail and the gang goes on without the core. -/
def execUncorrectableHardwareError (core : Nat) (s : State) : Outcome :=
  let s1 := s.fenceCluster (core / 4)
  let gs := ((List.range 4).map (core * 4 + ·)).filter fun g => !(s.ctx g).ended
  match s.gangOf (core * 4) with
  | none => .next s1
  | some (x, _) =>
    match gs.filter fun g => (s.ctx g).holds.isNone with
    | g :: _ => .next (s1.failGang x.id 0x14 (BitVec.ofNat 64 g))
    | [] =>
      let s2 := gs.foldl (fun t g => t.endCtx g) s1
      .next ((s2.loseLines core).setCore core { (s2.loseLines core).core core with fenced := true })

end Sys2Proof.Machine
end

