-- ==== Sys2Proof/Machine/Queue.lean ====
section
/-! DEFINITION. Command queues (R274 to R280): the doorbell, the acceptance of an entry, and the five commands. -/

namespace Sys2Proof.Machine
open Sys2Proof

/-! ### Rings -/

/-- Entries of a ring. -/
def Queue.qlen (q : Queue) : Nat := 2 ^ bits q.size 4 0

/-- Index of the next entry, and whether the ring holds one (R274). -/
def Queue.headIdx (q : Queue) : Nat := q.head.toNat % q.qlen
def Queue.waiting (q : Queue) : Bool := decide (q.headIdx ≠ q.tail.toNat % q.qlen)

/-- QTAIL_DOORBELL (R274): a write of QTAIL, once READY is 1 (R376). -/
def execQtailDoorbell (q : Nat) (v : Word) (s : State) : Outcome :=
  if s.mg.ready && decide (q < 64) then .next (s.setQueue q { s.queue q with tail := v.truncate 32 }) else .next s

/-- Does an access of n bytes of host memory complete with an error? -/
def State.hostFails (s : State) (a n : Nat) : Bool :=
  s.hostBad.any fun p => decide (p * 4096 < a + n) && decide (a < p * 4096 + 4096)

/-- Bytes read for queue q, from host memory where bit 63 of the base says so, as a request of the function that owns the
queue (R375), else at home in world 0 (R274): none where the read fails. -/
def State.ringRead (s : State) (q : Nat) (base : Word) (off n : Nat) : State × Option (List Byte) :=
  let a := bits base 62 6 * 64 + off
  if bit base 63 then
    (s.send (.hostRead (s.ownerFn q) a n), if s.hostFails a n then none else some (s.hostMem.read a n))
  else match s.homeMany (unitFor (s.queue q).tenant) a n with
    | (s1, .ok bs) => (s1, some bs)
    | (s1, .pageFault) => (s1, none)
    | (s1, .poisoned) => (s1, none)

/-! ### Acceptance (R275, R276, R289) -/

/-- May the command unit accept an entry of a queue? Not while a journal entry of it waits to be written (R289). -/
def Queue.accepts (q : Queue) : Bool := q.on && q.waiting && q.jwait.isEmpty && decide (q.jfree ≥ 3)

/-- The queue whose entry a die's command unit reads next: the highest priority, then round-robin (R277). -/
def State.nextRead (s : State) (die : Nat) : Option Nat :=
  let qs := ((List.range 32).map (die * 32 + ·)).filter fun q => (s.queue q).accepts
  let top := (qs.map fun q => (s.queue q).prio).foldl max 0
  let last := s.mg.rr.getD die 0
  let order := (List.range 32).map fun i => die * 32 + (last + 1 + i) % 32
  order.find? fun q => qs.contains q && decide ((s.queue q).prio = top)

/-- Are bytes a to b of an entry 0? -/
def zeros (bs : List Byte) (a b : Nat) : Bool := (sub bs a (b + 1 - a)).all (· == 0#8)

/-- Is an entry other than a LAUNCH one that R275 accepts? -/
def entryOk (bs : List Byte) : Bool :=
  let al := fun (o k : Nat) => decide (fld bs o 8 % k = 0)
  zeros bs 1 7 && match fld bs 0 1 with
  | 2 => al 16 8 && zeros bs 32 63
  | 3 => al 16 8 && zeros bs 32 63
  | 4 => al 16 64 && al 24 64 && decide (1 ≤ fld bs 32 8) && decide (fld bs 32 8 ≤ 2 ^ 40) && zeros bs 40 63
  | 5 => zeros bs 24 63
  | _ => false

/-- A command that fails (R275). -/
def State.failCmd (s : State) (q : Nat) (c : QCmd) : State := (s.journal q c.seq 4 0x15 0 0).dropCmd q (· == c)

/-- The gang that a LAUNCH entry asks for, its record read as a control block; a record that cannot be read has no JSEQ. -/
def State.newGang (s : State) (q : Nat) (bs : List Byte) : State × Gang :=
  let gid := s.mg.nextGid
  let tenant := (s.queue q).tenant
  let s0 := { s with mg := { s.mg with nextGid := gid + 1 } }
  let r := s0.readControl (readCommand (q / 32)) gid (fld bs 16 8, 192) (fld bs 16 8) 192 (unitFor tenant)
  let rec_ : LaunchRec := match r.2 with
    | .ok x => ⟨x⟩
    | .pageFault => ⟨leBytes 40 0 ++ leBytes 8 (s.free 4501 q).toNat⟩
    | .poisoned => ⟨leBytes 40 0 ++ leBytes 8 (s.free 4501 q).toNat⟩
  (r.1, {
    id := gid, queue := q, tenant := tenant, rec_ := rec_, phase := .waiting, head := none, tested := false
    reserving := false, block := [], target := [], starts := 0, first := none, pool := none, image := [], save := 0, dtab := [], saved := []
    fell := [] })

/-- An entry accepted: its command joins the queue, and the accepted entry is written. -/
def State.accept2 (s : State) (q : Nat) (bs : List Byte) : State :=
  if fld bs 0 1 = 1 then
    let r := s.newGang q bs
    let x := r.1.queue q
    let c : QCmd := ⟨1, r.2.rec_.jseq, bs, r.2.id, false⟩
    (({ r.1.setQueue q { x with cmds := x.cmds ++ [c] } with gangs := r.1.gangs ++ [r.2] } : State).journal q c.seq 1 0 0
      0).noteHead q
  else
    let x := s.queue q
    let c : QCmd := ⟨fld bs 0 1, BitVec.ofNat 64 (fld bs 8 8), bs, s.mg.nextGid, false⟩
    let s0 := { s with mg := { s.mg with nextGid := s.mg.nextGid + 1 } }
    let s1 := (s0.setQueue q { x with cmds := x.cmds ++ [c] }).journal q c.seq 1 0 0 0
    if entryOk bs then s1 else s1.failCmd q c

/-- QUEUE_ENTRY_READ (R275): a read that fails disables the queue. -/
def execQueueEntryRead (die : Nat) (s : State) : Outcome :=
  match s.nextRead die with
  | none => .next s
  | some q =>
    let x := s.queue q
    match s.ringRead q x.base (64 * x.headIdx) 64 with
    | (s1, none) => .next (s1.setQueue q (s1.queue q).off)
    | (s1, some bs) =>
      let y := s1.queue q
      .next ((s1.setQueue q { y with head := BitVec.ofNat 32 ((y.headIdx + 1) % y.qlen) }).accept2 q bs)

/-! ### LAUNCH (R280) -/

/-- Are a record's fields those that R280 accepts (code 0x10)? -/
def LaunchRec.fieldsOk (r : LaunchRec) : Bool :=
  let n := fun (o k : Nat) => fld r.bytes o k
  decide (r.flags < 4) && zeros r.bytes 33 39 && zeros r.bytes 76 79 && zeros r.bytes 120 127 && zeros r.bytes 160 191 &&
    decide (1 ≤ r.crewSize) && decide (r.crewSize ≤ 16) && decide (r.shape ≤ 4) && decide (n 16 4 % 4 = 0) &&
    decide (n 16 4 < 0x10000) && decide (r.prio ≤ 7) && decide (n 80 8 ≠ 0) && decide (n 80 8 % 2048 = 0) &&
    decide (n 72 4 % 4 = 0) && decide (n 72 4 < 0x20000) &&
    (List.range 8).all fun i =>
      let d := BitVec.ofNat 32 (n (128 + 4 * i) 4)
      d == 0#32 || dOk d

/-- Does the scratchpad hold S and the local regions (code 0x11)? -/
def LaunchRec.roomOk (r : LaunchRec) : Bool :=
  decide (r.spad + r.crewSize * r.localBytes ≤ 4194304) && decide (r.localBytes % 32 = 0)

/-- The keys that derive from a tenant key (R330): the content key and the transit key. -/
def contentOf (kt : BitVec 256) : BitVec 512 := shake64 (0x02#8 :: keyBytes kt)
def transitOf (kt : BitVec 256) : BitVec 512 := shake64 (0x03#8 :: keyBytes kt)

/-- A key slot with its tenant key and what derives from it. -/
def KeySlot.withKey (x : KeySlot) (kt : Option (BitVec 256)) : KeySlot :=
  { x with kt := kt, content := kt.map contentOf, transit := kt.map transitOf }

/-- A key slot becomes active for a world (R324). -/
def State.activate (s : State) (world : Byte) (tenant : Nat) (kt : Option (BitVec 256)) : State :=
  { s with rnd := s.rnd + 1, trust := { s.trust with
      slots := s.trust.slots ++ [KeySlot.withKey ⟨world, tenant, Config.random s.rnd, none, none, none, 0, []⟩ kt] } }

/-- Are all 64 key slots active, and the world has none? -/
def State.slotsFull (s : State) (world : Byte) : Bool :=
  decide (world ≠ 0) && (s.slotOf world).isNone && decide (s.trust.slots.length ≥ 64)

/-- A badger image section read (R212): its length is told by its first 64 bytes. -/
def State.readImage (s : State) (x : Gang) : State × Option (List Byte) :=
  let p := fld x.rec_.bytes 104 8
  if p = 0 then (s, some [])
  else match s.objBytes p 64 with
    | (s1, none) => (s1, none)
    | (s1, some h) => s1.objBytes p (Config.badgerSize h % 65536 + 1)

/-- The LAUNCH at the head of a queue that has not been tested, with its gang (R276, R280). -/
def State.untested (s : State) (q : Nat) : Option (QCmd × Gang) :=
  match s.journalled q with
  | none => none
  | some c =>
    if c.op ≠ 1 then none
    else match s.gang? c.gid with
      | none => none
      | some x => if x.tested then none else some (c, x)

/-- The tests of R280 that need memory, in the order of its table, half A being filled for a trial: a sealed object that the
measured loader refuses stands where a slot for its key has been found (log 75). The image is returned where all is well. -/
def State.testLaunch (s : State) (x : Gang) : State × Except LoadErr (List Byte) :=
  let world := BitVec.ofNat 8 x.rec_.world
  let fail := fun (t : State) (c : Nat) => (t, Except.error (.refused c false))
  match s.textOf x.rec_ with
  | (s1, .error (.fill v)) => (s1, .error (.fill v))
  | (s1, r) =>
    if s1.slotsFull world then fail s1 0x13
    else match r with
    | .error e => (s1, .error e)
    | .ok _ =>
      if decide (fld x.rec_.bytes 104 8 ≠ 0) && ((s1.slice 0).imageOf x.tenant).isNone && s1.imagesFull then fail s1 0x18
      else match s1.readWintab x with
        | (s2, none) => fail s2 0x1B
        | (s2, some _) => match s2.readImage x with
          | (s3, none) => fail s3 0x1B
          | (s3, some img) => (s3, .ok img)

/-- LAUNCH (R280): the first code that applies, or the gang waits for a placement. -/
def execLaunch (q : Nat) (s : State) : Outcome :=
  match s.untested q with
  | none => .next s
  | some (c, x) =>
    if x.rec_.bytes.length ≠ 192 then .next (s.refuseLaunch x 0x1B 0)
    else if fld c.bytes 16 8 % 64 ≠ 0 || !x.rec_.fieldsOk then .next (s.refuseLaunch x 0x10 0)
    else if !x.rec_.roomOk then .next (s.refuseLaunch x 0x11 0)
    else match s.testLaunch x with
      | (s1, .error e) => .next (s1.refuseLoad x [] e)
      | (s1, .ok img) =>
        let world := BitVec.ofNat 8 x.rec_.world
        let s2 := if world ≠ 0 && (s1.slotOf world).isNone then s1.activate world x.tenant none else s1
        .next ((s2.setGang { x with tested := true, image := img }).noteHead q)

/-! ### The other commands (R275) -/

/-- The head command of a queue with this OP, where its die's command unit serves the queue now. -/
def State.starting (s : State) (q op : Nat) : Option QCmd :=
  if s.served (q / 32) = some q then
    match s.headCmd q with
    | some c => if c.op = op then some c else none
    | none => none
  else none

/-- A command starts: its started entry is written. -/
def State.startOf (s : State) (q : Nat) (c : QCmd) : State :=
  ((s.serve q).setCmd q (· == c) fun c => { c with started := true }).journal q c.seq 2 0 0 0

/-- A command retires. -/
def State.retireCmd (s : State) (q : Nat) (c : QCmd) (detail : Word) : State :=
  (s.journal q c.seq 3 0 0 detail).dropCmd q (· == c)

/-- The started command of a queue with this OP. -/
def State.inFlight (s : State) (q op : Nat) : Option QCmd := (s.queue q).cmds.find? fun c => c.op == op && c.started

/-- WAIT (R275). -/
def execWait (q : Nat) (s : State) : Outcome :=
  match s.starting q 2 with
  | none => .next s
  | some c => .next (s.startOf q c)

/-- WAIT_RETIRE (R275): the word, read at home, is at least VALUE; else the WAIT goes on. -/
def execWaitRetire (q : Nat) (s : State) : Outcome :=
  match s.inFlight q 2 with
  | none => .next s
  | some c =>
    match s.homeMany (unitFor (s.queue q).tenant) (fld c.bytes 16 8) 8 with
    | (s1, .ok bs) => if leNat bs ≥ fld c.bytes 24 8 then .next (s1.retireCmd q c 0) else .next s1
    | (s1, .pageFault) => .next (s1.failCmd q c)
    | (s1, .poisoned) => .next (s1.failCmd q c)

/-- The write of a SIGNAL that has started: one write transaction, for which the command waits while the memory side holds it
(R208, R275, R323). -/
def State.signal (s : State) (q : Nat) (c : QCmd) : State :=
  let a := unitFor (s.queue q).tenant
  let cells := cellsAt (fld c.bytes 16 8) (leBytes 8 (fld c.bytes 24 8))
  if s.txnWaits a cells false then s
  else match s.writeTxn a cells false with
  | (s1, .ok _) => s1.retireCmd q c 0
  | (s1, .pageFault) => s1.failCmd q c
  | (s1, .poisoned) => s1.failCmd q c

/-- SIGNAL (R275): it starts, and writes its word at once or later. -/
def execSignal (q : Nat) (s : State) : Outcome :=
  match s.inFlight q 3 with
  | some c => .next (s.signal q c)
  | none => match s.starting q 3 with
    | none => .next s
    | some c => .next ((s.startOf q c).signal q { c with started := true })

/-- COPY (R275). -/
def execCopy (q : Nat) (s : State) : Outcome :=
  match s.starting q 4 with
  | none => .next s
  | some c => .next (s.startOf q c)

/-- n bytes of a COPY from offset off on: those of a destination that lies in the source have no stated value. -/
def copyPiece (s : State) (src dst len off : Nat) (bs : List Byte) : List Byte :=
  bs.mapIdx fun i b =>
    let a := dst + off + i
    if decide (src ≤ a) && decide (a < src + len) then (s.free 4502 (off + i)).truncate 8 else b

/-- The bytes of a COPY of queue q from offset off on, those destination sectors that `p` selects; false where an access fails. -/
def State.copyFrom (s : State) (q : Nat) (src dst : Word) (len : Nat) (p : Nat → Bool) : Nat → Nat → State × Bool
  | 0, _ => (s, true)
  | k + 1, off =>
    if off ≥ len then (s, true)
    else
      let d := bits dst 62 0 + off
      let n := min (256 - d % 256) (len - off)
      if !p off then s.copyFrom q src dst len p k (off + n)
      else match s.ringRead q src off n with
      | (s1, none) => (s1, false)
      | (s1, some bs0) =>
        let bs := if bit src 63 = bit dst 63 then copyPiece s (bits src 62 0) (bits dst 62 0) len off bs0 else bs0
        if bit dst 63 && s1.hostFails d n then (s1, false)
        else match s1.ringWrite q dst off bs with
          | (s2, true) => s2.copyFrom q src dst len p k (off + n)
          | (s2, false) => (s2, false)

/-- Does the memory side hold a write of a COPY to some sector of its destination (R323)? -/
def State.copyWaits (s : State) (q : Nat) (dst : Word) (len : Nat) : Bool :=
  let d := bits dst 62 0 % 256
  (List.range ((d + len + 255) / 256)).any fun k =>
    let lo := 256 * k - d
    s.ringWaits q dst lo (List.replicate (min (256 * (k + 1) - d) len - lo) 0#8)

/-- COPY_COMMAND_COMPLETE (R275): the copy ends once its writes need not wait. -/
def execCopyCommandComplete (q : Nat) (s : State) : Outcome :=
  match s.inFlight q 4 with
  | none => .next s
  | some c =>
    let len := fld c.bytes 32 8
    let w := fun (o : Nat) => BitVec.ofNat 64 (fld c.bytes o 8)
    if s.copyWaits q (w 24) len then .next s
    else match s.copyFrom q (w 16) (w 24) len (fun _ => true) (len / 64 + 2) 0 with
    | (s1, true) => .next (s1.retireCmd q c 0)
    | (s1, false) => .next (s1.failCmd q c)

/-- MARK (R275). -/
def execMark (q : Nat) (s : State) : Outcome :=
  match s.starting q 5 with
  | none => .next s
  | some c => .next ((s.startOf q c).retireCmd q { c with started := true } (BitVec.ofNat 64 (fld c.bytes 16 8)))

end Sys2Proof.Machine
end

