-- ==== Sys2Proof/Machine/Preempt.lean ====
section
/-! DEFINITION. Pre-emption (R287, R353 to R356, R379): the request, the drain of each context, the save of each crew, and
the restore. -/

namespace Sys2Proof.Machine
open Sys2Proof

/-! ### The request (R353, R379) -/

/-- PSTATE and PCODE set; a change raises PF vector 1. -/
def State.setRequest (s : State) (pstate pcode : Nat) : State :=
  let s1 := { s with mg := { s.mg with pstate := pstate, pcode := pcode } }
  if s.mg.pstate = pstate && s.mg.pcode = pcode then s1 else s1.pfMsg 1

/-- A refused request. -/
def State.refuseRequest (s : State) (code : Nat) : State := s.setRequest (if s.mg.pstate = 1 then 1 else 3) code

/-- Are drain entries sorted and without overlap (R353)? -/
def drainSorted : List (Word × Word × Word) → Bool
  | e :: f :: r => decide (e.2.1.toNat ≤ f.1.toNat) && drainSorted (f :: r)
  | _ => true

/-- Are drain entries well-formed: within the instruction scratchpad, whose byte addresses they are, sorted and without
overlap (R83, R353)? -/
def drainOk (es : List (Word × Word × Word)) : Bool := drainWithin 131072 es && drainSorted es

/-- The drain table of a request: none where it cannot be read or is malformed. -/
def State.drainTable (s : State) (ia n : Nat) : State × Option (List (Word × Word × Word)) :=
  if ia = 0 then (s, some [])
  else match s.objBytes ia (24 * n) with
    | (s1, none) => (s1, none)
    | (s1, some bs) =>
      let es := (chunks 24 n bs).map drainEntry
      (s1, if drainOk es then some es else none)

/-- The running gang that a request names. -/
def State.named (s : State) (q : Nat) (jseq : Word) : Option Gang :=
  s.gangs.find? fun x => x.phase == .running && decide (x.queue = q) && decide (x.rec_.jseq = jseq)

/-- PREEMPT (R353). A request block that cannot be read names no gang. -/
def execPreempt (ia : Word) (s : State) : Outcome :=
  if !s.mg.ready then .next s
  else
    let s0 := { s with mg := { s.mg with preempt := ia } }
    if s.mg.pstate = 1 then .next (s0.refuseRequest 4)
    else match s0.objBytes ia.toNat 64 with
      | (s1, none) => .next (s1.refuseRequest 1)
      | (s1, some bs) =>
        match s1.named (fld bs 8 1) (BitVec.ofNat 64 (fld bs 0 8)) with
        | none => .next (s1.refuseRequest 1)
        | some x =>
          if !(zeros bs 9 15 && zeros bs 36 63) then .next (s1.refuseRequest 2)
          else match s1.drainTable (fld bs 24 8) (fld bs 32 4) with
            | (s2, none) => .next (s2.refuseRequest 3)
            | (s2, some es) =>
              .next ((s2.setGang { x with
                phase := .draining, save := BitVec.ofNat 64 (fld bs 16 8), dtab := es, saved := [], fell := [] }).setRequest 1
                s2.mg.pcode)

/-! ### The drain (R354) -/

/-- The stub of the drain entry that covers an address. -/
def stubOf (es : List (Word × Word × Word)) (p : Word) : Option Word :=
  (es.find? fun e => decide (e.1.toNat ≤ p.toNat) && decide (p.toNat < e.2.1.toNat)).map fun e => e.2.2

/-- A context diverts to its stub at address P: handler mode is entered, and the program's validation set is set aside
(R345). -/
def State.divert (s : State) (g : Nat) (p stub : Word) : State :=
  let s1 := (s.dropTentative g).flushReports g
  let c := s1.ctx g
  s1.setCtx g { c with
    status := .ready, epc := p, hm := true, drain := true, estat := (StopReq.plain 0x10 p).estat c.estat, pc := stub, xfer := none
    tent := [], loop := none, aside := some ⟨c.vset, none, none, c.steps⟩, vset := VSet.empty, monitor := none, waitPh := none
    blocked := none, yielded := false, backoff := none, skipBp := false }

/-- The pre-emption fallback stop: taken as a stop is, the context then being drained. -/
def State.fallBack (s : State) (g : Nat) (p : Word) : State :=
  let s1 := { (({ s with cur := g, iss := Iss.none } : State).flushReports g).stop (.plain 0x0D p) [] with iss := Iss.none }
  let c := s1.ctx g
  if c.status = .fatal then s1
  else
    let s2 := (s1.setCtx g { c with status := .drained, blocked := none }).vacate g
    match s2.gangOf g with
    | some (x, _) => s2.setGang { x with fell := g :: x.fell }
    | none => s2

/-- CONTEXT_DRAIN (R354): at a bundle boundary outside handler mode and its RESUME. -/
def execContextDrain (g : Nat) (s : State) : Outcome :=
  match s.gangOf g with
  | none => .next s
  | some (x, _) =>
    let c := s.ctx g
    if x.phase = .draining && !c.hm && c.redo.isNone && (c.status = .ready || c.status = .waiting) then
      let s1 := s.endWait g
      match stubOf x.dtab c.nextPc with
      | some stub => .next (s1.divert g c.nextPc stub)
      | none => .next (s1.fallBack g c.nextPc)
    else .next s

/-! ### The save (R355) -/

/-- Free bytes that stand for what the device writes in a layout of its own. -/
def ownBytes (draw place n : Nat) : List Byte := (List.range (n / 32)).flatMap fun i => leBytes 32 (Config.free draw place i).toNat

/-- Bytes of the accumulator store. -/
def accBytes (t : Tab Syl) : List Byte := (List.range 131072).flatMap fun i => leBytes 4 (t.get i 0).toNat

/-- The access of a save or a restore. -/
def Gang.acc (x : Gang) : Acc := ⟨BitVec.ofNat 8 x.rec_.world, 3, x.tenant, 0, (.pod, 0)⟩

/-- What is kept of a crew. -/
def State.keepCrew (s : State) (x : Gang) (cl : Nat) : SavedCrew where
  draw := s.fresh
  ctxs := (List.range x.rec_.crewSize).map fun m => (m, s.ctx (ctxOfMember cl m))
  cores := (List.range 4).map fun k => s.core (cl * 4 + k)
  cluster := cl
  active := (s.cl cl).active
  broken := (s.cl cl).broken
  spad := (s.cl cl).spad
  acc := (s.cl cl).acc

/-- The 6 MiB block of a crew. -/
def SavedCrew.block (k : SavedCrew) : List Byte :=
  k.spad.read 0 4194304 ++ accBytes k.acc ++ k.cores.flatMap (fun c => c.ispad.read 0 131072) ++
    ownBytes k.draw 4600 655360 ++ leBytes 393216 0

/-- A crew written to its block and freed; its L1s have gone home. -/
def State.saveCrew (s : State) (x : Gang) (j cl : Nat) : State :=
  let kept := s.keepCrew x cl
  let r := s.sectorWrites x.acc .nobody 24578 (x.save.toNat + 6291456 * j) kept.block
  (r.1.freeCrew x.protected_ cl).setGang { x with saved := x.saved.put j kept }

/-- Every crew has been saved: the gang returns to the head of its queue (R287, R379). Where no other placed gang names its badger
image, the image goes, as at a retirement: the model's choice (log 133). -/
def State.allSaved (s : State) (x : Gang) : State :=
  if x.saved.length < x.rec_.crews then s
  else
    let y : Gang := { x with phase := .saved, block := [], reserving := false, target := [] }
    ((((s.setGang y).leaveImage y).setCmd x.queue (ofGang x.id) fun c => { c with started := false }).noteHead x.queue).setRequest 2
      s.mg.pcode

/-- Has a context completed its drain? -/
def Ctx.drained (c : Ctx) : Bool := c.status == .drained || c.status == .exited

/-- CREW_SAVE (R355): the collectives of the crew are cancelled, its other commands run to completion, and it is saved. A
once-only gang fails instead, when all of it is drained (R287). -/
def execCrewSave (gid j : Nat) (s : State) : Outcome :=
  match s.gang? gid with
  | none => .next s
  | some x =>
    match x.block[j]? with
    | none => .next s
    | some cl =>
      let gs := (List.range x.rec_.crewSize).map (ctxOfMember cl)
      if x.phase ≠ .draining || (x.saved.get? j).isSome || !(gs.all fun g => (s.ctx g).drained) then .next s
      else if x.rec_.flags % 2 = 1 then
        if x.ctxs.all fun g => (s.ctx g).drained then .next (s.failGang gid 0x19 0) else .next s
      else
        let s1 := (s.collSeqs gs).foldl (fun t q => t.failSeq q 2 []) s
        if !(gs.all s1.quiet && s1.settled gs ((List.range 4).map (cl * 4 + ·)) [cl]) then .next s1
        else
          let s2 := (List.range 4).foldl (fun t k => t.l1FlushAll (cl * 4 + k) (.dev, cl * 16)) (s1.flushCombs cl)
          let s3 := s2.saveCrew x j cl
          match s3.gang? gid with
          | none => .next s3
          | some y => .next (s3.allSaved y)

/-! ### The restore (R356) -/

/-- The clusters that crews were on, with those they are on now. -/
def Gang.moves (x : Gang) (b : List Nat) : List (Nat × Nat) :=
  x.saved.map fun e => (e.2.cluster, b.getD e.1 e.2.cluster)

/-- A cluster, or a context, after the move. -/
def moved (ms : List (Nat × Nat)) (cl : Nat) : Nat := ((ms.find? fun p => p.1 == cl).map (·.2)).getD cl
def movedCtx (ms : List (Nat × Nat)) (g : Nat) : Nat := moved ms (g / 16) * 16 + g % 16

/-- The object of a binding after the move. -/
def ObjId.moved (ms : List (Nat × Nat)) : ObjId → ObjId
  | .lockSpad cl off => .lockSpad (Machine.moved ms cl) off
  | .phaser cl off => .phaser (Machine.moved ms cl) off
  | o => o

/-- Every register of a context. -/
def allRegs : List RegN :=
  (List.range 32).map .s ++ (List.range 32).map .v ++ (List.range 48).map .p ++ (List.range 16).map .q ++ (List.range 4).map .bt

/-- The LDFs of a saved context that have no answer: cancelled, since no slice answers their entries any more (R354). -/
def Ctx.cutLdfs (c : Ctx) : List Ldf := c.ldfs.filter fun l => l.at_ != .answered

/-- A context as it is restored: at EPC after a drain, in handler mode at THV after a fallback, where
the record of an LDF without an answer stands for a new one. -/
def Ctx.restored (c : Ctx) (ms : List (Nat × Nat)) (nextLdf : Nat) : Ctx :=
  let c1 : Ctx := { c with
    regs := c.regs.map fun r => { r with cl := moved ms r.cl }
    binds := c.binds.map fun b => b.map fun x => { x with obj := x.obj.moved ms }
    phsw := c.phsw.map fun w => { w with cl := moved ms w.cl }
    ldfs := c.ldfs.filter fun l => l.at_ == .answered
    written := c.written.map fun w => if c.cutLdfs.any fun l => l.id == w.ldf then { w with ldf := 0 } else w
    monitor := none, waitPh := none, blocked := none, nextLdf := max c.nextLdf nextLdf }
  if c.status = .exited then c1
  else if c.hm then { c1 with status := .ready }
  else { c1 with status := .ready, pc := c.epc, estat := c.estat &&& 0xFF#64 }

/-- The context of a save area whose bytes have changed: undefined values (R355). -/
def Ctx.spoiled (c : Ctx) (s : State) : Ctx :=
  { c.lose s allRegs with pc := (s.free 4601 0).truncate 64, epc := (s.free 4601 1).truncate 64 }

/-- A line that holds bytes buffered by tasks, after the move. -/
def L1Line.moved (l : L1Line) (ms : List (Nat × Nat)) : L1Line := { l with
  bufs := l.bufs.map fun b => { b with g := movedCtx ms b.g }, by_ := [], all_ := [] }

/-- A core as it is restored, with the lines that a task has buffered. -/
def Core.restored (k : Core) (ms : List (Nat × Nat)) (ispad : Mem) : Core := { Core.init with
  ispad := ispad, undef := k.undef, aRun := k.aRun, bRun := k.bRun, smap := k.smap, lives := k.lives, world := k.world
  l1 := k.l1.map fun e => (e.1, e.2.moved ms) }

/-- The accumulator store and a scratchpad with every byte free. -/
def spoiledAcc (draw : Nat) : Tab Syl :=
  (List.range 131072).foldl (fun t i => t.put i ((Config.free draw 4603 i).truncate 32)) []
def spoiledMem (draw place n : Nat) : Mem := Mem.write [] 0 (ownBytes draw place n)

/-- Crew j restored at a cluster: what was kept where its block is unchanged, undefined values where it has changed or
cannot be read (R355). -/
def State.restoreCrew (s : State) (x : Gang) (ms : List (Nat × Nat)) (j cl : Nat) (k : SavedCrew) : State :=
  let r := s.homeMany x.acc (x.save.toNat + 6291456 * j) 6291456
  let whole := match r.2 with
    | .ok b => decide (b = k.block)
    | .pageFault => false
    | .poisoned => false
  let c := startCluster (r.1.cl cl) x.id j
  let s1 := r.1.setCl cl { c with
    spad := if whole then k.spad else spoiledMem s.fresh 4602 4194304
    acc := if whole then k.acc else spoiledAcc s.fresh
    active := k.active, broken := k.broken }
  let s2 := (k.cores.zipIdx).foldl (fun t p =>
    (t.l1FlushAll (cl * 4 + p.2) (.dev, cl * 16)).setCore (cl * 4 + p.2)
      (p.1.restored ms (if whole then p.1.ispad else spoiledMem s.fresh (4604 + p.2) 131072))) s1
  k.ctxs.foldl (fun t p =>
    let g := ctxOfMember cl p.1
    let d := p.2.restored ms (t.ctx g).nextLdf
    let kept := d.lose s ((p.2.cutLdfs.filter fun l => !l.gone).map fun l => .s l.dest)
    (t.arrives g).setCtx g (if whole then kept else d.spoiled s)) s2

/-- A pool whose tasks' holders have moved. -/
def Pool.moved (p : Pool) (ms : List (Nat × Nat)) : Pool :=
  { p with tasks := p.tasks.map fun t => { t with holder := t.holder.map (movedCtx ms) } }

/-- GANG_RESTORE (R356): every crew block is copied back before any member issues; the started entry has the same JSEQ. -/
def execGangRestore (gid : Nat) (s : State) : Outcome :=
  match s.mayPlace gid .saved with
  | none => .next s
  | some (x, b) =>
    let s0 := s.grant x
    let s1 := if s0.needsImage x then s0.installImage x.tenant x.image else s0
    let ms := x.moves b
    let s2 := x.saved.foldl (fun t e => t.restoreCrew x ms e.1 (b.getD e.1 0) e.2) s1
    let y : Gang := { x with
      phase := .running, block := b, reserving := false, target := [], starts := x.starts + 1, saved := [], fell := []
      pool := x.pool.map (·.moved ms) }
    .next ((((s2.setGang y).setCmd x.queue (ofGang gid) fun c => { c with started := true }).journal x.queue x.rec_.jseq 2 0
      y.place 0).noteHead x.queue)

end Sys2Proof.Machine
end

