-- ==== Sys2Proof/Machine/Link.lean ====
section
/-! DEFINITION. Dalter links: flits (R382, R383), the roster and its formation (R384), and routes (R385). What a delivered
flit carries has no layout in the manual: it stays in the link's inbox (log 14). -/

namespace Sys2Proof.Machine
open Sys2Proof

/-- A link of the module, and the state with it replaced. -/
def State.link (s : State) (l : Nat) : Link := s.trust.links.get l Link.init
def State.setLink (s : State) (l : Nat) (x : Link) : State :=
  { s with trust := { s.trust with links := s.trust.links.put l x } }

/-! ### Status (R376) -/

/-- LINKUP: bit n for Dalter link n. -/
def State.linkUp (s : State) : Nat :=
  ((List.range 16).map fun l => if (s.link l).up then 2 ^ l else 0).foldl (· + ·) 0

/-- NFENCED (R386). -/
def State.nfenced (s : State) : Nat := ((List.range 64).filter fun i => s.mg.cfence.getLsbD i).length

/-- DSTAT (R376). -/
def State.dstat (s : State) : Word :=
  BitVec.ofNat 64 (s.nfenced * 2 ^ 40 + s.linkUp * 2 ^ 24 + s.mg.stage * 2 ^ 16 + (if s.mg.throt then 4 else 0) +
    (if s.mg.fail then 2 else 0) + (if s.mg.ready then 1 else 0))

/-! ### Routes (R384, R385) -/

/-- Members at the far ends of a member's links. -/
def farMembers (roster : List Byte) (m : Nat) : List Nat := (List.range 16).filterMap (Config.rosterFar roster m)

/-- Members within k hops of some members, on paths that do not come back to this device. -/
def reach (roster : List Byte) (me : Nat) : Nat → List Nat → List Nat
  | 0, ms => ms
  | k + 1, ms => reach roster me k ((ms ++ (ms.flatMap (farMembers roster)).filter (· != me)).eraseDups)

/-- Hops from a member to another on such a path: none where there is none. -/
def hops (roster : List Byte) (me a b : Nat) : Option Nat :=
  (List.range 256).find? fun k => (reach roster me k [a]).contains b

/-- The better of two links, as its length and number. -/
def betterLink (x y : Nat × Nat) : Nat × Nat := if y.1 < x.1 then y else x

/-- The link of a shortest path to a member over this device's links that are up, the lowest number winning. A path that comes
back to this device over one of its links is none. -/
def State.routeTo (s : State) (m : Nat) : Option Nat :=
  let r := s.trust.roster
  let me := s.trust.myIdx
  let all := (List.range 16).filterMap fun l =>
    if !(s.link l).up then none
    else match Config.rosterFar r me l with
      | none => none
      | some f => if f = me then none else (hops r me f m).map fun k => (k, l)
  match all with
  | [] => none
  | x :: t => some (t.foldl betterLink x).2

/-- The routes recomputed. -/
def State.reroute (s : State) : State :=
  let rs := (List.range s.trust.members.length).filterMap fun m =>
    if m = s.trust.myIdx then none else (s.routeTo m).map fun l => (m, l)
  { s with trust := { s.trust with routes := rs } }

/-! ### Sending -/

/-- The additional data of a flit: its first eight bytes (R382). -/
def flitHead (type dst src vc : Byte) (seq ack : Nat) : List Byte := [type, dst, src, vc] ++ leBytes 2 seq ++ leBytes 2 ack

/-- The nonce of a direction's flit. -/
def flitNonce (id : BitVec 32) (count : Nat) : List Byte := leBytes 4 id.toNat ++ leBytes 8 count

/-- A flit encrypted (R382). -/
def flitBytes (key : BitVec 256) (id : BitVec 32) (count : Nat) (head payload : List Byte) : List Byte :=
  let k := keyBytes key
  let ct := gcmStream k (flitNonce id count) payload
  let body := head ++ ct ++ gcmTag k (flitNonce id count) head ct ++ leBytes 4 0
  body ++ leBytes 4 (crc32c body).toNat

/-- Does the traffic of a link wait: it retrains, or is about to after 8 replays of one flit (R383)? -/
def Link.stopped (x : Link) : Bool := x.training || x.replays.any (decide <| 8 ≤ ·)

/-- A flit sent on a link: kept until it is acknowledged; with 512 kept, and while traffic waits, it waits (R383). -/
def State.sendFlit (s : State) (l : Nat) (head payload : List Byte) : State :=
  let x := s.link l
  if x.stopped || x.unacked.length ≥ 512 then s.setLink l { x with held := x.held ++ [(head, payload)] }
  else
    let seq := x.txSeq + 1
    let h := flitHead (head.getD 0 0) (head.getD 1 0) (head.getD 2 0) (head.getD 3 0) seq.toNat x.rxSeq.toNat
    let f := flitBytes x.txKey x.txId x.txCount h payload
    (s.setLink l { x with
      txSeq := seq, txCount := x.txCount + 1, unacked := x.unacked ++ [f], replays := x.replays ++ [0] }).send (.flit l f)

/-- A NAK that names the last good SEQ, in an idle flit (R382, R383); it too waits while 512 flits are kept or traffic waits. -/
def State.sendNak (s : State) (l : Nat) : State :=
  let x := s.link l
  if x.stopped || x.unacked.length ≥ 512 then s.setLink l { x with nak := true }
  else
    let seq := x.txSeq + 1
    let h := flitHead 0 ((s.free 4702 l).truncate 8) (BitVec.ofNat 8 s.trust.myIdx) 0 seq.toNat (x.rxSeq.toNat + 2 ^ 15)
    let f := flitBytes x.txKey x.txId x.txCount h (leBytes 224 0)
    (s.setLink l { x with
      txSeq := seq, txCount := x.txCount + 1, unacked := x.unacked ++ [f], replays := x.replays ++ [0], nak := false }).send
      (.flit l f)

/-- Flits that wait are sent as places become free. -/
def State.sendHeld (s : State) (l : Nat) : Nat → State
  | 0 => s
  | n + 1 =>
    match (s.link l).held with
    | [] => s
    | h :: r =>
      if (s.link l).stopped || (s.link l).unacked.length ≥ 512 then s
      else ((s.setLink l { s.link l with held := r }).sendFlit l h.1 h.2).sendHeld l n

/-- What waits for a place is sent: a NAK first, then the flits. -/
def State.sendWaiting (s : State) (l : Nat) : State :=
  (if (s.link l).nak then s.sendNak l else s).sendHeld l 512

/-- The kept flits sent again, as the same bytes; not a ninth time before the link has retrained (R383). -/
def State.resend (s : State) (l : Nat) : State :=
  let x := s.link l
  if x.stopped then s
  else x.unacked.foldl (fun t f => t.send (.flit l f)) (s.setLink l { x with replays := x.replays.map (· + 1) })

/-! ### A link that goes down (R383, R385) -/

/-- The plaintext of a kept flit, its header first. -/
def keptPlain (x : Link) (i : Nat) (f : List Byte) : List Byte × List Byte :=
  (f.take 8, gcmStream (keyBytes x.txKey) (flitNonce x.txId (x.txCount - x.unacked.length + i)) (sub f 8 224))

/-- The members that a copy's ranges name. -/
def Cmd.members (c : Cmd) : List Nat :=
  if c.eng ≠ 3 then []
  else [1, 4].filterMap fun i => if tagOf (c.reg i) = 4 then some (bits (c.reg i) 57 50) else none

/-- Has a context an access outstanding to a member: an LDF on its way, an operation that waits or whose result has not landed,
or a copy that has started with a range there (R385)? -/
def State.outstanding (s : State) (m g : Nat) : Bool :=
  ((s.ctx g).ldfs.any fun l => l.member == m && l.at_ != .answered) ||
    ((s.ctx g).pend.any fun o => !o.landed && (o.away == some m || o.mem.bind (·.away) == some m)) ||
    (s.core (coreOf g)).tdt.any fun e => e.cmd.g == g && e.started && e.cmd.members.contains m

/-- A member that has become unreachable: its accesses and collectives end (R385, R195). -/
def State.loseMember (s : State) (m : Nat) : State :=
  let gs := (s.ctxs.map (·.1)).filter (s.outstanding m)
  let qs := ((s.colls.filter fun w => w.cmd.aux.any fun e => decide (bits e 7 0 = m)).map (·.seq)).eraseDups
  qs.foldl (fun t q => t.failSeq q 2 []) (gs.foldl (fun t g => t.setAsync g 0x23) s)

/-- A link down: notice 0x23, new routes, and its unacknowledged flits on them in their order. -/
def State.linkDown (s : State) (l : Nat) : State :=
  let x := s.link l
  let old := s.trust.routes
  let s1 := ((s.setLink l { x with up := false, training := false, unacked := [], held := [], replays := [], nak := false }).noticeAll 0x23
    (BitVec.ofNat 64 l)).pfMsg 0
  let s2 := s1.reroute
  let lost := (old.filter fun e => (s2.trust.routes.get? e.1).isNone).map (·.1)
  let flits := (x.unacked.mapIdx fun i f => keptPlain x i f) ++ x.held
  let s3 := flits.foldl (fun t f =>
    if f.1.getD 0 0 = 0#8 then t
    else match t.trust.routes.get? (f.1.getD 1 0).toNat with
      | some k => t.sendFlit k f.1 f.2
      | none => t) s2
  lost.foldl (fun t m => t.loseMember m) s3

/-! ### Receiving (R383) -/

/-- Kept flits up to an acknowledged SEQ leave. -/
def dropAcked (ack : Nat) : List (List Byte) → List (List Byte)
  | [] => []
  | f :: r => if (fld f 4 2 + 4096 - ack % 4096 + 4096) % 4096 = 0 || (ack % 4096 + 4096 - fld f 4 2 % 4096) % 4096 < 2048
    then dropAcked ack r else f :: r

/-- What ACK says: flits acknowledged, and after a NAK the rest resent. -/
def State.acked (s : State) (l ack : Nat) : State :=
  let x := s.link l
  let left := dropAcked (ack % 4096) x.unacked
  let nak := decide (ack / 2 ^ 15 % 2 = 1)
  let s1 := (s.setLink l { x with
    unacked := left, replays := x.replays.drop (x.unacked.length - left.length) }).sendWaiting l
  if nak then s1.resend l else s1

/-! #### A request of another member (R200, R327) -/

/-- The access of another member under a world. -/
def remoteAcc (world : Byte) : Acc := { unitAcc with world := world }

/-- Has this member no active slot, or no transit key, for a protected world (R327)? -/
def State.refusesWorld (s : State) (world : Byte) : Bool := world ≠ 0 && (s.transitKey world).isNone

/-- Bytes that have travelled, as the home decrypts them: n bytes from an IA on, of the blocks that hold them (R327). -/
def State.fromTransit (s : State) (world : Byte) (ia n : Nat) (data : List Byte) : List Byte :=
  match (if world = 0 then none else s.transitKey world) with
  | none => data.take n
  | some k =>
    sub ((chunks 16 ((ia + n + 15) / 16 - ia / 16) data).mapIdx fun i b => xts false k (ia / 16 + i) b).flatten (ia % 16) n

/-- Bytes found here, as they travel to another member. -/
def State.outTransit (s : State) (world : Byte) (ia : Nat) (bs : List Byte) : List Byte :=
  if world = 0 then bs else (s.inTransit world ia bs).2

/-- What a request of another member does here as its home (R200, R327), and the data of its response: none where it is refused
or fails. -/
def State.homeRequest (s : State) (r : Config.RemoteReq) : State × Option (List Byte) :=
  match r with
  | .read w ia n =>
    if s.refusesWorld w then (s, none)
    else match s.homeMany (remoteAcc w) ia n with
    | (s1, .ok bs) => (s1, some (s1.outTransit w ia bs ++ leBytes 8 (s1.verOf ia).toNat))
    | (s1, .pageFault) => (s1, none)
    | (s1, .poisoned) => (s1, none)
  | .write w ia n data =>
    if s.refusesWorld w then (s, none)
    else match s.sectorWrites (remoteAcc w) .nobody (n / 256 + 2) ia (s.fromTransit w ia n data) with
    | (s1, .ok _) => (s1, some [])
    | (s1, .pageFault) => (s1, none)
    | (s1, .poisoned) => (s1, none)
  | .atom w ia code w64 spc ops =>
    let n := if w64 then 8 else 4
    let xy := s.fromTransit w (ia / 16 * 16) 16 ops
    if s.refusesWorld w then (s, none)
    else match s.homeRead ia n (remoteAcc w) true true with
    | (s1, .pageFault) => (s1, none)
    | (s1, .poisoned) => (s1, none)
    | (s1, .ok bs) =>
      let ver := s1.verOf ia
      let y := leWord (xy.drop 8)
      let back := some (s1.outTransit w ia bs ++ leBytes 8 ver.toNat)
      match (if spc && decide (ver ≠ y) then none else atomNew code w64 (leWord bs) (leWord (xy.take 8)) y) with
      | none => (s1, back)
      | some v => ((s1.writeTxn (remoteAcc w) (cellsAt ia (leBytes n v.toNat)) true 0 .nobody).1, back)

/-- A request flit answered: its response goes back on the route to its source (R382, R385). -/
def State.answerRequest (s : State) (head payload : List Byte) : State :=
  match Config.flitReq payload with
  | none => s
  | some r =>
    let q := s.homeRequest r
    match q.1.trust.routes.get? (head.getD 2 0).toNat with
    | none => q.1
    | some k => q.1.sendFlit k [2, head.getD 2 0, BitVec.ofNat 8 q.1.trust.myIdx, head.getD 3 0]
        (leBytes 224 (Config.flitAnswer payload q.2).toNat)

/-- A flit that has been received in order: delivered here, where a request is performed and answered, or forwarded under the
hop keys of its route (R385). -/
def State.deliver (s : State) (l : Nat) (head payload : List Byte) : State :=
  let dst := (head.getD 1 0).toNat
  if head.getD 0 0 = 0#8 then s
  else if dst = s.trust.myIdx then
    let s1 := s.setLink l { s.link l with inbox := (s.link l).inbox ++ [head ++ payload] }
    if head.getD 0 0 = 1#8 then s1.answerRequest head payload else s1
  else match s.trust.routes.get? dst with
    | some k => s.sendFlit k head payload
    | none => s

/-- FLIT_RECEIVE (R383): a link carries no traffic before FORM (R381). -/
def execFlitReceive (l : Nat) (flit : List Byte) (s : State) : Outcome :=
  let x := s.link l
  if !x.up || x.stopped || s.trust.members.isEmpty || flit.length ≠ 256 then .next s
  else if (crc32c (flit.take 252)).toNat ≠ fld flit 252 4 then .next (s.sendNak l)
  else if fld flit 4 2 % 4096 ≠ (x.rxSeq + 1).toNat then .next s
  else
    let k := keyBytes x.rxKey
    let nonce := flitNonce x.rxId x.rxCount
    let ct := sub flit 8 224
    if gcmTag k nonce (flit.take 8) ct ≠ sub flit 232 16 then .next (s.linkDown l)
    else
      let s1 := s.setLink l { x with rxSeq := x.rxSeq + 1, rxCount := x.rxCount + 1 }
      .next ((s1.acked l (fld flit 6 2)).deliver l (flit.take 8) (gcmStream k nonce ct))

/-- LINK_RETRAIN (R383): after 8 replays of a flit. -/
def execLinkRetrain (l : Nat) (s : State) : Outcome :=
  let x := s.link l
  if x.up && !x.training && x.replays.any (decide <| 8 ≤ ·) then .next (s.setLink l { x with training := true }) else .next s

/-- LINK_RETRAIN_DONE (R383, R385). -/
def execLinkRetrainDone (l : Nat) (ok : Bool) (s : State) : Outcome :=
  let x := s.link l
  if !x.training then .next s
  else if ok then .next ((s.setLink l { x with training := false, replays := x.unacked.map fun _ => 0 }).resend l |>.sendWaiting l)
  else .next (s.linkDown l)

/-! ### Formation (R384) -/

/-- DEVID: SHAKE256-256 of the public key (R333). -/
def devid : BitVec 256 := shake32 (leBytes 68 Config.xmssPublic.toNat)

/-- A hop key (R384). -/
def hopKey (ss from_ to_ : BitVec 256) : BitVec 256 := shake32 (0x05#8 :: (keyBytes ss ++ keyBytes from_ ++ keyBytes to_))

/-- A link with new keys and the identifiers of its directions; the flits it keeps are encrypted under them. -/
def Link.rekeyed (x : Link) (tx rx : BitVec 256) (txId rxId : BitVec 32) : Link := { x with
  up := true, txKey := tx, rxKey := rx, txId := txId, rxId := rxId, training := false, replays := x.unacked.map fun _ => 0
  unacked := x.unacked.mapIdx fun i f =>
    flitBytes tx txId (x.txCount - x.unacked.length + i) (keptPlain x i f).1 (keptPlain x i f).2 }

/-- The link after its exchange: its keys, or down where the far DEVID is not the roster's, or no signature is left
(R333). The identifiers of its directions, which the manual does not give, stay as they are. SEQs and the counts of flits go
on: a nonce counts the flits ever encrypted on its direction (R382). Flits kept for an acknowledgement stay kept (R383), now
under the new key, each with its SEQ and its count, and are sent again (log 125). -/
def State.formLink (s : State) (l : Nat) (partner : Option (BitVec 256 × BitVec 256)) : State :=
  let x := s.link l
  if !x.up then s
  else
    let down := s.setLink l { x with up := false }
    match partner, Config.rosterFar s.trust.roster s.trust.myIdx l with
    | some p, some f =>
      if s.trust.xmss ≥ 2 ^ 20 || Config.rosterDevid s.trust.roster f ≠ p.1 then down
      else
        let s1 := (s.setLink l (x.rekeyed (hopKey p.2 devid p.1) (hopKey p.2 p.1 devid) ((Config.free 0 4700 l).truncate 32)
          ((Config.free 0 4701 l).truncate 32))).resend l
        { s1 with trust := { s1.trust with xmss := s1.trust.xmss + 1 } }
    | _, _ => down

/-- Links formed from number l on. -/
def State.formLinks (s : State) : Nat → List (Option (BitVec 256 × BitVec 256)) → State
  | _, [] => s
  | l, p :: r => (s.formLink l p).formLinks (l + 1) r

/-- FORM (R384): refused while any gang is placed. -/
def execForm (partners : List (Option (BitVec 256 × BitVec 256))) (s : State) : Outcome :=
  if !s.mg.ready || s.gangs.any (·.placed) then .next s
  else
    let r := s.trust.roster
    let n := min (Config.rosterCount r) 256
    let s1 := { s with trust := { s.trust with
      members := (List.range n).map (Config.rosterDevid r), myIdx := Config.rosterIndex r } }
    let ups := fun (t : State) => (List.range 16).map fun l => (t.link l).up
    let s2 := (s1.formLinks 0 ((List.range 16).map fun l => partners.getD l none)).reroute
    .next (if ups s2 = ups s then s2 else s2.pfMsg 0)

end Sys2Proof.Machine
end

