-- ==== Sys2Proof/Machine/Trust.lean ====
section
/-! DEFINITION. The trust controller: key delivery (R330), release of a world (R324), evidence (R333 to R335), and the
sideband (R388). The algorithms of outside standards are constants without a body (log 12). -/

namespace Sys2Proof.Machine
open Sys2Proof

/-- A mailbox answer, with PF vector 2 (R378); the mailbox then reads as the answer's bytes (log 120). -/
def State.mail (s : State) (st : MailStat) (bs : List Byte) : State :=
  (({ s with trust := { s.trust with mbox := bs.take 8192 } } : State).send (.mailbox st bs)).pfMsg 2

/-- A signature (R333): none once 2^20 indices are used. The next index is committed first. -/
def State.sign (s : State) (digest : BitVec 256) : State × Option (List Byte) :=
  if s.trust.xmss ≥ 2 ^ 20 then (s, none)
  else ({ s with trust := { s.trust with xmss := s.trust.xmss + 1 } }, some (leBytes 2820 (Config.xmssSign s.trust.xmss digest).toNat))

/-- KEY_NONCE_REQUEST (R330): a fresh encapsulation key, signed with the nonce. -/
def execKeyNonceRequest (nonce : BitVec 256) (s : State) : Outcome :=
  if !s.mg.ready then .next s
  else
    let ek := leBytes 1568 (Config.mlkemKey s.rnd).toNat
    match s.sign (shake32 (ek ++ keyBytes nonce ++ keyBytes devid)) with
    | (s1, none) => .next (s1.mail .exhausted [])
    | (s1, some sig) =>
      .next (({ s1 with rnd := s1.rnd + 1, trust := { s1.trust with keyDraw := some s1.rnd } } : State).mail .ok (ek ++ sig))

/-- K_T unwrapped from a key delivery block with the key of a draw (R330): none where it is refused. -/
def unwrapKey (draw : Nat) (b : List Byte) : Option (BitVec 256) :=
  let ss := keyBytes (Config.mlkemSecret draw (b.take 1568))
  let nonce := leBytes 12 0
  let wk := sub b 1568 32
  if b.length ≠ 1664 || !zeros b 1618 1663 || fld b 1616 1 = 0 || fld b 1617 1 ≥ 16 ||
      gcmTag ss nonce (sub b 1616 2) wk ≠ sub b 1600 16 then none
  else some (BitVec.ofNat 256 (leNat (gcmStream ss nonce wk)))

/-- K_T taken into the world's key slot (R330). -/
def State.takeKey (s : State) (w : Byte) (tenant : Nat) (k : BitVec 256) : State :=
  match s.slotOf w with
  | some x =>
    if x.tenant ≠ tenant || (x.kt.isSome && decide (x.kt ≠ some k)) then s.mail .refused []
    else (s.setSlot (x.withKey (some k))).mail .ok []
  | none => if s.slotsFull w then s.mail .keyslotFull [] else (s.activate w tenant (some k)).mail .ok []

/-- KEY_DELIVERY (R330): the key that was handed out is destroyed with its use. -/
def execKeyDelivery (block : List Byte) (s : State) : Outcome :=
  if !s.mg.ready then .next s
  else match s.trust.keyDraw with
    | none => .next (s.mail .refused [])
    | some d =>
      let s1 := { s with trust := { s.trust with keyDraw := none } }
      match unwrapKey d block with
      | none => .next (s1.mail .refused [])
      | some k => .next (s1.takeKey (BitVec.ofNat 8 (fld block 1616 1)) (fld block 1617 1) k)

/-- A line discarded without write-back. -/
def State.discardLine (s : State) (sl line : Nat) : State :=
  let x := s.slice sl
  match x.lines.get? line with
  | none => s
  | some y =>
    ((s.setSlice sl { x with
      lines := x.lines.del line, hwm := if x.hwm.toNat < y.ver.toNat then y.ver else x.hwm }).wake line).raiseHint sl
      (lineEvent 2 line y.cls y.world (decide (y.dirty ≠ 0)) y.ver y.tenant)

/-- WORLD_RELEASE (R324): refused while a gang of the world is placed or has a LAUNCH in a queue. -/
def execWorldRelease (w : Byte) (s : State) : Outcome :=
  if !s.mg.ready || w = 0 || s.gangs.any (fun x => x.rec_.world == w.toNat) then .next s
  else
    let ks := s.slices.flatMap fun e => (e.2.lines.filter fun l => l.2.world == w).map fun l => (e.1, l.1)
    let s1 := ks.foldl (fun t k => t.discardLine k.1 k.2) s
    .next { s1 with trust := { s1.trust with slots := s1.trust.slots.filter fun k => k.world != w } }

/-! ### Evidence (R334, R335) -/

/-- FWM: the measurement of the firmware in force (R334, R388). -/
def State.firmware (s : State) : BitVec 256 := s.trust.fwm.getD Config.firmware

/-- This member's evidence. -/
def State.evidence (s : State) (w : Byte) (nonce : BitVec 256) : List Byte :=
  let mr := match s.slotOf w with
    | some k => k.mr
    | none => 0
  [1#8, w, BitVec.ofNat 8 s.trust.myIdx] ++ leBytes 5 0 ++ keyBytes devid ++ keyBytes s.firmware ++ keyBytes mr ++
    shake256 32 s.trust.roster ++ keyBytes nonce

/-- The record of a member that has not answered. -/
def absentRecord (m : Nat) : List Byte := [0#8, 0#8, BitVec.ofNat 8 m] ++ leBytes 165 0

/-- node(a, b). -/
def hashNode (a b : List Byte) : List Byte := shake256 32 (0x01#8 :: (a ++ b))

/-- One level up. -/
def treeUp : List (List Byte) → List (List Byte)
  | a :: b :: r => hashNode a b :: treeUp r
  | r => r

/-- The levels of the tree from some values on, at most k of them. -/
def treeLevels : Nat → List (List Byte) → List (List (List Byte))
  | 0, l => [l]
  | k + 1, l => if l.length ≤ 1 then [l] else l :: treeLevels k (treeUp l)

/-- The least power of two that is at least n. -/
def pow2Up (n : Nat) : Nat := ((List.range 10).map (2 ^ ·)).find? (n ≤ ·) |>.getD 256

/-- The authentication path of member i: the sibling at each level but the last. -/
def authPath (levels : List (List (List Byte))) (i : Nat) : List Byte :=
  ((levels.take (levels.length - 1)).zipIdx).flatMap fun p => p.1.getD ((i / 2 ^ p.2) ^^^ 1) []

/-- The answer of the leader, once every record is there. -/
def State.endGather (s : State) (x : Gather) : State :=
  let n := s.trust.members.length
  let recs := (List.range n).map fun m => ((x.records.find? fun r => r.1 == m).map (·.2)).getD (absentRecord m)
  let leaves := recs.map (shake256 32) ++ List.replicate (pow2Up n - n) (leBytes 32 0)
  let levels := treeLevels 9 leaves
  let root := (levels.getLastD []).headD []
  let s1 := { s with trust := { s.trust with gather := none } }
  match s1.sign (shake32 (0x02#8 :: (root ++ leBytes 2 n ++ keyBytes x.nonce))) with
  | (s2, none) => s2.mail .exhausted []
  | (s2, some sig) => s2.mail .ok (root ++ sig ++ recs.flatten ++ (List.range n).flatMap (authPath levels))

/-- The gathering goes on, or ends when every member has a record. -/
def State.setGather (s : State) (x : Gather) : State :=
  if (List.range s.trust.members.length).all fun m => x.records.any fun r => r.1 == m then s.endGather x
  else { s with trust := { s.trust with gather := some x } }

/-- EVIDENCE_REQUEST (R335). Without a roster there is no member, and the request is refused. -/
def execEvidenceRequest (w : Byte) (nonce : BitVec 256) (answers : List (Nat × List Byte)) (s : State) : Outcome :=
  if !s.mg.ready then .next s
  else if s.trust.members.isEmpty then .next (s.mail .refused [])
  else
    let good := answers.filter fun a => decide (a.1 ≠ s.trust.myIdx) && decide (a.1 < s.trust.members.length) &&
      decide (a.2.length = 168)
    .next (s.setGather ⟨w, nonce, (s.trust.myIdx, s.evidence w nonce) :: good⟩)

/-- EVIDENCE_TIMEOUT (R335): a silent member is given an absent record. -/
def execEvidenceTimeout (m : Nat) (s : State) : Outcome :=
  match s.trust.gather with
  | none => .next s
  | some x =>
    if x.records.any (fun r => r.1 == m) || m ≥ s.trust.members.length then .next s
    else .next (s.setGather { x with records := x.records ++ [(m, absentRecord m)] })

/-! ### The sideband (R388) -/

/-- DSTAT as a sensor. -/
def State.sensor (s : State) (n : Config.Sensor) : Word :=
  match n with
  | .clknow => BitVec.ofNat 64 s.mg.clkMHz
  | .dstat => s.dstat
  | .inlet | .outlet | .junctionA | .junctionB | .power => Config.sensorValue s.fresh n

/-- Is an update of the firmware accepted: no gang is placed, and the image passes its check? -/
def State.takesUpdate (s : State) (image : List Byte) : Bool := !(s.gangs.any (·.placed)) && Config.firmwareGood image

/-- SIDEBAND_MESSAGE (R388): answered in every stage. An update that is accepted takes effect at the next reset. -/
def execSidebandMessage (msg : List Byte) (s : State) : Outcome :=
  match Config.sidebandReq msg with
  | .sensor n => .next (s.send (.sideband (Config.sensorAnswer msg (s.sensor n))))
  | .update image =>
    let ok := s.takesUpdate image
    let s1 := if ok then { s with trust := { s.trust with fwNext := some (Config.firmwareMeasure image) } } else s
    .next (s1.send (.sideband (Config.updateAnswer msg ok)))
  | .other => .next (s.send (.sideband (Config.sidebandAnswer s.fresh msg)))

end Sys2Proof.Machine
end

