-- ==== Sys2Proof/Machine/Device.lean ====
section
/-! DEFINITION. The device in its system: the status registers (R376, R379), the registers of the management space (R375,
R381), function-level reset (R377), slot tables (R290), bring-up (R380), fencing (R386), and power (R387). -/

namespace Sys2Proof.Machine
open Sys2Proof

/-! ### Status -/

/-- MSTAT (R379). -/
def State.mstat (s : State) : Word :=
  BitVec.ofNat 64 (s.mg.pcode * 2 ^ 32 + (if s.mg.tbusy then 2 ^ 16 else 0) + s.mg.pstate)

/-! ### The registers of a queue (R274) -/

/-- Register r of a queue. -/
def Queue.read (q : Queue) : Nat → Word
  | 0 => q.base
  | 1 => q.size
  | 2 => q.head.zeroExtend 64
  | 3 => q.tail.zeroExtend 64
  | 4 => q.ctl
  | 5 => q.jbase
  | 6 => q.jsize
  | 7 => q.jhead.zeroExtend 64
  | 8 => q.jread.zeroExtend 64
  | 9 => q.jlost.zeroExtend 64
  | _ => 0

/-- Does a size register lie in 4 to 16? -/
def sizeOk (w : Word) : Bool := decide (4 ≤ bits w 4 0) && decide (bits w 4 0 ≤ 16)

/-- Bit 0 of QCTL holds only while both sizes lie in range (R381). -/
def Queue.checked (q : Queue) : Queue := if sizeOk q.size && sizeOk q.jsize then q else q.off

/-- Register r of a queue written; a queue that is enabled again writes its journal again (R289). -/
def Queue.write (q : Queue) (r : Nat) (v : Word) : Queue :=
  match r with
  | 0 => { q with base := v &&& 0xFFFFFFFFFFFFFFC0#64 }
  | 1 => Queue.checked { q with size := v &&& 0x1F#64 }
  | 3 => { q with tail := v.truncate 32 }
  | 4 =>
    let x := Queue.checked { q with ctl := v &&& 0x7FFF#64 }
    if x.on && !q.on then { x with jbad := false } else x
  | 5 => { q with jbase := v &&& 0xFFFFFFFFFFFFFFC0#64 }
  | 6 => Queue.checked { q with jsize := v &&& 0x1F#64 }
  | 8 => { q with jread := v.truncate 32 }
  | _ => q

/-! ### The debug block of a cluster (R365) -/

/-- Register r of a debug block. -/
def Dbg.read (d : Dbg) (r : Nat) : Word :=
  if r < 8 then vget d.bp r 0
  else match r with
  | 8 => d.step
  | 9 => d.owlBase
  | 10 => d.owlSize
  | 11 => d.owlHead
  | 12 => d.owlRead
  | 13 => d.owlCtl
  | 14 => vget d.cnt 0 0
  | 15 => vget d.cnt 1 0
  | 16 => vget d.cnt 2 0
  | 17 => vget d.cnt 3 0
  | 18 => d.retBase
  | _ => 0

/-- A counter register as it is kept. -/
def cntMask : Word := 0xFFFF000FFFFFFFFF#64

/-- Register r of a debug block written. -/
def Dbg.write (d : Dbg) (r : Nat) (v : Word) : Dbg :=
  if r < 8 then { d with bp := vput d.bp r (v &&& 0x8000FFFFFFFFFFFF#64) }
  else match r with
  | 8 => { d with step := v &&& 0xFFFF#64 }
  | 9 => { d with owlBase := v &&& 0x000FFFFFFFFFF000#64 }
  | 10 => { d with owlSize := v &&& 0x1F#64 }
  | 12 => { d with owlRead := v &&& 0xFFFFFFFF#64 }
  | 13 => { d with owlCtl := v &&& 0xFFFF007F#64 }
  | 14 => { d with cnt := vput d.cnt 0 (v &&& cntMask) }
  | 15 => { d with cnt := vput d.cnt 1 (v &&& cntMask) }
  | 16 => { d with cnt := vput d.cnt 2 (v &&& cntMask) }
  | 17 => { d with cnt := vput d.cnt 3 (v &&& cntMask) }
  | 18 => { d with retBase := v &&& 0x000FFFFFFFFFFFC0#64 }
  | _ => d

/-! ### The management space (R375) -/

/-- Eight bytes of a table of byte registers, from byte i on. -/
def tabWord (t : Tab Byte) (i : Nat) : Word := leWord ((List.range 8).map fun k => t.get (i + k) 0)

/-- Eight byte registers written, each with the bits it has. -/
def tabBytes (t : Tab Byte) (i : Nat) (mask : Byte) (v : Word) : Tab Byte :=
  (List.range 8).foldl (fun t k => t.put (i + k) ((v >>> (8 * k)).truncate 8 &&& mask)) t

/-- Byte b of the slot tables, die B's following die A's. -/
def slotByte (ts : List (List Byte)) (b : Nat) : Byte := (ts.getD (b / 64) []).getD (b % 64) 0

/-- The slot tables with eight bytes written from byte b on. -/
def slotPut (ts : List (List Byte)) (b : Nat) (v : Word) : List (List Byte) :=
  (List.range 2).map fun d => (List.range 64).map fun i =>
    let k := d * 64 + i
    if b ≤ k && k < b + 8 then (v >>> (8 * (k - b))).truncate 8 &&& 0x1F#8 else slotByte ts k

/-- The badger counters of a slice (R217). -/
def Slice.counters (x : Slice) (r : Nat) : Word :=
  if r = 0 then x.drops
  else if r = 1 then x.nacks
  else if r < 18 then BitVec.ofNat 64 (vget x.overrun (r - 2) 0)
  else if r = 18 then x.aborts
  else if r = 19 then leWord ((List.range 8).map fun i => match x.images.get? i with
    | some m => BitVec.ofNat 8 (128 + (if m.enabled then 64 else 0) + m.tenant)
    | none => 0)
  else 0

/-- The number of an 8-byte register in a block. -/
def regNo (off base : Nat) : Nat := (off - base) / 8

/-! ### The capabilities of a function (R374, R378) -/

/-- The limits of the PCI Express capability (R374): bytes of a payload and of a read request, and bits of a tag. -/
def maxPayload : Nat := 512
def maxReadRequest : Nat := 4096
def tagBits : Nat := 14

/-- Bytes of a function's BAR0 (R374, R375), and the MSI-X vectors it has (R374). -/
def barSize : Option Nat → Nat
  | none => 0x200000
  | some _ => 0x10000
def vectors : Option Nat → Nat
  | none => 64
  | some _ => 4

/-- Where the model places a function's capabilities: in a block of 4 KiB behind BAR0 (log 119). -/
def capOff (fn : Option Nat) (off : Nat) : Option Nat :=
  if barSize fn ≤ off && off < barSize fn + 0x1000 then some (off - barSize fn) else none

/-- The 8-byte register of a function's capabilities at an offset: the MSI-X table in 16-byte entries, the pending bits, the
MSI-X control, device control, ACS control, AER's status and mask, SR-IOV control, and the limits of the PCI Express capability
(log 119). -/
def PcieFn.read (x : PcieFn) (n off : Nat) : Word :=
  if off < 16 * n then
    let e := x.table.get (off / 16) MsixEntry.init
    if off % 16 < 8 then e.addr else e.data.zeroExtend 64 ||| (if e.masked then 1#64 <<< 32 else 0)
  else match off with
  | 0x800 => x.pending
  | 0xC00 => (if x.enable then 1#64 <<< 15 else 0) ||| (if x.fmask then 1#64 <<< 14 else 0) ||| BitVec.ofNat 64 (n - 1)
  | 0xC08 => x.devCtl.zeroExtend 64
  | 0xC10 => x.acsCtl.zeroExtend 64
  | 0xC18 => x.aerStat.zeroExtend 64
  | 0xC20 => x.aerMask.zeroExtend 64
  | 0xC28 => x.sriov.zeroExtend 64
  | 0xC30 => BitVec.ofNat 64 (maxPayload + maxReadRequest * 2 ^ 16 + tagBits * 2 ^ 32)
  | _ => 0

/-- The payload and read-request fields of device control hold no size above the limits of R374. -/
def devCtlOk (v : BitVec 16) : Bool :=
  decide (128 * 2 ^ (v.toNat / 32 % 8) ≤ maxPayload) && decide (128 * 2 ^ (v.toNat / 4096 % 8) ≤ maxReadRequest)

/-- The register written; AER's status is cleared by ones. -/
def PcieFn.write (x : PcieFn) (n off : Nat) (v : Word) : PcieFn :=
  if off < 16 * n then
    let e := x.table.get (off / 16) MsixEntry.init
    { x with table := x.table.put (off / 16) (if off % 16 < 8 then { e with addr := v }
      else { e with data := v.truncate 32, masked := bit v 32 }) }
  else match off with
  | 0xC00 => { x with enable := bit v 15, fmask := bit v 14 }
  | 0xC08 => if devCtlOk (v.truncate 16) then { x with devCtl := v.truncate 16 } else x
  | 0xC10 => { x with acsCtl := v.truncate 16 }
  | 0xC18 => { x with aerStat := x.aerStat &&& ~~~(v.truncate 32) }
  | 0xC20 => { x with aerMask := v.truncate 32 }
  | 0xC28 => if n = 64 && decide (bits v 31 16 ≤ 16) then { x with sriov := v.truncate 32 &&& 0xFFFF0001#32 } else x
  | _ => x

/-- Is a VF enabled by SR-IOV control (R374)? -/
def State.vfOn (s : State) (v : Nat) : Bool :=
  (s.pfn none).sriov.getLsbD 0 && decide (v < (s.pfn none).sriov.toNat / 65536) && decide (v < 16)

/-- Does the port support an access of n bytes at an offset of a function: the PF or a VF that is enabled, within BAR0 or the
capabilities (R374)? -/
def State.supported (s : State) (fn : Option Nat) (off n : Nat) : Bool :=
  (match fn with
    | none => true
    | some v => s.vfOn v) && decide (off + n ≤ barSize fn + 0x1000)

/-- A request that completes as Unsupported Request (R374), noted in bit 20 of AER's status. -/
def State.unsupported (s : State) (fn : Option Nat) (off n : Nat) : State :=
  let x := s.pfn fn
  (s.setPfn fn { x with aerStat := x.aerStat ||| 0x100000#32 }).send (.unsupported fn off n)

/-- A write of a function's capabilities, after which vectors that were pending may be sent (R378). -/
def State.capWrite (s : State) (fn : Option Nat) (off : Nat) (v : Word) : State :=
  (s.setPfn fn ((s.pfn fn).write (vectors fn) off v)).sendPending fn

/-- Bytes of a block replaced from byte b on. -/
def blockPut (l : List Byte) (b : Nat) (v : Word) : List Byte :=
  let l1 := l ++ List.replicate (b + 8 - l.length) 0
  l1.take b ++ leBytes 8 v.toNat ++ l1.drop (b + 8)

/-- Eight bytes of a block, from byte b on. -/
def blockWord (l : List Byte) (b : Nat) : Word := leWord ((List.range 8).map fun i => l.getD (b + i) 0)

/-! ### The registers of the PF -/

/-- The 8-byte register of PF BAR0 at an offset that is a multiple of 8, once READY is 1. -/
def State.pfRead (s : State) (off : Nat) : Word :=
  if off = 0 then s.dstat
  else if off = 0x1000 then BitVec.ofNat 64 s.mg.pcap
  else if off = 0x1008 then BitVec.ofNat 64 s.mg.clkMHz
  else if off = 0x1010 then BitVec.ofNat 64 s.mg.thCount
  else if 0x10000 ≤ off && off < 0x12000 then (s.queue (regNo off 0x10000 / 16)).read (regNo off 0x10000 % 16)
  else if 0x12000 ≤ off && off < 0x12040 then tabWord s.mg.qassign (off - 0x12000)
  else if 0x20000 ≤ off && off < 0x20040 then tabWord s.mg.owners (off - 0x20000)
  else if 0x20100 ≤ off && off < 0x20500 then s.mg.grants.get (regNo off 0x20100) 0
  else if off = 0x20500 then BitVec.ofNat 64 s.mg.ageb
  else if 0x21000 ≤ off && off < 0x21080 then leWord ((List.range 8).map fun i => slotByte s.mg.slotsNew (off - 0x21000 + i))
  else if 0x30000 ≤ off && off < 0x33000 then
    vget (s.slice (regNo off 0x30000 / 16)).clsq (regNo off 0x30000 % 16) 0
  else if 0x38000 ≤ off && off < 0x3E000 then (s.slice (regNo off 0x38000 / 32)).counters (regNo off 0x38000 % 32)
  else if off = 0x40000 then s.mg.ptroot
  else if off = 0x40008 then s.mg.tinvBase
  else if off = 0x40010 then s.mg.tinvLen
  else if off = 0x40018 then if s.mg.tbusy then 1 else 0
  else if 0x41000 ≤ off && off < 0x41040 then s.mg.forced.get (regNo off 0x41000) 0
  else if off = 0x50000 then s.mg.dumpBase
  else if off = 0x50008 then BitVec.ofNat 64 s.mg.dumpHead
  else if off = 0x50010 then s.mg.preempt
  else if off = 0x50018 then s.mstat
  else if 0x60000 ≤ off && off < 0x62000 then blockWord s.trust.mbox (off - 0x60000)
  else if 0x80000 ≤ off && off < 0x84000 then (s.cl (regNo off 0x80000 / 32)).dbg.read (regNo off 0x80000 % 32)
  else if 0x100000 ≤ off && off < 0x110000 then blockWord s.trust.roster (off - 0x100000)
  else if off = 0x110000 then s.mg.cfence
  else 0

/-- The queues that a VF owns, in their order (R375). -/
def State.vfQueues (s : State) (vf : Nat) : List Nat := (List.range 64).filter fun q => s.ownerFn q == some vf

/-- The queue register that a VF reaches at an offset: none outside its queues. -/
def State.vfReg (s : State) (vf off : Nat) : Option (Nat × Nat) :=
  ((s.vfQueues vf)[off / 0x80]?).map fun q => (q, off % 0x80 / 8)

/-- What a function reads at an offset that is a multiple of 8 (R375): all ones before READY, but for DSTAT (R376), and at a
VF outside its queues. -/
def State.regRead (s : State) (fn : Option Nat) (off : Nat) : Word :=
  if !s.mg.ready && !(fn.isNone && decide (off = 0)) then 0xFFFFFFFFFFFFFFFF#64
  else match capOff fn off with
  | some o => (s.pfn fn).read (vectors fn) o
  | none => match fn with
  | none => s.pfRead off
  | some vf => match s.vfReg vf off with
    | some (q, r) => (s.queue q).read r
    | none => 0xFFFFFFFFFFFFFFFF#64

/-- How a read of n bytes within one register completes: with their value, or as Unsupported Request (R374). -/
def State.readAnswer (s : State) (fn : Option Nat) (off n : Nat) : Option Nat :=
  if s.supported fn off n then some ((s.regRead fn (off - off % 8)).toNat / 2 ^ (8 * (off % 8)) % 2 ^ (8 * n)) else none

/-- PCAP takes a value of 400 to 1800; which, where another is written, the manual does not say. -/
def State.capOf (s : State) (v : Word) : Nat :=
  if 400 ≤ v.toNat && v.toNat ≤ 1800 then v.toNat else 400 + (s.free 4801 0).toNat % 1401

/-- The value AGEB takes (R284). -/
def agebOf (v : Word) : Nat := max (2 ^ 16) (min (2 ^ 30) v.toNat)

/-- Bits of an IA grant's two words (R319, R375). -/
def grantWord (r : Nat) (v : Word) : Word := if r % 2 = 0 then v &&& 0xFFFFFFFFF#64 else v

/-- A debug register written; a place freed in the trace ring takes the record of those lost (R370). -/
def State.dbgWrite (s : State) (cl r : Nat) (v : Word) : State :=
  let c := s.cl cl
  let s1 := s.setCl cl { c with dbg := c.dbg.write r v }
  if r = 12 then s1.owlLost cl s1.refClock else s1


/-- The cluster bits that CFENCE takes: those that firmware set stay (R386). -/
def State.fenceWrite (s : State) (v : Word) : State := { s with mg := { s.mg with cfence := s.mg.cfenceFw ||| v } }

/-- The 8-byte register of PF BAR0 at an offset written; a read-only one is not (R375). -/
def State.pfWrite (s : State) (off : Nat) (v : Word) : Outcome :=
  let mg := s.mg
  if off = 0x1000 then .next { s with mg := { mg with pcap := s.capOf v } }
  else if 0x10000 ≤ off && off < 0x12000 then
    let q := regNo off 0x10000 / 16
    .next (s.setQueue q ((s.queue q).write (regNo off 0x10000 % 16) v))
  else if 0x12000 ≤ off && off < 0x12040 then
    .next { s with mg := { mg with qassign := tabBytes mg.qassign (off - 0x12000) 0x8F v } }
  else if 0x20000 ≤ off && off < 0x20040 then
    .next { s with mg := { mg with owners := tabBytes mg.owners (off - 0x20000) 0x8F v } }
  else if 0x20100 ≤ off && off < 0x20500 then
    .next { s with mg := { mg with grants := mg.grants.put (regNo off 0x20100) (grantWord (regNo off 0x20100) v) } }
  else if off = 0x20500 then .next { s with mg := { mg with ageb := agebOf v } }
  else if 0x21000 ≤ off && off < 0x21080 then
    .next { s with mg := { mg with slotsNew := slotPut mg.slotsNew (off - 0x21000) v } }
  else if 0x30000 ≤ off && off < 0x33000 then
    let x := s.slice (regNo off 0x30000 / 16)
    .next (s.setSlice (regNo off 0x30000 / 16) { x with
      clsq := vput x.clsq (regNo off 0x30000 % 16) (v &&& 0x1F1F1F1F#64) })
  else if off = 0x40000 then .next { s with mg := { mg with ptroot := v &&& 0x800001FFFFFFF000#64 } }
  else if off = 0x40008 then .next { s with mg := { mg with tinvBase := v &&& 0xFFFFFFFFF#64 } }
  else if off = 0x40010 then execTinv v s
  else if off = 0x50000 then .next { s with mg := { mg with dumpBase := v &&& 0x000FFFFFFFFF0000#64 } }
  else if off = 0x50010 then execPreempt v s
  else if 0x60000 ≤ off && off < 0x62000 then
    .next { s with trust := { s.trust with mbox := blockPut s.trust.mbox (off - 0x60000) v } }
  else if 0x80000 ≤ off && off < 0x84000 then .next (s.dbgWrite (regNo off 0x80000 / 32) (regNo off 0x80000 % 32) v)
  else if 0x100000 ≤ off && off < 0x110000 then
    .next { s with trust := { s.trust with roster := blockPut s.trust.roster (off - 0x100000) v } }
  else if off = 0x110000 then .next (s.fenceWrite v)
  else .next s

/-- Bytes of a register replaced by those of a write. -/
def mergeBytes (old : Word) (k n : Nat) (v : Word) : Word :=
  let o := leBytes 8 old.toNat
  leWord ((List.range 8).map fun i => if k ≤ i && i < k + n then (leBytes 8 v.toNat).getD (i - k) 0 else o.getD i 0)

/-- REGISTER_WRITE (R375): n bytes within one 8-byte register. One that the port does not support completes as Unsupported
Request (R374). A write before READY, one outside a VF's queues and one that spans registers are discarded. -/
def execRegisterWrite (fn : Option Nat) (off n : Nat) (v : Word) (s : State) : Outcome :=
  let k := off % 8
  if !s.supported fn off n then .next (s.unsupported fn off n)
  else if n = 0 || k + n > 8 || !s.mg.ready then .next s
  else
    let w := mergeBytes (s.regRead fn (off - k)) k n v
    match capOff fn (off - k) with
    | some o => .next (s.capWrite fn o w)
    | none => match fn with
      | none => s.pfWrite (off - k) w
      | some vf => match s.vfReg vf off with
        | none => .next s
        | some (q, r) => .next (s.setQueue q ((s.queue q).write r w))

/-- CFENCE_WRITE (R386). -/
def execCfenceWrite (v : Word) (s : State) : Outcome := if s.mg.ready then .next (s.fenceWrite v) else .next s

/-! ### Function-level reset (R377) -/

/-- A COPY in progress is cancelled: of its sectors each has been written or not. -/
def State.cancelQueueCopy (s : State) (q : Nat) : State :=
  match s.inFlight q 4 with
  | none => s
  | some c =>
    let w := fun (o : Nat) => BitVec.ofNat 64 (fld c.bytes o 8)
    let len := fld c.bytes 32 8
    (s.copyFrom q (w 16) (w 24) len (fun o => (s.free 4802 (o / 64)).getLsbD q) (len / 64 + 2) 0).1

/-- The gangs of some queues fail with code 0x1A. -/
def State.failGangsOf (s : State) (qs : List Nat) : State :=
  (s.gangs.filter fun x => qs.contains x.queue).foldl (fun t x => t.failGang x.id 0x1A 0) s

/-- A queue of a function that is reset: disabled, without interrupts, and a ring in host memory is not written. -/
def Queue.muted (q : Queue) : Queue :=
  { q.off with ctl := q.off.ctl &&& ~~~0x100#64, jbad := q.jbad || bit q.jbase 63 }

/-- FUNCTION_LEVEL_RESET (R377): what the copies of those queues have written before it stands; from then on no request
carries the function's requester ID. Its capabilities are reset with it (log 119). -/
def execFunctionLevelReset (vf : Nat) (s : State) : Outcome :=
  if !s.mg.ready then .next s
  else
    let qs := s.vfQueues vf
    let s1 := qs.foldl (fun t q => t.cancelQueueCopy q) s
    let s2 := qs.foldl (fun t q => t.setQueue q (t.queue q).muted) s1
    let s3 := s2.failGangsOf qs
    .next ((qs.foldl (fun t q => t.setQueue q Queue.init) s3).setPfn (some vf) PcieFn.init)

/-! ### Slot tables (R290) -/

/-- SLOT_TABLE_TURN (R290): a written table is in force from the next frame on. -/
def execSlotTableTurn (s : State) : Outcome :=
  if s.clock % 65536 = 0 then .next { s with mg := { s.mg with slots := s.mg.slotsNew } } else .next s

/-! ### Bring-up (R380) -/

/-- The module before READY, in a stage of bring-up: what survives the loss of power is the one-time index of R333, the
firmware, an update of which comes into force (R388), and the model's own counters. -/
def State.cold (s : State) (stage : Nat) : State := { State.reset with
  mg := { Mgmt.init with stage := stage, ready := false, nextGid := s.mg.nextGid }
  trust := { Trust.init with xmss := s.trust.xmss, fwm := s.trust.fwNext.orElse fun _ => s.trust.fwm }
  hostMem := s.hostMem, hostBad := s.hostBad, outbox := s.outbox, agenda := s.agenda, fresh := s.fresh, rnd := s.rnd }

/-- The state with PF vector 0 where READY, FAIL, THROT or LINKUP has changed (R378). -/
def State.statusMsg (s old : State) : State :=
  if s.mg.ready = old.mg.ready && s.mg.fail = old.mg.fail && s.mg.throt = old.mg.throt && s.linkUp = old.linkUp then s
  else s.pfMsg 0

/-- POWER_ON_RESET (R380): stage 1 begins. -/
def execPowerOnReset (s : State) : Outcome := .next (s.cold 1)

/-- POWER_LOSS (R333). -/
def execPowerLoss (s : State) : Outcome := .next (s.cold 0)

/-- The Dalter links that trained are up (R380, stage 4). -/
def trained (mask : BitVec 64) : Tab Link :=
  ((List.range 16).filter fun l => mask.getLsbD l).map fun l => (l, { Link.init with up := true })

/-- The end of a stage that did not fail, or of stage 4, where links that fail stay down. -/
def State.stageDone (s : State) (mask : BitVec 64) : State :=
  let mg := s.mg
  match mg.stage with
  | 4 => { s with mg := { mg with stage := 5 }, trust := { s.trust with links := trained mask } }
  | 5 => { s with mg := { mg with stage := 6, cfence := mask, cfenceFw := mask } }
  | 6 => { s.cold 7 with
      mg := { Mgmt.init with cfence := mg.cfenceFw, cfenceFw := mg.cfenceFw, nextGid := mg.nextGid, pcie := mg.pcie }
      trust := { Trust.init with xmss := s.trust.xmss, links := s.trust.links, fwm := s.trust.fwm, fwNext := s.trust.fwNext } }
  | k => { s with mg := { mg with stage := k + 1 } }

/-- BRINGUP_STAGE_DONE (R380). -/
def execBringupStageDone (ok : Bool) (mask : BitVec 64) (s : State) : Outcome :=
  if s.mg.ready || s.mg.fail || s.mg.stage = 0 || s.mg.stage > 6 then .next s
  else if ok || s.mg.stage = 4 then .next ((s.stageDone (if ok then mask else 0)).statusMsg s)
  else .next (({ s with mg := { s.mg with fail := true } } : State).statusMsg s)

/-! ### Power (R387) -/

/-- The clock set, in MHz. -/
def State.setClock (s : State) (f : Nat) : State :=
  ({ s with mg := { s.mg with clkMHz := f, throt := decide (f < 1600) } } : State).statusMsg s

/-- THROTTLE (R387). -/
def execThrottle (s : State) : Outcome :=
  if s.mg.ready && decide (s.mg.clkMHz > 800) then .next (s.setClock (s.mg.clkMHz - 100)) else .next s

/-- THROTTLE_RELEASE (R387). -/
def execThrottleRelease (s : State) : Outcome :=
  if s.mg.ready && decide (s.mg.clkMHz < 1600) then .next (s.setClock (s.mg.clkMHz + 100)) else .next s

/-- THERMAL_TRIP (R387): the module halts; no journal entry is written. -/
def execThermalTrip (s : State) : Outcome :=
  .next (({ s with mg := { s.mg with stage := 8, fail := true, ready := false } } : State).statusMsg s)

end Sys2Proof.Machine
end

