-- ==== Sys2Proof/Machine/Dispatch.lean ====
section
/-! DEFINITION. One arm for each row of the opcode table, each one call of the meaning of its instruction. -/

namespace Sys2Proof.Machine
open Sys2Proof

/-- The meaning of an instruction. -/
def exec (i : Instr) (s : State) : Host.Outcome State Fault Refusal :=
  match i with
  | .bundleIssue core => Sys2Proof.Machine.execBundleIssue core s
  | .fatalStop g => Sys2Proof.Machine.execFatalStop g s
  | .resultLand g k => Sys2Proof.Machine.execResultLand g k s
  | .branchResolve g => Sys2Proof.Machine.execBranchResolve g s
  | .armStallTimeout g => Sys2Proof.Machine.execArmStallTimeout g s
  | .commitBufferRelease core => Sys2Proof.Machine.execCommitBufferRelease core s
  | .leaseGrant cl => Sys2Proof.Machine.execLeaseGrant cl s
  | .leaseRunLimit cl => Sys2Proof.Machine.execLeaseRunLimit cl s
  | .leaseIdlePass cl => Sys2Proof.Machine.execLeaseIdlePass cl s
  | .tdtDispatch core k => Sys2Proof.Machine.execTdtDispatch core k s
  | .engineCommandComplete cl vec => Sys2Proof.Machine.execEngineCommandComplete cl vec s
  | .copyStart core k => Sys2Proof.Machine.execCopyStart core k s
  | .copyComplete core k => Sys2Proof.Machine.execCopyComplete core k s
  | .collComplete seq remote => Sys2Proof.Machine.execCollComplete seq remote s
  | .ifillComplete core => Sys2Proof.Machine.execIfillComplete core s
  | .sliceLineFill slice k => Sys2Proof.Machine.execSliceLineFill slice k s
  | .writeTransaction core k => Sys2Proof.Machine.execWriteTransaction core k s
  | .mwaitTimeout g => Sys2Proof.Machine.execMwaitTimeout g s
  | .mwaitSpuriousWake g => Sys2Proof.Machine.execMwaitSpuriousWake g s
  | .ldfPerform g k => Sys2Proof.Machine.execLdfPerform g k s
  | .futureAnswer g k => Sys2Proof.Machine.execFutureAnswer g k s
  | .fwaitBackoffExpire g => Sys2Proof.Machine.execFwaitBackoffExpire g s
  | .qntFlushFull cl k => Sys2Proof.Machine.execQntFlushFull cl k s
  | .qntFlushTimeout cl k => Sys2Proof.Machine.execQntFlushTimeout cl k s
  | .badgerMsgArrive slice => Sys2Proof.Machine.execBadgerMsgArrive slice s
  | .badgerHandlerStart slice => Sys2Proof.Machine.execBadgerHandlerStart slice s
  | .badgerPfetch slice ia => Sys2Proof.Machine.execBadgerPfetch slice ia s
  | .badgerRdata slice addr => Sys2Proof.Machine.execBadgerRdata slice addr s
  | .badgerWdata slice addr val => Sys2Proof.Machine.execBadgerWdata slice addr val s
  | .badgerDone slice reply => Sys2Proof.Machine.execBadgerDone slice reply s
  | .badgerBudgetExpire slice => Sys2Proof.Machine.execBadgerBudgetExpire slice s
  | .badgerAbort slice => Sys2Proof.Machine.execBadgerAbort slice s
  | .hbmRefresh ctrl bank => Sys2Proof.Machine.execHbmRefresh ctrl bank s
  | .hbmForcedRefresh ctrl bank clocks => Sys2Proof.Machine.execHbmForcedRefresh ctrl bank clocks s
  | .eccUncorrectable ia inMemory => Sys2Proof.Machine.execEccUncorrectable ia inMemory s
  | .tinv len => Sys2Proof.Machine.execTinv len s
  | .tinvComplete => Sys2Proof.Machine.execTinvComplete s
  | .qtailDoorbell q v => Sys2Proof.Machine.execQtailDoorbell q v s
  | .queueEntryRead die => Sys2Proof.Machine.execQueueEntryRead die s
  | .launch q => Sys2Proof.Machine.execLaunch q s
  | .wait q => Sys2Proof.Machine.execWait q s
  | .waitRetire q => Sys2Proof.Machine.execWaitRetire q s
  | .signal q => Sys2Proof.Machine.execSignal q s
  | .copy q => Sys2Proof.Machine.execCopy q s
  | .copyCommandComplete q => Sys2Proof.Machine.execCopyCommandComplete q s
  | .mark q => Sys2Proof.Machine.execMark q s
  | .launchReserving gid => Sys2Proof.Machine.execLaunchReserving gid s
  | .gangPlace gid => Sys2Proof.Machine.execGangPlace gid s
  | .gangRetire gid => Sys2Proof.Machine.execGangRetire gid s
  | .preempt ia => Sys2Proof.Machine.execPreempt ia s
  | .contextDrain g => Sys2Proof.Machine.execContextDrain g s
  | .crewSave gid j => Sys2Proof.Machine.execCrewSave gid j s
  | .gangRestore gid => Sys2Proof.Machine.execGangRestore gid s
  | .functionLevelReset vf => Sys2Proof.Machine.execFunctionLevelReset vf s
  | .slotTableTurn => Sys2Proof.Machine.execSlotTableTurn s
  | .cntSample cl n => Sys2Proof.Machine.execCntSample cl n s
  | .sampleBreakdown cl n total stages => Sys2Proof.Machine.execSampleBreakdown cl n total stages s
  | .powerOnReset => Sys2Proof.Machine.execPowerOnReset s
  | .bringupStageDone ok mask => Sys2Proof.Machine.execBringupStageDone ok mask s
  | .throttle => Sys2Proof.Machine.execThrottle s
  | .throttleRelease => Sys2Proof.Machine.execThrottleRelease s
  | .thermalTrip => Sys2Proof.Machine.execThermalTrip s
  | .flitReceive link flit => Sys2Proof.Machine.execFlitReceive link flit s
  | .linkRetrain link => Sys2Proof.Machine.execLinkRetrain link s
  | .linkRetrainDone link ok => Sys2Proof.Machine.execLinkRetrainDone link ok s
  | .form partners => Sys2Proof.Machine.execForm partners s
  | .keyNonceRequest nonce => Sys2Proof.Machine.execKeyNonceRequest nonce s
  | .keyDelivery block => Sys2Proof.Machine.execKeyDelivery block s
  | .evidenceRequest w nonce answers => Sys2Proof.Machine.execEvidenceRequest w nonce answers s
  | .evidenceTimeout member => Sys2Proof.Machine.execEvidenceTimeout member s
  | .worldRelease w => Sys2Proof.Machine.execWorldRelease w s
  | .cfenceWrite v => Sys2Proof.Machine.execCfenceWrite v s
  | .sidebandMessage msg => Sys2Proof.Machine.execSidebandMessage msg s
  | .registerWrite fn off size v => Sys2Proof.Machine.execRegisterWrite fn off size v s
  | .uncorrectableHardwareError core => Sys2Proof.Machine.execUncorrectableHardwareError core s
  | .powerLoss => Sys2Proof.Machine.execPowerLoss s
  | .nop stop gn gp hint bimm => Sys2Proof.Machine.execNop stop gn gp hint bimm s
  | .pt bt off => Sys2Proof.Machine.execPt bt off s
  | .ptr bt a => Sys2Proof.Machine.execPtr bt a s
  | .br bt arm neg p => Sys2Proof.Machine.execBr bt arm neg p s
  | .call bt => Sys2Proof.Machine.execCall bt s
  | .callt a sig => Sys2Proof.Machine.execCallt a sig s
  | .ret => Sys2Proof.Machine.execRet s
  | .loop len depth => Sys2Proof.Machine.execLoop len depth s
  | .bswap bt => Sys2Proof.Machine.execBswap bt s
  | .ifence => Sys2Proof.Machine.execIfence s
  | .trap code => Sys2Proof.Machine.execTrap code s
  | .resume => Sys2Proof.Machine.execResume s
  | .yield => Sys2Proof.Machine.execYield s
  | .exit => Sys2Proof.Machine.execExit s
  | .add d a b t => Sys2Proof.Machine.execAdd d a b t s
  | .sub d a b t => Sys2Proof.Machine.execSub d a b t s
  | .mul d a b t => Sys2Proof.Machine.execMul d a b t s
  | .mulh d a b t => Sys2Proof.Machine.execMulh d a b t s
  | .div d a b t => Sys2Proof.Machine.execDiv d a b t s
  | .rem d a b t => Sys2Proof.Machine.execRem d a b t s
  | .and d a b t => Sys2Proof.Machine.execAnd d a b t s
  | .or d a b t => Sys2Proof.Machine.execOr d a b t s
  | .xor d a b t => Sys2Proof.Machine.execXor d a b t s
  | .andn d a b t => Sys2Proof.Machine.execAndn d a b t s
  | .shl d a b t => Sys2Proof.Machine.execShl d a b t s
  | .shr d a b t => Sys2Proof.Machine.execShr d a b t s
  | .sar d a b t => Sys2Proof.Machine.execSar d a b t s
  | .min d a b t => Sys2Proof.Machine.execMin d a b t s
  | .max d a b t => Sys2Proof.Machine.execMax d a b t s
  | .sel d a b p => Sys2Proof.Machine.execSel d a b p s
  | .clz d a t => Sys2Proof.Machine.execClz d a t s
  | .popc d a t => Sys2Proof.Machine.execPopc d a t s
  | .ext d a len1 pos => Sys2Proof.Machine.execExt d a len1 pos s
  | .ins d a len1 pos => Sys2Proof.Machine.execIns d a len1 pos s
  | .mov d b t => Sys2Proof.Machine.execMov d b t s
  | .movh d a imm => Sys2Proof.Machine.execMovh d a imm s
  | .lea d a b sp sh => Sys2Proof.Machine.execLea d a b sp sh s
  | .cmp d a b t c => Sys2Proof.Machine.execCmp d a b t c s
  | .pand d a b => Sys2Proof.Machine.execPand d a b s
  | .por d a b => Sys2Proof.Machine.execPor d a b s
  | .pxor d a b => Sys2Proof.Machine.execPxor d a b s
  | .pnot d a => Sys2Proof.Machine.execPnot d a s
  | .pmov d a => Sys2Proof.Machine.execPmov d a s
  | .pany d a => Sys2Proof.Machine.execPany d a s
  | .pall d a => Sys2Proof.Machine.execPall d a s
  | .ppack d a => Sys2Proof.Machine.execPpack d a s
  | .addRi d a imm => Sys2Proof.Machine.execAddRi d a imm s
  | .andRi d a imm => Sys2Proof.Machine.execAndRi d a imm s
  | .orRi d a imm => Sys2Proof.Machine.execOrRi d a imm s
  | .xorRi d a imm => Sys2Proof.Machine.execXorRi d a imm s
  | .shlRi d a cnt => Sys2Proof.Machine.execShlRi d a cnt s
  | .shrRi d a cnt => Sys2Proof.Machine.execShrRi d a cnt s
  | .sarRi d a cnt => Sys2Proof.Machine.execSarRi d a cnt s
  | .punpk d a => Sys2Proof.Machine.execPunpk d a s
  | .mfc d r => Sys2Proof.Machine.execMfc d r s
  | .mtc a r => Sys2Proof.Machine.execMtc a r s
  | .icvt d a dt st => Sys2Proof.Machine.execIcvt d a dt st s
  | .winset d a b part => Sys2Proof.Machine.execWinset d a b part s
  | .ldI8 d a off o => Sys2Proof.Machine.execLdI8 d a off o s
  | .ldI16 d a off o => Sys2Proof.Machine.execLdI16 d a off o s
  | .ldI32 d a off o => Sys2Proof.Machine.execLdI32 d a off o s
  | .ldI64 d a off o => Sys2Proof.Machine.execLdI64 d a off o s
  | .ldN8 d a off o => Sys2Proof.Machine.execLdN8 d a off o s
  | .ldN16 d a off o => Sys2Proof.Machine.execLdN16 d a off o s
  | .ldN32 d a off o => Sys2Proof.Machine.execLdN32 d a off o s
  | .ldvec d a off o => Sys2Proof.Machine.execLdvec d a off o s
  | .ldv d a off o => Sys2Proof.Machine.execLdv d a off o s
  | .ldf d a off => Sys2Proof.Machine.execLdf d a off s
  | .vget d a off => Sys2Proof.Machine.execVget d a off s
  | .probe d a off => Sys2Proof.Machine.execProbe d a off s
  | .pft d a off => Sys2Proof.Machine.execPft d a off s
  | .mwait d a off => Sys2Proof.Machine.execMwait d a off s
  | .st8 d a off o => Sys2Proof.Machine.execSt8 d a off o s
  | .st16 d a off o => Sys2Proof.Machine.execSt16 d a off o s
  | .st32 d a off o => Sys2Proof.Machine.execSt32 d a off o s
  | .st64 d a off o => Sys2Proof.Machine.execSt64 d a off o s
  | .stvec d a off o => Sys2Proof.Machine.execStvec d a off o s
  | .stf d a off => Sys2Proof.Machine.execStf d a off s
  | .casv d a off o => Sys2Proof.Machine.execCasv d a off o s
  | .rel d a off => Sys2Proof.Machine.execRel d a off s
  | .atomAdd d a off o => Sys2Proof.Machine.execAtomAdd d a off o s
  | .atomMin d a off o => Sys2Proof.Machine.execAtomMin d a off o s
  | .atomMax d a off o => Sys2Proof.Machine.execAtomMax d a off o s
  | .atomAnd d a off o => Sys2Proof.Machine.execAtomAnd d a off o s
  | .atomOr d a off o => Sys2Proof.Machine.execAtomOr d a off o s
  | .atomXor d a off o => Sys2Proof.Machine.execAtomXor d a off o s
  | .atomXchg d a off o => Sys2Proof.Machine.execAtomXchg d a off o s
  | .atomCas d a off o => Sys2Proof.Machine.execAtomCas d a off o s
  | .atomAddI32 d a off o => Sys2Proof.Machine.execAtomAddI32 d a off o s
  | .atomMinI32 d a off o => Sys2Proof.Machine.execAtomMinI32 d a off o s
  | .atomMaxI32 d a off o => Sys2Proof.Machine.execAtomMaxI32 d a off o s
  | .atomAndI32 d a off o => Sys2Proof.Machine.execAtomAndI32 d a off o s
  | .atomOrI32 d a off o => Sys2Proof.Machine.execAtomOrI32 d a off o s
  | .atomXorI32 d a off o => Sys2Proof.Machine.execAtomXorI32 d a off o s
  | .atomXchgI32 d a off o => Sys2Proof.Machine.execAtomXchgI32 d a off o s
  | .atomCasI32 d a off o => Sys2Proof.Machine.execAtomCasI32 d a off o s
  | .fence sc => Sys2Proof.Machine.execFence sc s
  | .valset d => Sys2Proof.Machine.execValset d s
  | .vclr => Sys2Proof.Machine.execVclr s
  | .fadd d a b t m => Sys2Proof.Machine.execFadd d a b t m s
  | .fsub d a b t m => Sys2Proof.Machine.execFsub d a b t m s
  | .fmul d a b t m => Sys2Proof.Machine.execFmul d a b t m s
  | .ffma d a b t m => Sys2Proof.Machine.execFfma d a b t m s
  | .fmin d a b t => Sys2Proof.Machine.execFmin d a b t s
  | .fmax d a b t => Sys2Proof.Machine.execFmax d a b t s
  | .fsgn d a b t g => Sys2Proof.Machine.execFsgn d a b t g s
  | .fcmp d a b t c => Sys2Proof.Machine.execFcmp d a b t c s
  | .frcp d a m => Sys2Proof.Machine.execFrcp d a m s
  | .frsq d a m => Sys2Proof.Machine.execFrsq d a m s
  | .fexp2 d a m => Sys2Proof.Machine.execFexp2 d a m s
  | .flog2 d a m => Sys2Proof.Machine.execFlog2 d a m s
  | .fcvt d a srnd st dt m => Sys2Proof.Machine.execFcvt d a srnd st dt m s
  | .fcvti d a it t m => Sys2Proof.Machine.execFcvti d a it t m s
  | .icvtf d a it t m => Sys2Proof.Machine.execIcvtf d a it t m s
  | .vadd d a b t m => Sys2Proof.Machine.execVadd d a b t m s
  | .vmul d a b t m => Sys2Proof.Machine.execVmul d a b t m s
  | .vand d a b => Sys2Proof.Machine.execVand d a b s
  | .vor d a b => Sys2Proof.Machine.execVor d a b s
  | .vshf d a b => Sys2Proof.Machine.execVshf d a b s
  | .vbcast d a => Sys2Proof.Machine.execVbcast d a s
  | .vredadd d a t m => Sys2Proof.Machine.execVredadd d a t m s
  | .vredmax d a t => Sys2Proof.Machine.execVredmax d a t s
  | .vsel d a b p => Sys2Proof.Machine.execVsel d a b p s
  | .vpack d a b t m => Sys2Proof.Machine.execVpack d a b t m s
  | .vunpk d a t k => Sys2Proof.Machine.execVunpk d a t k s
  | .vlane d a b => Sys2Proof.Machine.execVlane d a b s
  | .vins d a b => Sys2Proof.Machine.execVins d a b s
  | .vfma d a b t m => Sys2Proof.Machine.execVfma d a b t m s
  | .erw e a b n => Sys2Proof.Machine.execErw e a b n s
  | .erd e a n => Sys2Proof.Machine.execErd e a n s
  | .mlease => Sys2Proof.Machine.execMlease s
  | .mfree => Sys2Proof.Machine.execMfree s
  | .mma x y => Sys2Proof.Machine.execMma x y s
  | .mmas x y => Sys2Proof.Machine.execMmas x y s
  | .mgath t => Sys2Proof.Machine.execMgath t s
  | .accrd t => Sys2Proof.Machine.execAccrd t s
  | .accwr t => Sys2Proof.Machine.execAccwr t s
  | .accz => Sys2Proof.Machine.execAccz s
  | .vecop o => Sys2Proof.Machine.execVecop o s
  | .cpy => Sys2Proof.Machine.execCpy s
  | .cpyd => Sys2Proof.Machine.execCpyd s
  | .ifill => Sys2Proof.Machine.execIfill s
  | .coll t o => Sys2Proof.Machine.execColl t o s
  | .tlwait e a b => Sys2Proof.Machine.execTlwait e a b s
  | .tlread e a => Sys2Proof.Machine.execTlread e a s
  | .phreg a => Sys2Proof.Machine.execPhreg a s
  | .phdrop a => Sys2Proof.Machine.execPhdrop a s
  | .phsig a => Sys2Proof.Machine.execPhsig a s
  | .phwait a b => Sys2Proof.Machine.execPhwait a b s
  | .phsw a => Sys2Proof.Machine.execPhsw a s
  | .bind a b => Sys2Proof.Machine.execBind a b s
  | .unbind a b => Sys2Proof.Machine.execUnbind a b s
  | .tkget a => Sys2Proof.Machine.execTkget a s
  | .tkdone => Sys2Proof.Machine.execTkdone s
  | .fwait a => Sys2Proof.Machine.execFwait a s
  | .bmsg => Sys2Proof.Machine.execBmsg s
  | .cbsync a b => Sys2Proof.Machine.execCbsync a b s
  | .qld q a imm => Sys2Proof.Machine.execQld q a imm s
  | .qmov q a => Sys2Proof.Machine.execQmov q a s
  | .qset q c => Sys2Proof.Machine.execQset q c s
  | .fmtset f a => Sys2Proof.Machine.execFmtset f a s

end Sys2Proof.Machine
end

