-- ==== Sys2Proof/Machine/Retry.lean ====
section
/-! DEFINITION. What follows every step: the operations that wait in the memory queues and at the slices, and that can be
performed now, are (R206, R224, R254, R264, R313, R323). -/

namespace Sys2Proof.Machine
open Sys2Proof

/-! ### Commands of the X slot -/

/-- An engine command of the table as command n, by its own rule. -/
def State.runSubmit (s : State) (c : Cmd) (n : Word) : State :=
  match c.instr with
  | .mfree => s.runMfree c n
  | .mgath _ => s.runMgath c n
  | .cpy | .cpyd => s.runCopy c n
  | .coll _ _ => s.runColl c n
  | _ => s.enter { c with n := n }

/-- Does such a command wait: for the write-back of its device source (R245, R323), or for an earlier IFILL of its core? -/
def State.submitWaits (s : State) (c : Cmd) : Bool :=
  match c.instr with
  | .cpy | .cpyd => s.spansWait c.g (s.copySpans c false)
  | .coll _ _ => s.spansWait c.g (s.collSpans c c.collIns)
  | .ifill => s.fillWaits c
  | _ => false

/-- Does a command of the memory queue of context g wait by itself? -/
def State.syncWaits (s : State) (g : Nat) (c : SyncCmd) : Bool :=
  match c with
  | .submit x => s.submitWaits x
  | .bmsg x => s.bmsgWaits x
  | .phreg cl off => s.phFull (s.ctx g).regs cl off
  | .tkdone => s.tkdoneWaits g
  | .phdrop _ _ | .phsig _ _ | .phwait _ _ | .tkget _ | .done | .tlwait | .cbsync _ => false

/-- Command n of engine e of context g performed, its issue a release of the timeline counter (R264), which a CBSYNC and a
TLWAIT are not; and what it writes. -/
def State.runSync (s : State) (g e : Nat) (n : Word) (c : SyncCmd) : State × List Wr :=
  let s1 := match c with
    | .cbsync _ | .tlwait => s
    | .submit _ | .bmsg _ | .phreg _ _ | .phdrop _ _ | .phsig _ _ | .phwait _ _ | .tkget _ | .tkdone | .done =>
      s.release g (.timeline e)
  match c with
  | .submit x => (s1.runSubmit x n, [])
  | .bmsg x => (s1.runBmsg x n, [])
  | .phreg cl off => (s1.runPhreg g n cl off, [])
  | .phdrop cl off => (s1.runPhdrop g n cl off, [])
  | .phsig cl off => (s1.runPhsig g n cl off, [])
  | .phwait cl off => (s1.runPhwait g n cl off, [])
  | .tkget d =>
    let r := s1.takeTask g
    (r.1.complete g e n, [wrN d r.2])
  | .tkdone => (s1.runTkdone g n, [])
  | .done => (s1.complete g e n, [])
  | .tlwait => (s1.runTlwait g e n, [])
  | .cbsync spans => (s1.runCbsync g spans, [])

/-! ### The memory queue -/

/-- Must an operation of a memory queue still wait? -/
def State.stillHeld (s : State) (g : Nat) (earlier : List MemOp) (m : MemOp) : Bool :=
  s.mustHold g earlier m || (match m.kind with
    | .sync _ _ c => s.syncWaits g c
    | .load _ | .store _ | .ldv | .vget | .casv | .atom _ _ | .stf | .rel | .probe | .fence _ | .callt => false)

/-- An operation of the memory queue performed: the state, its results, and the pair of an LDV. -/
def State.performHeld (s : State) (g : Nat) (m : MemOp) : State × List Wr × Option VPair :=
  match m.kind, m.place with
  | .sync e n c, _ =>
    let r := s.runSync g e n c
    (r.1, r.2, none)
  | .callt, .home ia w _ =>
    let r := s.calltRead g ia w
    (r.1.setCtx g ((r.1.ctx g).calltGot m.step r.2), [], none)
  | _, _ => s.perform g m

/-- The entry of an operation that has been performed: what it has still to write; one without a result has landed, but
for the read of a CALLT, whose entry arrives when it lands (R149). -/
def Op.performed (o : Op) (m : MemOp) (wr : List Wr) (ldv : Option VPair) : Op :=
  { o with
    mem := none, wr := wr.filter fun w => !o.sup.contains w.reg, ldv := ldv, away := m.away
    landed := m.dests.isEmpty && decide (m.kind ≠ .callt) }

/-- The context with the bindings that apply to an operation (R305). -/
def State.bindsFor (s : State) (g : Nat) (bs : List (Option Bind)) : State := s.setCtx g { s.ctx g with binds := bs }

/-- Is an operation a TKGET? It lands as it is performed, and completes (R178). -/
def MemOp.isTkget (m : MemOp) : Bool :=
  match m.kind with
  | .sync _ _ (.tkget _) => true
  | _ => false

/-- The i-th operation of a context, where it waits and can be performed now, is performed: as its bindings were at its
issue. -/
def State.retryMem (s : State) (g i : Nat) : State :=
  let pend := (s.ctx g).pend
  match pend[i]? with
  | none => s
  | some o => match o.mem with
    | none => s
    | some m =>
      let t := s.bindsFor g m.binds
      if t.stillHeld g (heldIn (pend.take i)) m then s
      else
        let r := { t with iss := { s.iss with slot := 10000 + (m.step * 1024 + g) * 8 + m.slot } }.performHeld g m
        let c := r.1.ctx g
        let s1 := { r.1.setCtx g { c with binds := (s.ctx g).binds, pend := c.pend.set i (o.performed m r.2.1 r.2.2) } with
          iss := s.iss }
        if m.isTkget then s1.landOne g i else s1

/-- The waiting operations of a context that can be performed now, in issue order; then the end of a context that has
exited and has none left (R156, R286, R354). -/
def State.retryCtx (s : State) (g : Nat) : State :=
  let s1 := if (heldIn (s.ctx g).pend).isEmpty then s
    else (List.range (s.ctx g).pend.length).foldl (fun t i => t.retryMem g i) s
  if (s1.ctx g).ending then s1.endNow g else s1

/-- Everything that waits for a slice or the memory side and can be performed now (R206, R323). -/
def State.retry (s : State) : State := (s.ctxs.map (·.1)).foldl (fun t g => t.retryCtx g) s.retryAll

end Sys2Proof.Machine
end

