-- ==== Sys2Proof/Machine/Run.lean ====
section
/-! DEFINITION. What a step does around `exec` (log 3): which event comes next, the syllables that an issued bundle holds
(R13, log 18), the clocks (R4), and the word placed where the next step fetches it (log 2). -/

namespace Sys2Proof.Machine
open Sys2Proof

/-! ### Events that are due -/

/-- The first unfinished operation of a context that may land, by its place among the unfinished ones. -/
def Ctx.landNext (c : Ctx) : Option Nat := (c.pend.filter fun o => !o.landed).findIdx? fun o => o.mem.isNone

/-- Events due at a context. -/
def dueAtCtx (s : State) (g : Nat) (c : Ctx) : List Instr :=
  ((c.landNext.map fun k => Instr.resultLand g k).toList) ++
    (match c.xfer with
      | some x => if x.kind = .br && decide (x.left = 0) && c.brDone x then [.branchResolve g] else []
      | none => []) ++
    (c.ldfs.zipIdx.filterMap fun p => match p.1.at_ with
      | .sent => some (.ldfPerform g p.2)
      | .answering => some (.futureAnswer g p.2)
      | .deferred | .answered => none) ++
    (match c.monitor with
      | some m => if m.limit ≠ 0 && !m.woken && decide (s.clock ≥ m.since + m.limit) then [.mwaitTimeout g] else []
      | none => []) ++
    (match c.backoff with
      | some t => if s.clock ≥ t && c.status = .waiting then [.fwaitBackoffExpire g] else []
      | none => []) ++
    (if (c.status = .ready || c.status = .waiting) && s.mustDivert g then [.contextDrain g] else []) ++
    (if c.status = .fatal then [.fatalStop g] else [])

/-- Events due at a core. -/
def dueAtCore (k : Nat) (c : Core) : List Instr :=
  (if c.cbuf.any (·.released) then [.commitBufferRelease k] else []) ++
    (c.tdt.zipIdx.map fun p =>
      if p.1.cmd.eng = 3 then if p.1.started then .copyComplete k p.2 else .copyStart k p.2
      else if p.1.cmd.eng = 9 then .ifillComplete k
      else .tdtDispatch k p.2)

/-- Events due at a cluster. -/
def dueAtCluster (s : State) (k : Nat) (c : Cluster) : List Instr :=
  (match c.holder with
    | some _ => [.leaseRunLimit k, .leaseIdlePass k]
    | none => if c.reqs.isEmpty then [] else [.leaseGrant k]) ++
    (if c.mq.isEmpty then [] else [.engineCommandComplete k false]) ++
    (if c.vq.isEmpty then [] else [.engineCommandComplete k true]) ++
    (c.comb.zipIdx.filterMap fun p =>
      if p.1.count ≥ 64 then some (.qntFlushFull k p.2)
      else if s.clock ≥ p.1.since + 4096 then some (.qntFlushTimeout k p.2) else none) ++
    (match c.dbg.hits with
      | [] => []
      | h :: _ => [.cntSample k h.cnt])

/-- Events due at a slice. -/
def dueAtSlice (k : Nat) (x : Slice) : List Instr :=
  (if x.fills.isEmpty then [] else [.sliceLineFill k 0]) ++ (if x.coming.isEmpty then [] else [.badgerMsgArrive k]) ++
    (match x.handler with
      | some h => (h.event k).toList ++ [.badgerBudgetExpire k]
      | none => if x.events.isEmpty then [] else [.badgerHandlerStart k])

/-- The event of a queue's command, by its OP and whether it has started. -/
def dueOfCmd (q : Nat) (c : QCmd) : List Instr :=
  match c.op, c.started with
  | 1, false => [.launch q]
  | 2, false => [.wait q]
  | 2, true => [.waitRetire q]
  | 3, false => [.signal q]
  | 3, true => [.signal q]
  | 4, false => [.copy q]
  | 4, true => [.copyCommandComplete q]
  | 5, false => [.mark q]
  | _, _ => []

/-- Events due at a gang. -/
def dueAtGang (x : Gang) : List Instr :=
  match x.phase with
  | .waiting => [.launchReserving x.id, .gangPlace x.id]
  | .running => [.gangRetire x.id]
  | .draining => (List.range x.rec_.crews).map fun j => .crewSave x.id j
  | .saved => [.launchReserving x.id, .gangRestore x.id]
  | .over => []

/-- Every event that may be due inside the module; one whose condition does not hold changes nothing. -/
def State.due (s : State) : List Instr :=
  s.ctxs.flatMap (fun e => dueAtCtx s e.1 e.2) ++ s.cores.flatMap (fun e => dueAtCore e.1 e.2) ++
    s.clusters.flatMap (fun e => dueAtCluster s e.1 e.2) ++ s.slices.flatMap (fun e => dueAtSlice e.1 e.2) ++
    s.mg.queues.flatMap (fun e => (if e.2.accepts then [.queueEntryRead (e.1 / 32)] else []) ++ e.2.cmds.flatMap (dueOfCmd e.1)) ++
    s.gangs.flatMap dueAtGang ++ (s.trust.links.filterMap fun e => if e.2.up && e.2.stopped && !e.2.training then some (.linkRetrain e.1) else none) ++
    ((s.colls.map (·.seq)).eraseDups.map fun q => .collComplete q []) ++
    (if s.mg.tbusy then [.tinvComplete] else [])

/-- Cores with a context that may be presented. -/
def State.issuers (s : State) : List Nat :=
  ((s.ctxs.filter fun e => s.presentable e.1).map fun e => coreOf e.1).eraseDups

/-- The core that issues next, in turn. -/
def nextCore (turn : Nat) (cs : List Nat) : Nat :=
  match cs.find? fun k => decide (turn ≤ k) with
  | some k => k
  | none => cs.headD 0

/-- The event of the next step (log 3): what the outside has put on the agenda; else events due inside and bundles
alternate. -/
def State.nextEvent (s : State) : Instr × State :=
  match s.agenda with
  | i :: r => (i, { s with agenda := r })
  | [] =>
    let ds := s.due
    let cs := s.issuers
    if !ds.isEmpty && (s.fresh % 2 == 1 || cs.isEmpty) then (ds.getD (s.fresh / 2 % ds.length) (.bundleIssue 0), s)
    else
      let k := nextCore s.turn cs
      (.bundleIssue k, { s with turn := k + 1 })

/-! ### The syllables of a step -/

/-- The syllables latched, executed in turn, and what follows the last one: at most n of them. -/
def runItems : Nat → State → Outcome
  | 0, s => .next s.finish
  | n + 1, s =>
    match s.beginItem 200 with
    | none => .next s.finish
    | some (i, s1) =>
      match exec i s1 with
      | .next s2 => runItems n (s2.endItem i)
      | .fault f => .fault f
      | .refused r => .refused r

/-- The most syllables a step executes: a bundle's, or RESUME and 64 records. -/
def itemFuel : Nat := 128

/-- An event, and the syllables of the bundle that it issues. -/
def runEvent (i : Instr) (s : State) : Outcome :=
  match exec i s with
  | .next s1 => runItems itemFuel s1
  | .fault f => .fault f
  | .refused r => .refused r

/-! ### Clocks -/

/-- Parts of a reference clock in one arithmetic clock of that many MHz, 720720 to a reference clock of 1.6 GHz: a whole
number for every ratio of R387 (R4, log 19). -/
def refParts (mhz : Nat) : Nat := 16 * 720720 / (mhz / 100)

/-- The clocks after a step; a write of the slot tables takes effect first thing in the next frame (R290). -/
def State.tick (s : State) : State :=
  let parts := s.refPart + refParts s.mg.clkMHz
  { s with
    fresh := s.fresh + 1, clock := s.clock + 1, refClock := s.refClock + parts / 720720, refPart := parts % 720720
    agenda := if (s.clock + 1) % 65536 = 0 then .slotTableTurn :: s.agenda else s.agenda
    mg := { s.mg with thCount := if s.mg.clkMHz < 1600 then s.mg.thCount + 1 else s.mg.thCount } }

/-- An outcome with what waited and can be performed now performed, an instruction of each badger core executed, and the
clocks moved on. -/
def ticked : Outcome → Outcome
  | .next s => .next s.retry.badgerSteps.tick
  | .fault f => .fault f
  | .refused r => .refused r

/-- May an event act? A module that has failed or halted answers the sideband and reset only (R380, R387); one without
power waits for power. -/
def State.allowed (s : State) (i : Instr) : Bool :=
  match i with
  | .powerOnReset | .powerLoss => true
  | .sidebandMessage _ => decide (s.mg.stage ≠ 0)
  | _ => !s.mg.fail && decide (s.mg.stage ≠ 0)

/-- One event of the machine. -/
def State.advance (s : State) : Outcome :=
  let e := s.nextEvent
  if !e.2.allowed e.1 then .next e.2.tick
  else if !e.1.wf then .fault .illFormed
  else ticked (runEvent e.1 e.2)

/-! ### A word placed where the next step fetches it (log 2) -/

/-- A launch record of one crew of one context: S is 1 MiB and the local region 64 KiB. -/
def soloRecord : LaunchRec :=
  ⟨leBytes 20 0 ++ [1, 0, 0, 0] ++ leBytes 4 0x100000 ++ leBytes 4 0x10000 ++ leBytes 160 0⟩

/-- The gang of that crew, running on cluster 0. -/
def soloGang (gid : Nat) : Gang where
  id := gid
  queue := 0
  tenant := 0
  rec_ := soloRecord
  phase := .running
  head := none
  tested := true
  reserving := false
  block := [0]
  target := []
  starts := 1
  first := none
  pool := none
  image := []
  save := 0
  dtab := []
  saved := []
  fell := []

/-- Context 0 ready to fetch at address 0; a syllable that handler mode alone may issue finds it there, and a YIELD has
blocked. -/
def soloCtx (c : Ctx) (hm : Bool) : Ctx :=
  { c with status := .ready, pc := 0, hm := hm, drain := false, pend := [], xfer := none, tent := [], loop := none, phsw := none
           waitPh := none, async := none, report := [], monitor := none, blocked := none, yielded := true, redo := none
           ending := false }

/-- Core 0 with a bundle at address 0 of half A and nothing that holds its issue. -/
def soloCore (k : Core) (bs : List Byte) : Core :=
  { k with ispad := k.ispad.write 0 bs, undef := [], aRun := true, tdt := [], cbuf := [], loopBuf := [], running := none, last := 3
           stalled := none, smap := [], lives := [], fenced := false, frozen := 0 }

/-- Does a bundle hold a syllable of handler mode (R58)? -/
def needsHm (bs : List Byte) : Bool :=
  (decodeBundle bs).instrs.any fun i => match i with
    | .mtc _ r => privReg r
    | .resume => true
    | .winset _ _ _ _ => true
    | _ => false

/-- The state in which the next step issues this bundle from context 0, which holds its cluster's lease. -/
def State.placed (s : State) (bs : List Byte) : State :=
  let gid := s.mg.nextGid
  let cl := s.cl 0
  let s1 := (s.setCl 0 { cl with crew := some (gid, 0), holder := some 0, mq := [], board := [] }).setCore 0 (soloCore (s.core 0) bs)
  let s2 := s1.setCtx 0 (soloCtx (s1.ctx 0) (needsHm bs))
  { s2 with
    gangs := s2.gangs ++ [soloGang gid], iss := Iss.none, agenda := .bundleIssue 0 :: s2.agenda
    mg := { s2.mg with nextGid := gid + 1, stage := 7, ready := true, fail := false } }

end Sys2Proof.Machine
end

