-- ==== Sys2Proof/Machine/Step.lean ====
section
/-! DEFINITION. The step of the machine, and the placing of one word where it fetches. Both only call what `Run` defines. -/

namespace Sys2Proof.Machine
open Sys2Proof

/-- One step: the next event, its syllables, and one clock (log 3). -/
def step (s : State) : Host.Outcome State Fault Refusal := s.advance

/-- The state in which `step` fetches and runs the instruction whose bits are w (log 2). -/
def State.withFetchWord (s : State) (_nbits w : Nat) : State := s.placed (bundleOfWord (BitVec.ofNat 32 w))

end Sys2Proof.Machine
end

