-- ==== Sys2Proof/Safety.lean ====
section
/-! DEFINITION. What claims mean by a safe run, and by legal values of the management state. -/

namespace Sys2Proof
open Sys2Proof.Machine

/-- k steps end neither in a fault nor in a refusal. -/
def Safe (k : Nat) (s : State) : Prop := ∃ t, core.run k s = .next t

/-- What the manual promises of the module's own registers in every state: READY only in stage 7 and without FAIL (R376,
R380, R387), the arithmetic clock in 100 MHz steps from 800 to 1600 MHz (R387), AGEB in 2^16 to 2^30 (R284), PCAP in 400 to 1800 (R387), and at
most 2^20 one-time indices used (R333). -/
structure Legal (s : State) : Prop where
  ready : s.mg.ready = true → s.mg.stage = 7 ∧ s.mg.fail = false
  stage : s.mg.stage ≤ 8
  clock : 800 ≤ s.mg.clkMHz ∧ s.mg.clkMHz ≤ 1600 ∧ s.mg.clkMHz % 100 = 0
  throt : s.mg.throt = decide (s.mg.clkMHz < 1600)
  ageb : 2 ^ 16 ≤ s.mg.ageb ∧ s.mg.ageb ≤ 2 ^ 30
  pcap : 400 ≤ s.mg.pcap ∧ s.mg.pcap ≤ 1800
  xmss : s.trust.xmss ≤ 2 ^ 20

end Sys2Proof
end

