-- ==== Sys2Proof/Certificates/Slice0/Obligations.lean ====
section
/-! DEFINITION. Statements about the model, each from the rules of spec/ that its docstring names. -/

open Sys2Proof Sys2Proof.Machine

namespace Sys2Proof.Claims

/-! ### What the statements speak in -/

/-- A syllable is executed by its bundle or by the commit buffer, not reissued from a record. -/
def Issues (s : State) : Prop := s.iss.mode ≠ .reissue

/-- The current context with one more operation in progress; nothing else of the module differs from s. -/
def withOp (s : State) (o : Op) : State := s.setMe { s.me with pend := s.me.pend ++ [o] }

/-- A scalar result for d is not subject to the stack limit (R203): d is not s2, or SLIM names no local address, or the
context is in handler mode. -/
def Unlimited (s : State) (d : Reg) : Prop := d ≠ 2#6 ∨ tagOf s.me.slim ≠ 3 ∨ s.me.hm = true

/-- v is ext(wrap(z, t), t) (R105, R109): the extension of its own low bits, which are congruent to z. -/
def Wraps (t : ITy) (z : Int) (v : Word) : Prop := tyPut t (tyInt t v) = v ∧ (tyInt t v - z) % 2 ^ tyWidth t = 0

/-- v is the extension at a type of a bit pattern of its width (R105). -/
def Extends (t : ITy) (p : BitVec (tyWidth t)) (v : Word) : Prop :=
  v = if tySigned t then p.signExtend 64 else p.zeroExtend 64

/-- The rows of R113 that compute on integers: operands, type, bound and result. -/
def intRow : Instr → Option (Reg × Reg × Src × ITy × Nat × (Int → Int → Int))
  | .add d a b t => some (d, a, b, t, 1, fun x y => x + y)
  | .sub d a b t => some (d, a, b, t, 1, fun x y => x - y)
  | .mul d a b t => some (d, a, b, t, 3, fun x y => x * y)
  | .mulh d a b t => some (d, a, b, t, 3, fun x y => (x * y).fdiv (2 ^ tyWidth t))
  | .div d a b t => some (d, a, b, t, 24, fun x y => if y = 0 then -1 else x.tdiv y)
  | .rem d a b t => some (d, a, b, t, 24, fun x y => if y = 0 then x else x - y * x.tdiv y)
  | .min d a b t => some (d, a, b, t, 1, fun x y => if y < x then y else x)
  | .max d a b t => some (d, a, b, t, 1, fun x y => if x < y then y else x)
  | _ => none

/-- The rows of R113 that act on the n-bit patterns of A and B; the last argument is the shift count, bits 5:0 of B. -/
def bitRow : Instr → Option (Reg × Reg × Src × ITy × ((n : Nat) → BitVec n → BitVec n → Nat → BitVec n))
  | .and d a b t => some (d, a, b, t, fun _ x y _ => x &&& y)
  | .or d a b t => some (d, a, b, t, fun _ x y _ => x ||| y)
  | .xor d a b t => some (d, a, b, t, fun _ x y _ => x ^^^ y)
  | .andn d a b t => some (d, a, b, t, fun _ x y _ => x &&& ~~~y)
  | .shl d a b t => some (d, a, b, t, fun _ x _ c => x <<< c)
  | .shr d a b t => some (d, a, b, t, fun _ x _ c => x >>> c)
  | .sar d a b t => some (d, a, b, t, fun _ x _ c => x.sshiftRight c)
  | _ => none

/-- The RI operations (R114, R116, R117): operands, the immediate as a record keeps it, and the result. -/
def immRow : Instr → Option (Reg × Reg × Word × (Word → Word))
  | .addRi d a i => some (d, a, i.signExtend 64, fun x => x + i.signExtend 64)
  | .andRi d a i => some (d, a, i.signExtend 64, fun x => x &&& i.signExtend 64)
  | .orRi d a i => some (d, a, i.signExtend 64, fun x => x ||| i.signExtend 64)
  | .xorRi d a i => some (d, a, i.signExtend 64, fun x => x ^^^ i.signExtend 64)
  | .shlRi d a c => some (d, a, c.zeroExtend 64, fun x => x <<< c.toNat)
  | .shrRi d a c => some (d, a, c.zeroExtend 64, fun x => x >>> c.toNat)
  | .sarRi d a c => some (d, a, c.zeroExtend 64, fun x => x.sshiftRight c.toNat)
  | .movh d a i => some (d, a, i.zeroExtend 64, fun x => x.extractLsb' 0 52 ++ i)
  | .ext d a l p => some (d, a, (l ++ p).zeroExtend 64, fun x => (x.extractLsb' p.toNat (l.toNat + 1)).zeroExtend 64)
  | _ => none

/-- The scalar results of the A slot (R113 to R120, R124, R125): destination, bound, the two words of the record, and what
the result is. -/
def aRow (s : State) : Instr → Option (Reg × Nat × Word × Word × (Word → Prop))
  | .clz d a t => some (d, 1, s.opA a, 0, fun v => ∃ k ≤ tyWidth t, v = BitVec.ofNat 64 k ∧
      (∀ j < k, (s.opA a).getLsbD (tyWidth t - 1 - j) = false) ∧
      (k < tyWidth t → (s.opA a).getLsbD (tyWidth t - 1 - k) = true))
  | .popc d a t => some (d, 1, s.opA a, 0,
      fun v => v = BitVec.ofNat 64 ((List.range (tyWidth t)).countP (s.opA a).getLsbD))
  | .icvt d a t st => some (d, 3, s.opA a, 0, Wraps t (tyInt st (s.opA a)))
  | .mov d b t => some (d, 1, 0, s.opB b, Extends t ((s.opB b).truncate _))
  | .lea d a b sp sh => some (d, 1, s.opA a, s.opB b, fun v => v.extractLsb' 60 4 = BitVec.ofNat 4 (spaceTag sp) ∧
      v.extractLsb' 0 60 = ((s.opA a) + (s.opB b) * BitVec.ofNat 64 (2 ^ sh.toNat)).extractLsb' 0 60)
  | .mfc d r => some (d, 2, s.me.creg r, 0, fun v => v = s.me.creg r)
  | .sel d a b p =>
    let v := if (s.srcP p 2).getLsbD 0 then s.srcS a 0 else s.opB b
    some (d, 1, v, 0, fun x => x = v)
  | i => match intRow i, bitRow i, immRow i with
    | some (d, a, b, t, n, f), _, _ => some (d, n, s.opA a, s.opB b, Wraps t (f (tyInt t (s.opA a)) (tyInt t (s.opB b))))
    | _, some (d, a, b, t, f), _ => some (d, 1, s.opA a, s.opB b,
        Extends t (f (tyWidth t) ((s.opA a).truncate _) ((s.opB b).truncate _) (bits (s.opB b) 5 0)))
    | _, _, some (d, a, y, f) => some (d, 1, s.opA a, y, fun v => v = f (s.opA a))
    | _, _, _ => none

/-- What INS writes (R116): the field of len bits from pos on is the low bits of sA, the other bits are those of sD. -/
def InsResult (s : State) (d a : Reg) (l q : BitVec 6) (v : Word) : Prop :=
  ∀ j < 64, v.getLsbD j =
    if q.toNat ≤ j ∧ j ≤ q.toNat + l.toNat then (s.srcS a 0).getLsbD (j - q.toNat) else (s.srcS d 2).getLsbD j

/-- What PPACK writes (R124): byte i is predicate pN+i. -/
def PackResult (s : State) (a : Reg) (v : Word) : Prop := ∀ i < 8, v.extractLsb' (8 * i) 8 = s.srcP (a + BitVec.ofNat 6 i) i

end Sys2Proof.Claims

open Sys2Proof.Claims

/-- R113, R105, R107, R112: ADD, SUB, MUL, MULH, DIV, REM, MIN and MAX write ext(wrap(z, t), t) of the exact integer result
z, with all ones and the dividend for a divisor 0, as one operation in progress that a stop records with both operands.
Nothing else of the module changes. -/
def Obligations.IntegerResultsAreWrappedExactly : Prop :=
  ∀ (i : Instr) (d a : Reg) (b : Src) (t : ITy) (n : Nat) (f : Int → Int → Int) (s : State),
    intRow i = some (d, a, b, t, n, f) → Issues s → Unlimited s d →
    ∃ v, Wraps t (f (tyInt t (s.opA a)) (tyInt t (s.opB b))) v ∧
      exec i s = .next (withOp s (s.op n [wrS d v] 0 (.recorded (s.opA a) (s.opB b) false)))

/-- R113, R105, R106, R112: AND, OR, XOR, ANDN, SHL, SHR and SAR write the extension of the n-bit pattern they give. SHL and SHR
by a count of n or more give 0, and SAR n copies of the sign. -/
def Obligations.BitOperationsActOnPatterns : Prop :=
  (∀ (i : Instr) (d a : Reg) (b : Src) (t : ITy) (f : (n : Nat) → BitVec n → BitVec n → Nat → BitVec n) (s : State),
    bitRow i = some (d, a, b, t, f) → Issues s → Unlimited s d →
    ∃ v, Extends t (f (tyWidth t) ((s.opA a).truncate _) ((s.opB b).truncate _) (bits (s.opB b) 5 0)) v ∧
      exec i s = .next (withOp s (s.op 1 [wrS d v] 0 (.recorded (s.opA a) (s.opB b) false)))) ∧
  ∀ (d a : Reg) (b : Src) (t : ITy) (s : State), Issues s → Unlimited s d → tyWidth t ≤ bits (s.opB b) 5 0 →
    exec (.shl d a b t) s = .next (withOp s (s.op 1 [wrS d 0] 0 (.recorded (s.opA a) (s.opB b) false))) ∧
    exec (.shr d a b t) s = .next (withOp s (s.op 1 [wrS d 0] 0 (.recorded (s.opA a) (s.opB b) false))) ∧
    ∃ v, Extends t (if (s.opA a).getLsbD (tyWidth t - 1) then BitVec.allOnes _ else 0#_) v ∧
      exec (.sar d a b t) s = .next (withOp s (s.op 1 [wrS d v] 0 (.recorded (s.opA a) (s.opB b) false)))

/-- R114 to R117, R119, R120, R112: the RI operations compute on 64 bits; SEL takes sA where bit 0 of pN is 1 and B elsewhere; INS
replaces the field of len bits from pos on by the low bits of sA and keeps the other bits of sD. SEL and INS complete at a stop.
CLZ and POPC write the count of the n-bit pattern of sA, zero-extended; ICVT writes ext(wrap(ext(wrap(sA, st), st), dt), dt) and
MOV ext(wrap(B, it), it), and neither saturates. -/
def Obligations.ImmediatesCountsAndConversionsComplete : Prop :=
  ((∀ (i : Instr) (d a : Reg) (y : Word) (f : Word → Word) (s : State),
    immRow i = some (d, a, y, f) → Issues s → s.iss.ov = none → Unlimited s d →
    exec i s = .next (withOp s (s.op 1 [wrS d (f (s.opA a))] 0 (.recorded (s.opA a) y false)))) ∧
  ∀ (d a p : Reg) (b : Src) (l q : BitVec 6) (s : State), Issues s → s.iss.ov = none → Unlimited s d →
    exec (.sel d a b p) s = .next (withOp s (s.op 1
      [wrS d (if (s.srcP p 2).getLsbD 0 then s.srcS a 0 else s.opB b)] 0 .completed)) ∧
    ∃ v, InsResult s d a l q v ∧ exec (.ins d a l q) s = .next (withOp s (s.op 1 [wrS d v] 0 .completed))) ∧
  ∀ (d a : Reg) (b : Src) (t st : ITy) (s : State), Issues s → Unlimited s d →
    (∃ k ≤ tyWidth t, (∀ j < k, (s.opA a).getLsbD (tyWidth t - 1 - j) = false) ∧
      (k < tyWidth t → (s.opA a).getLsbD (tyWidth t - 1 - k) = true) ∧
      exec (.clz d a t) s = .next (withOp s (s.op 1 [wrS d (BitVec.ofNat 64 k)] 0 (.recorded (s.opA a) 0 false)))) ∧
    exec (.popc d a t) s = .next (withOp s (s.op 1 [wrS d (BitVec.ofNat 64
      ((List.range (tyWidth t)).countP (s.opA a).getLsbD))] 0 (.recorded (s.opA a) 0 false))) ∧
    (∃ v, Wraps t (tyInt st (s.opA a)) v ∧
      exec (.icvt d a t st) s = .next (withOp s (s.op 3 [wrS d v] 0 (.recorded (s.opA a) 0 false)))) ∧
    ∃ v, Extends t ((s.opB b).truncate _) v ∧
      exec (.mov d b t) s = .next (withOp s (s.op 1 [wrS d v] 0 (.recorded 0 (s.opB b) false)))

/-- R118, R125, R124: LEA puts the space tag above the 60-bit sum; MFC reads a control register, ESTAT with HM and its
reserved bits 0 (R342); PPACK packs the eight predicates from pN on, lowest first. -/
def Obligations.AddressesAndReadsOfControlState : Prop :=
  ∀ (d a : Reg) (b : Src) (sp : Space) (sh : BitVec 2) (r : CReg) (s : State), Issues s → Unlimited s d →
    (∃ v : Word, v.extractLsb' 60 4 = BitVec.ofNat 4 (spaceTag sp) ∧
      v.extractLsb' 0 60 = ((s.opA a) + (s.opB b) * BitVec.ofNat 64 (2 ^ sh.toNat)).extractLsb' 0 60 ∧
      exec (.lea d a b sp sh) s = .next (withOp s (s.op 1 [wrS d v] 0 (.recorded (s.opA a) (s.opB b) false)))) ∧
    (s.iss.ov = none → exec (.mfc d r) s = .next (withOp s (s.op 2 [wrS d (s.me.creg r)] 0 (.recorded (s.me.creg r) 0 false)))) ∧
    (s.iss.ov = none → ∃ v, PackResult s a v ∧
      exec (.ppack d a) s = .next (withOp s (s.op 1 [wrS d v] 0 (.recorded v 0 false))))

/-- The predicate rows of R121 and R122: destination, bound, captured words and the value written. -/
def Sys2Proof.Claims.predRow (s : State) : Instr → Option (Reg × Nat × Word × Word × Byte)
  | .cmp d a b t c => some (d, 1, s.opA a, s.opB b,
      if (match c with
        | .eq => tyInt t (s.opA a) = tyInt t (s.opB b)
        | .ne => tyInt t (s.opA a) ≠ tyInt t (s.opB b)
        | .lt => tyInt t (s.opA a) < tyInt t (s.opB b)
        | .le => tyInt t (s.opA a) ≤ tyInt t (s.opB b)
        | .gt => tyInt t (s.opA a) > tyInt t (s.opB b)
        | .ge => tyInt t (s.opA a) ≥ tyInt t (s.opB b) : Bool) then 0xFF else 0x00)
  | .pand d a b => some (d, 1, (s.opPA a).zeroExtend 64, (s.opPB b).zeroExtend 64, s.opPA a &&& s.opPB b)
  | .por d a b => some (d, 1, (s.opPA a).zeroExtend 64, (s.opPB b).zeroExtend 64, s.opPA a ||| s.opPB b)
  | .pxor d a b => some (d, 1, (s.opPA a).zeroExtend 64, (s.opPB b).zeroExtend 64, s.opPA a ^^^ s.opPB b)
  | .pnot d a => some (d, 1, (s.opPA a).zeroExtend 64, 0, ~~~s.opPA a)
  | .pmov d a => some (d, 1, (s.opPA a).zeroExtend 64, 0, s.opPA a)
  | _ => none

/-- R121 to R124, R112: CMP, PAND, POR, PXOR, PNOT and PMOV write one predicate, recorded at a stop; PUNPK writes byte i of
sA to p(N+i), for i = 0 to 7, as one operation. PANY writes 0xFF if any bit of pA is set, PALL if pA is 0xFF, and 0x00
otherwise, with bound 2. -/
def Obligations.PredicateOperationsWriteTheirPredicates : Prop :=
  (∀ (i : Instr) (d : Reg) (n : Nat) (x y : Word) (v : Byte) (s : State), predRow s i = some (d, n, x, y, v) → Issues s →
    exec i s = .next (withOp s (s.op n [wrP d v] 0 (.recorded x y false)))) ∧
  ∀ (d a : Reg) (s : State), Issues s →
    exec (.punpk d a) s = .next (withOp s (s.op 1
      ((List.range 8).map fun i => Wr.mk (.p (d.toNat + i)) (((s.opA a).extractLsb' (8 * i) 8).zeroExtend 256)) 0
      (.recorded (s.opA a) 0 false))) ∧
    exec (.pany d a) s = .next (withOp s (s.op 2 [wrP d (if s.opPA a = 0 then 0x00 else 0xFF)] 0
      (.recorded ((s.opPA a).zeroExtend 64) 0 false))) ∧
    exec (.pall d a) s = .next (withOp s (s.op 2 [wrP d (if s.opPA a = 0xFF then 0xFF else 0x00)] 0
      (.recorded ((s.opPA a).zeroExtend 64) 0 false)))

/-- R203, R364: with an active SLIM, outside handler mode, every A-slot result for s2 that is below SLIM is the stack-limit
stop, a syllable fault 0x05 recorded with the words of its operation (R112), and nothing is written; one at or above SLIM is
written. -/
def Obligations.StackLimitStopsAWriteOfS2 : Prop :=
  ∀ (s : State), Issues s → s.iss.ov = none → tagOf s.me.slim = 3 → s.me.hm = false →
    let limit := fun (i : Instr) (n : Nat) (x y v : Word) =>
      (v.toNat < s.me.slim.toNat → exec i s = .next (s.fault (s.sylFault 0x05 x y n []))) ∧
      (s.me.slim.toNat ≤ v.toNat → ∃ f, exec i s = .next (withOp s (s.op n [wrS 2 v] 0 f)))
    (∀ (i : Instr) (n : Nat) (x y : Word) (r : Word → Prop), aRow s i = some (2, n, x, y, r) →
      ∃ v, r v ∧ limit i n x y v) ∧
    (∀ (a : Reg) (l q : BitVec 6), ∃ v, InsResult s 2 a l q v ∧ limit (.ins 2 a l q) 1 v 0 v) ∧
    (∀ a : Reg, ∃ v, PackResult s a v ∧ limit (.ppack 2 a) 1 v 0 v)

/-- R126, R337, R336, R198, R228, R175: MTC, WINSET, FMTSET, VCLR and ERW only leave a write for the end of their bundle; an
MTC to WORLD changes nothing, and one of another value is the fatal world violation. -/
def Obligations.WritesWaitForTheEndOfTheBundle : Prop :=
  ∀ (a d n : Reg) (b : Src) (r : CReg) (part : Bool) (f e : BitVec 4) (s : State),
    (r ≠ .world → exec (.mtc a r) s = .next (s.atEnd (.mtc r (s.opA a)))) ∧
    (s.opA a = s.me.world → exec (.mtc a .world) s = .next s) ∧
    (s.opA a ≠ s.me.world → exec (.mtc a .world) s = .next (s.fault (s.sylFault 0x21 (s.opA a) 0 0 []))) ∧
    exec (.winset d a b part) s = .next (s.atEnd (.win d.toNat part
      (let w := vget s.me.win d.toNat ⟨0, 0⟩
       ((if part then w.w1 else w.w0) &&& ~~~s.opB b) ||| (s.opA a &&& s.opB b)))) ∧
    exec (.fmtset f a) s = .next (s.atEnd (.fmt f.toNat ((s.opA a).truncate 32))) ∧
    exec .vclr s = .next (s.atEnd .vclr) ∧
    exec (.erw e a b n) s = .next ((s.atEnd (.erw e.toNat n.toNat (s.opA a))).atEnd (.erw e.toNat (n.toNat + 1) (s.opB b)))

/-- What a control register holds after an MTC (R359, R337, R342), by the mode of the context. The flags of operations that
have landed and are still within their bounds are ORed in after a write of ESTAT (R92). -/
def Sys2Proof.Claims.mtcValue (c : Ctx) (v : Word) : CReg → Word
  | .epc | .slim | .ftb | .rngs => v
  | .estat =>
    (if c.hm then (v &&& 0x00000FFF00FFFF3F) ||| 0x01000000 else (c.creg .estat &&& ~~~0xFF) ||| (v &&& 0x3F)) |||
      ((orFlags ((c.pend.filter (·.landed)).map (·.flags))) &&& 0x3F).zeroExtend 64
  | .thv => v &&& 0x1FFFC
  | .rqb => v &&& ~~~0x7FF
  | .rqn => v &&& 0x7F
  | .safeord => v &&& 0xFFFFFFFF
  | .world => c.creg .world

/-- R359, R337, R342, R366, R92: at the end of a bundle each control register takes the written value with its reserved bits 0;
outside handler mode an ESTAT write reaches the flags alone, and those of operations within their bounds are ORed in after it;
HM and WORLD ignore writes. R175, R198, R336, R228: an engine
register, a format descriptor (unset with NV where it is ill-formed), a window word and the validation set take their values.
Nothing else changes. -/
def Obligations.EndOfBundleWritesTakeTheirBits : Prop :=
  (∀ (g : Nat) (r : CReg) (v : Word) (s : State), ∃ c, s.applyEnd g (.mtc r v) = s.setCtx g c ∧
    c.creg r = mtcValue (s.ctx g) v r ∧ (∀ q, q ≠ r → c.creg q = (s.ctx g).creg q) ∧
    { c with
      epc := (s.ctx g).epc, estat := (s.ctx g).estat, thv := (s.ctx g).thv, slim := (s.ctx g).slim, ftb := (s.ctx g).ftb
      rqb := (s.ctx g).rqb, rqn := (s.ctx g).rqn, rngs := (s.ctx g).rngs, safeord := (s.ctx g).safeord } = s.ctx g) ∧
  ∀ (g e n f w : Nat) (v : Word) (d : Syl) (part : Bool) (s : State),
    (erWritable e n → ∃ c, s.applyEnd g (.erw e n v) = s.setCtx g c ∧ c.er e n = v ∧
      (∀ e' n', (e', n') ≠ (e, n) → c.er e' n' = (s.ctx g).er e' n') ∧ { c with eng := (s.ctx g).eng } = s.ctx g) ∧
    (f < 8 → (d = 0 ∨ dOk d) → s.applyEnd g (.fmt f d) = s.setCtx g { s.ctx g with f := vput (s.ctx g).f f d }) ∧
    (f < 8 → d ≠ 0 → dOk d = false → (s.ctx g).status = .ready → s.applyEnd g (.fmt f d) = s.setCtx g { s.ctx g with
      f := vput (s.ctx g).f f 0, estat := (s.ctx g).estat ||| 0x10 }) ∧
    (w < 8 → ∃ c, s.applyEnd g (.win w part v) = s.setCtx g c ∧
      vget c.win w ⟨0, 0⟩ = (if part then ⟨(vget (s.ctx g).win w ⟨0, 0⟩).w0, v⟩ else ⟨v, (vget (s.ctx g).win w ⟨0, 0⟩).w1⟩) ∧
      (∀ k, k ≠ w → vget c.win k ⟨0, 0⟩ = vget (s.ctx g).win k ⟨0, 0⟩) ∧ { c with win := (s.ctx g).win } = s.ctx g) ∧
    s.applyEnd g .vclr = s.setCtx g { s.ctx g with vset := ⟨[], false⟩ }

/-- R112, R348: a reissued integer operation computes from its captured words, not from the registers, and writes its
destination unless that is superseded; every other register and ESTAT stay, and so does the rest of the module. R361: the
destination is defined at the next bundle, whatever bounds are still open. -/
def Obligations.ReissueComputesFromCapturedWords : Prop :=
  ∀ (i : Instr) (d a : Reg) (b : Src) (t : ITy) (n : Nat) (f : Int → Int → Int) (x y : Word) (w : Written) (s : State),
    intRow i = some (d, a, b, t, n, f) → s.iss.mode = .reissue → s.iss.ov = some (x, y) → s.iss.rec_ = some w →
    Unlimited s d →
    ∃ v c, Wraps t (f (tyInt t x) (tyInt t y)) v ∧ exec i s = .next (s.setMe c) ∧ c.estat = s.me.estat ∧
      (d.toNat < 32 →
        c.reg (.s d.toNat) = (if d = 0 ∨ w.sup.contains (.s d.toNat) then s.me.reg (.s d.toNat) else v.zeroExtend 256)) ∧
      (∀ r, r ≠ .s d.toNat → c.reg r = s.me.reg r) ∧
      (w.sup = [] → s.me.ldfs = [] → ∀ m, c.undef m (.s d.toNat) = false)

/-- The current context with a transfer armed and its delay bundles counted from now (R142). -/
def Sys2Proof.Claims.armed (s : State) (x : Xfer) : State := s.setMe { s.me with xfer := some x }

/-- R141: PT writes its bundle's address plus 4·off, and PTR sA, to a branch-target register. R142, R145, R148, R150, R153: a
transfer is armed with its target and two delay bundles; CALL also writes the address after the second delay bundle to s1, with
bound 3, as part of its own record (R147). Nothing else changes. -/
def Obligations.TargetsAreWrittenAndTransfersArmed : Prop :=
  (∀ (bt : BitVec 2) (off : BitVec 22) (a : Reg) (s : State), Issues s → s.iss.ov = none →
    exec (.pt bt off) s = .next (withOp s (s.op 1 [⟨.bt bt.toNat, (s.iss.addr + off.signExtend 64 * 4).zeroExtend 256⟩] 0
      (.recorded (s.iss.addr + off.signExtend 64 * 4) 0 false))) ∧
    exec (.ptr bt a) s = .next (withOp s (s.op 1 [⟨.bt bt.toNat, (s.opA a).zeroExtend 256⟩] 0
      (.recorded (s.opA a) 0 false)))) ∧
  ∀ (bt : BitVec 2) (arm neg : Bool) (p : Reg) (s : State), Issues s →
    (∃ x, exec (.br bt arm neg p) s = .next (armed s x) ∧ x.kind = .br ∧ x.left = 2 ∧ x.step = s.iss.step ∧
      x.target = s.btVal bt ∧ x.arm = arm ∧ x.neg = neg ∧ x.p = p.toNat ∧ (p = 0 → x.val = some 0xFF)) ∧
    (∃ x, exec (.call bt) s = .next (withOp (armed s x) (s.op 3 [⟨.s 1, s.afterDelay.zeroExtend 256⟩] 0 .transfer)) ∧
      x.kind = .call ∧ x.left = 2 ∧ x.step = s.iss.step ∧ x.target = s.btVal bt) ∧
    (∃ x, exec .ret s = .next (armed s x) ∧ x.kind = .ret ∧ x.left = 2 ∧ x.step = s.iss.step ∧
      x.target = (s.src (.s 1) 0).truncate 64) ∧
    ∃ x, exec (.bswap bt) s = .next (armed s x) ∧ x.kind = .bswap ∧ x.left = 2 ∧ x.step = s.iss.step ∧
      x.target = s.btVal bt ∧ x.home = s.iss.addr

/-- R149, R199: an entry address with a tag other than 0, then one not aligned to 16, then one that no window covers, is a
syllable fault whose record stands for the transfer. R148: an accepted entry address is read as a control block; the transfer is
armed with the entry and its signature, s1 takes the return address with bound 3, and the entry arrives within 64. Behind a
CBSYNC of its context that is still to be performed the read waits (R313). That the window that covers an entry must grant R is
the model's choice (log 104). -/
def Obligations.CalltReadsOrRefusesItsEntry : Prop :=
  ∀ (a : Reg) (sig : BitVec 12) (va : Word) (s : State), Issues s → s.iss.ov = none → va = s.me.ftb + 16 * s.srcS a 0 →
    (∃ x, (tagOf va ≠ 0 → exec (.callt a sig) s = .next (s.fault { s.sylFault 0x02 va 0 0 [.s 1] with xfer := some x })) ∧
      (tagOf va = 0 → va.toNat % 16 ≠ 0 →
        exec (.callt a sig) s = .next (s.fault { s.sylFault 0x03 va 0 0 [.s 1] with xfer := some x })) ∧
      (∀ c, tagOf va = 0 → va.toNat % 16 = 0 → s.locate s.cur va 16 permR = .bad c →
        exec (.callt a sig) s = .next (s.fault { s.sylFault c va 0 0 [.s 1] with xfer := some x })) ∧
      x.kind = .callt ∧ x.left = 2 ∧ x.target = va) ∧
    ∀ ia w pol, tagOf va = 0 → va.toNat % 16 = 0 → s.locate s.cur va 16 permR = .home ia w pol →
    let q := s.readControl (readCallt (coreOf s.cur)) (s.gidOf s.cur) (ia, 16) ia 16 (s.acc s.cur w (.pod, s.cur))
    let e := s.bytesOr 16 q.2
    let read := fun (t : State) (y : Option (Word × Word)) => ∃ x o1 o2, exec (.callt a sig) s = .next (withOp (withOp (armed t x) o1) o2) ∧
      x.kind = .callt ∧ x.left = 2 ∧ x.landed = false ∧ x.sig = sig ∧ x.fall = s.afterDelay ∧ x.entry = y ∧
      o1.wr = [⟨.s 1, s.afterDelay.zeroExtend 256⟩] ∧ o1.bound = 3 ∧ o2.wr = [] ∧ o2.bound = 64 ∧ o2.late = true ∧
      o2.mem.isNone = y.isSome
    ((heldIn s.me.pend).any MemOp.isCbsync = false → read (q.1.failed s.cur q.2)
      (some (BitVec.ofNat 64 (leNat (e.take 8)), BitVec.ofNat 64 (leNat ((e.drop 8).take 8))))) ∧
    ((heldIn s.me.pend).any MemOp.isCbsync = true → read s none)

/-- R142, R145, R148, R149, R150, R153: where a transfer whose delay bundles have issued goes, or the stop that takes its
place: CALL and RET to their target; CALLT to the target that its entry gives when it arrives, or the signature fault; BSWAP to a valid target with the
halves swapped, or the fetch-bound stop; a resolved BR by bit 0 of v XOR NEG. -/
def Obligations.TransfersReachTheirTargets : Prop :=
  ∀ (g : Nat) (x : Xfer) (s : State), (s.ctx g).xfer = some x → x.left = 0 →
    let go := fun (t : State) (a : Word) => t.setCtx g { t.ctx g with xfer := none, pc := a }
    (x.kind = .call ∨ x.kind = .ret → s.settle g = (go s x.target, none)) ∧
    (∀ e, x.kind = .callt → x.entry = some e →
      (∀ i o, (s.ctx g).pend[i]? = some o → o.landed = false → o.mem = none → o.step = x.step → o.slot = 0 → o.dests = [] →
        ((s.landOne g i).ctx g).xfer = some { x with landed := true, target := e.1 }) ∧
      (x.landed = true →
        s.settle g = if e.2 = x.sig.zeroExtend 64 then (go s x.target, none) else (s, some ⟨0x08, 15, 0, 0, x.target⟩))) ∧
    (x.kind = .bswap → x.target.toNat % 4 = 0 ∧ x.target.toNat < 0x20000 ∧
        x.target.toNat / 0x10000 ≠ x.home.toNat / 0x10000 →
      s.settle g = (go (s.setCore (coreOf g) { s.core (coreOf g) with
        aRun := decide (x.target.toNat < 0x10000), bRun := decide (0x10000 ≤ x.target.toNat) }) x.target, none)) ∧
    (x.kind = .bswap → ¬(x.target.toNat % 4 = 0 ∧ x.target.toNat < 0x20000 ∧
        x.target.toNat / 0x10000 ≠ x.home.toNat / 0x10000) → s.settle g = (s, some ⟨0x09, 15, 0, 0, x.target⟩)) ∧
    (∀ v, x.kind = .br → x.val = some v → x.arm_ = false → (∀ o ∈ (s.ctx g).pend, o.landed = true) →
      s.settle g = (go s (if (v.getLsbD 0 ^^ x.neg) then x.target else (s.ctx g).pc), none))

/-- The passes that a LOOP nest still makes when its counters are l and its counts n: the counters as a mixed-radix number,
the first the lowest digit. -/
def Sys2Proof.Claims.passesLeft : List (BitVec 32) → List (BitVec 32) → Nat
  | l :: ls, n :: ns => (l.toNat - 1) + n.toNat * passesLeft ls ns
  | _, _ => 0

/-- A bundle whose syllables have all been executed, with nothing to be done at its end but its own step: no effect, fault,
stop or report is due, and it is no STOP bundle. -/
def Sys2Proof.Claims.BundleEnds (s : State) : Prop :=
  s.iss.mode = .bundle ∧ s.iss.todo = [] ∧ s.iss.ends = [] ∧ s.iss.faults = [] ∧ s.iss.trap = none ∧ s.iss.exit = false ∧
    s.iss.stop = false ∧ s.iss.moved = false ∧ s.me.report = []

/-- R151: LOOP reads its counts from s12 up; a count of 0 skips the body, and otherwise the body that follows is entered. The
step that ends the last bundle of a pass counts the nest down by one pass and fetches the body again, or, when no pass is
left, what follows, the counters holding their counts again; so the body is issued as often as the product of the counts says. -/
def Obligations.LoopBodiesIssueTheirProduct : Prop :=
  (∀ (len : BitVec 4) (depth : BitVec 3) (s : State), depth.toNat ≤ 6 →
    let cnt := (List.range depth.toNat).map fun j => ((s.src (.s (12 + j)) j).truncate 32 : BitVec 32)
    let body := s.iss.addr.toNat + s.iss.len
    ∃ c, (∀ j < depth.toNat, vget c.l j 0 = (s.src (.s (12 + j)) j).truncate 32) ∧
      ((∀ x ∈ cnt, x ≠ 0) → exec (.loop len depth) s = .next (s.setMe c) ∧
        c.loop = some ⟨BitVec.ofNat 64 body, len.toNat + 1, 0, cnt⟩ ∧ { c with l := s.me.l, loop := s.me.loop } = s.me) ∧
      ((∃ x ∈ cnt, x = 0) → ∃ t, exec (.loop len depth) s = .next t ∧ t.me = { c with pc := t.me.pc } ∧
        t.iss.moved = true ∧ t.me.pc = BitVec.ofNat 64 (s.skip (coreOf s.cur) (len.toNat + 1) body) ∧
        { c with l := s.me.l, pc := s.me.pc } = s.me)) ∧
  (∀ (k : Nat) (z : LoopSt) (s : State), BundleEnds s → s.me.xfer = none → s.me.loop = some z →
    z.start.toNat ≤ s.iss.addr.toNat → z.cnt.length ≤ 6 → (∀ x ∈ z.cnt, x ≠ 0) →
    let left := fun (c : Ctx) => (List.range z.cnt.length).map fun j => vget c.l j 0
    (∀ x ∈ left s.me, x ≠ 0) →
    ∃ c, runItems k s = .next { s.setMe c with iss := Iss.none } ∧ c.steps = s.me.steps + 1 ∧
      (z.pos + 1 < z.size → c.pc = s.iss.addr + BitVec.ofNat 64 s.iss.len ∧ c.loop = some { z with pos := z.pos + 1 } ∧
        c.l = s.me.l) ∧
      (z.size ≤ z.pos + 1 → passesLeft (left s.me) z.cnt = 0 →
        c.pc = s.iss.addr + BitVec.ofNat 64 s.iss.len ∧ c.loop = none ∧
        ∀ j < z.cnt.length, vget c.l j 0 = z.cnt.getD j 0) ∧
      (z.size ≤ z.pos + 1 → passesLeft (left s.me) z.cnt ≠ 0 →
        c.pc = z.start ∧ c.loop = some { z with pos := 0 } ∧ passesLeft (left c) z.cnt + 1 = passesLeft (left s.me) z.cnt ∧
        ∀ x ∈ left c, x ≠ 0)) ∧
  ∀ n : List (BitVec 32), (∀ x ∈ n, x ≠ 0) → passesLeft n n + 1 = (n.map (·.toNat)).foldr (· * ·) 1

/-- R35, R154 to R156, R357, R340, R286: NOP has no effect of its own; IFENCE empties the loop buffer held for its context; a
YIELD that issues has blocked once. The end of a bundle carries out its TRAP, as the stop 0x0C with TCODE and EPC after the
bundle, and its EXIT: the context has ended, its results and its transfer are dropped, its registrations and bindings are gone,
its task is returned, and the issue slot is free. -/
def Obligations.PlainControlCompletes : Prop :=
  (∀ (stop gn : Bool) (gp : Reg) (hint : BitVec 4) (bimm code : BitVec 12) (s : State),
    exec (.nop stop gn gp hint bimm) s = .next s ∧
    exec .ifence s = .next (if (s.core (coreOf s.cur)).loopOf = s.cur
      then s.setCore (coreOf s.cur) { s.core (coreOf s.cur) with loopBuf := [] } else s) ∧
    exec (.trap code) s = .next { s with iss := { s.iss with trap := some code } } ∧
    exec .yield s = .next (s.setMe { s.me with yielded := false }) ∧
    exec .exit s = .next { s with iss := { s.iss with exit := true } }) ∧
  (∀ (k : Nat) (code : BitVec 12) (s : State), BundleEnds { s with iss := { s.iss with trap := none } } →
    s.iss.trap = some code → s.me.pend = [] → s.me.ldfs = [] → s.me.xfer = none → s.me.loop = none → s.me.phsw = none →
    s.me.redo = none → s.me.hm = false → (∀ e ∈ (s.core (coreOf s.cur)).cbuf, e.g ≠ s.cur) →
    (s.core (coreOf s.cur)).running_ s.me.thv.toNat = true →
    ∃ t, runItems k s = .next t ∧ t.cur = s.cur ∧ t.me.status = .ready ∧ t.me.hm = true ∧ t.me.pc = s.me.thv ∧
      t.me.epc = s.iss.addr + BitVec.ofNat 64 s.iss.len ∧ t.me.rqn = 0 ∧ t.me.steps = s.me.steps + 1 ∧
      t.me.estat = (s.me.estat &&& 0xFF) ||| BitVec.ofNat 64 (0x0C * 2 ^ 8 + 15 * 2 ^ 16 + code.toNat * 2 ^ 32) ∧
      ∀ r, t.me.reg r = s.me.reg r) ∧
  ∀ (k : Nat) (s : State), BundleEnds { s with iss := { s.iss with exit := false, trap := none } } → s.iss.exit = true →
    s.me.drain = false → s.me.hm = false → heldIn s.me.pend = [] →
    (s.core (coreOf s.cur)).running = some (s.cur % 4) →
    ∃ t, runItems k s = .next t ∧ (t.ctx s.cur).status = .exited ∧ (t.ctx s.cur).pend = [] ∧ (t.ctx s.cur).xfer = none ∧
      (t.ctx s.cur).loop = none ∧ (t.ctx s.cur).ldfs = [] ∧ (t.ctx s.cur).regs = [] ∧ (t.ctx s.cur).binds = [] ∧
      (t.ctx s.cur).task = none ∧ (t.core (coreOf s.cur)).running = none ∧ (t.core (coreOf s.cur)).last = s.cur % 4

/-- R349, R351, R345: RESUME of a queue that R351 accepts ends handler mode, clears ESTAT above its flags, brings back the state
set aside, and leaves the records to be reissued in their order. While an LDF that the handler has sent is unanswered it waits;
that its bundle has issued by then is the model's choice (logs 55 and 115). -/
def Obligations.ResumeEndsHandlerMode : Prop :=
  ∀ (s : State),
    let s1 := { s with iss := { s.iss with resume := true, moved := true } }
    (∀ (s2 : State) (rs : List Read) (ms : List (Written × Read)) (a : Aside), s.me.pend = [] → s.me.ldfs = [] →
      (bits s.me.rqn 6 0 = 0 → s2 = s1 ∧ rs = []) →
      (bits s.me.rqn 6 0 ≠ 0 → s1.readRecords s.cur (bits s.me.rqn 6 0) s.me.rqb = some (s2, rs)) →
      matchQueue s.me.written rs = some ms → s2.me.ldfs = [] → s2.cur = s.cur → s2.me.aside = some a →
      exec .resume s = .next { s2.setMe { s2.me with
          hm := false, estat := s2.me.estat &&& 0xFF, vset := a.vset, loop := a.loop, xfer := a.xfer, aside := none
          redo := some ⟨false, [], [], a.step⟩ } with
        iss := { s2.iss with mode := .reissue, todo := reissues ms } }) ∧
    ∀ l ∈ s.me.ldfs, l.at_ ≠ .answered → (∀ w ∈ s.me.written, w.ldf ≠ l.id) →
      exec .resume s = .next (s1.setMe { s.me with redo := some ⟨true, [], [], (s.me.aside.map (·.step)).getD 0⟩ })

/-! ### Memory -/

/-- The plain loads of R225: destination, address register, offset, ordering, size, the integer type of a scalar one, and what
the destination gets of the bytes read, lowest first. -/
def Sys2Proof.Claims.loadRow : Instr → Option (Reg × Reg × Byte × Ord × Nat × Option ITy × (List Byte → Vec → Prop))
  | .ldI8 d a off o => some (d, a, off, o, 1, some .i8, fun bs x => ∃ v, Extends .i8 (BitVec.ofNat _ (leNat bs)) v ∧ x = v.zeroExtend 256)
  | .ldI16 d a off o => some (d, a, off, o, 2, some .i16, fun bs x => ∃ v, Extends .i16 (BitVec.ofNat _ (leNat bs)) v ∧ x = v.zeroExtend 256)
  | .ldI32 d a off o => some (d, a, off, o, 4, some .i32, fun bs x => ∃ v, Extends .i32 (BitVec.ofNat _ (leNat bs)) v ∧ x = v.zeroExtend 256)
  | .ldI64 d a off o => some (d, a, off, o, 8, some .i64, fun bs x => ∃ v, Extends .i64 (BitVec.ofNat _ (leNat bs)) v ∧ x = v.zeroExtend 256)
  | .ldN8 d a off o => some (d, a, off, o, 1, some .n8, fun bs x => ∃ v, Extends .n8 (BitVec.ofNat _ (leNat bs)) v ∧ x = v.zeroExtend 256)
  | .ldN16 d a off o => some (d, a, off, o, 2, some .n16, fun bs x => ∃ v, Extends .n16 (BitVec.ofNat _ (leNat bs)) v ∧ x = v.zeroExtend 256)
  | .ldN32 d a off o => some (d, a, off, o, 4, some .n32, fun bs x => ∃ v, Extends .n32 (BitVec.ofNat _ (leNat bs)) v ∧ x = v.zeroExtend 256)
  | .ldvec d a off o => some (d, a, off, o, 32, none, fun bs x => x = BitVec.ofNat 256 (leNat bs))
  | _ => none

/-- The destination of a load. -/
def Sys2Proof.Claims.loadDest (d : Reg) (t : Option ITy) : RegN := if t.isSome then .s d.toNat else .v d.toNat

/-- The bound of R221 by the tag of an address, and whether the latency varies (R23). -/
def Sys2Proof.Claims.bankSide (va : Word) : Bool := tagOf va == 1 || tagOf va == 2 || tagOf va == 3

/-- An operation that issues is performed at once; where the memory queue holds it (R206, R223, R224), `o` waits with it instead. -/
def Sys2Proof.Claims.PerformedOrHeld (i : Instr) (s : State) (o : Op) (m : MemOp) (done : State → Prop) : Prop :=
  (s.mustHold s.cur (heldIn s.me.pend) m = false → ∃ t, exec i s = .next t ∧ done t) ∧
  (s.mustHold s.cur (heldIn s.me.pend) m = true →
    exec i s = .next (withOp s { o with dests := m.dests, mem := some m, late := o.late || !m.dests.isEmpty }))

/-- R225, R221, R46, R105: a load accepted at issue lands the bytes that its place answers, extended by its type, within 6 steps
of a bank and within 64 of a home slice, and is recorded with its address until then (R242). Ordered loads then acquire. R199,
R202, R204, R205: a bank answers its own bytes, but undefined ones where an unfinished command writes (R181); the L1 answers a
valid copy; a home slice answers the bytes of a resident line of world 0, and no load changes any of them. -/
def Obligations.LoadsLandTheBytesOfTheirPlace : Prop :=
  (∀ (i : Instr) (d a : Reg) (off : Byte) (o : Ord) (n : Nat) (ty : Option ITy) (put : List Byte → Vec → Prop) (s : State),
    loadRow i = some (d, a, off, o, n, ty, put) → Issues s →
    let va := s.ea a off n
    let p := s.check s.cur va n n [0, 1, 2, 3, 4] permR false
    let op := fun (wr : List Wr) =>
      { s.op (if bankSide va then 6 else 64) wr 0 (.recorded va 0 (isAcq o)) with late := !bankSide va }
    let m := s.memOpOf (.load ty) o p d.toNat 0 0
    (∀ c, p ≠ .bad c) →
    PerformedOrHeld i s (op []) m fun t =>
      let q := (s.before s.cur p (isRel o)).loadAt s.cur p n (isAcq o)
      ∃ x, put q.2 x ∧ t = withOp (q.1.after s.cur p (isAcq o)) { op [⟨loadDest d ty, x⟩] with away := m.away }) ∧
  ∀ (g n ia off cl pol : Nat) (w : Window) (ordered : Bool) (s : State),
    (s.unfinishedOut g off n = false → s.loadAt g (.bank cl off) n ordered = (s, (s.cl cl).spad.read off n)) ∧
    (∀ l, pol ≠ 2 → (s.ctx g).ldfs = [] → (s.core (coreOf g)).l1.get? (ia / 256 * 256 + w.world.toNat) = some l →
      (l.valid &&& maskOf (ia % 256) n) = maskOf (ia % 256) n →
      s.loadAt g (.home ia w pol) n false = (s.setCore (coreOf g) { s.core (coreOf g) with
        l1 := (s.core (coreOf g)).l1.put (ia / 256 * 256 + w.world.toNat) { l with lru := s.fresh, pol := pol } },
        l.data.read (ia % 256) n)) ∧
    (∀ y, pol = 2 ∨ ordered = true → w.world = 0 → (s.ctx g).ldfs = [] →
      (s.core (coreOf g)).l1.get? (ia / 256 * 256) = none → (s.slice (homeSlice ia)).fills = [] →
      (s.slice (homeSlice ia)).lines.get? (ia / 1024) = some y → y.filled.getLsbD (ia / 256 % 4) = true →
      y.poison.getLsbD (ia / 256 % 4) = false → ia % 256 + n ≤ 256 → 0 < n →
      s.loadAt g (.home ia w pol) n ordered = (s.setSlice (homeSlice ia) { s.slice (homeSlice ia) with
        lines := (s.slice (homeSlice ia)).lines.put (ia / 1024) { y with lru := s.fresh } }, y.data.read (ia % 1024) n))

/-- The plain stores of R226: address register, offset, ordering, size, the words 4-5 of a faulting record, what is held
unseen, and the bytes stored, the low ones of sD or all of vD. -/
def Sys2Proof.Claims.storeRow (s : State) : Instr → Option (Reg × Byte × Ord × Nat × Word × Vec × List Byte)
  | .st8 d a off o => some (a, off, o, 1, s.opD d, 0, leBytes 1 (s.opD d).toNat)
  | .st16 d a off o => some (a, off, o, 2, s.opD d, 0, leBytes 2 (s.opD d).toNat)
  | .st32 d a off o => some (a, off, o, 4, s.opD d, 0, leBytes 4 (s.opD d).toNat)
  | .st64 d a off o => some (a, off, o, 8, s.opD d, 0, leBytes 8 (s.opD d).toNat)
  | .stvec d a off o => some (a, off, o, 32, 0, s.opHold (s.srcV d 2), leBytes 32 (s.opHold (s.srcV d 2)).toNat)
  | _ => none

/-- R226, R237, R224: a store accepted at issue is performed at its place, and so is a REL, after the release side where it is
ordered; it returns no value. -/
def Obligations.StoresArePerformedAtTheirPlace : Prop :=
  ∀ (i : Instr) (d a : Reg) (off : Byte) (o : Ord) (n : Nat) (x : Word) (h : Vec) (bs : List Byte) (s : State),
    (storeRow s i = some (a, off, o, n, x, h, bs) → Issues s →
      let p := s.check s.cur (s.ea a off n) n n [0, 1, 2, 3, 4] permW true
      let m := s.memOpOf (.store n) o p 0 x h
      (∀ c, p ≠ .bad c) → PerformedOrHeld i s (s.op 0 [] 0 .completed) m fun t =>
        t = (s.before s.cur p (isRel o)).storeAt s.cur p bs (isRel o) (s.inTask s.cur (s.earlier s.cur m))) ∧
    (Issues s → let p := s.check s.cur (s.ea a off 8) 8 8 [0, 1, 2, 4] permW true;
      (∀ c, p ≠ .bad c) →
      PerformedOrHeld (.rel d a off) s (s.op 0 [] 0 .completed) (s.memOpOf .rel .unp p 0 (s.opD d) 0) fun t =>
        t = (s.before s.cur p true).storeAt s.cur p (leBytes 8 (s.opD d).toNat) true false)

/-- What a context's own operations still to be performed show of it, apart from the bytes that their commands have been
stored over (R181). -/
def Sys2Proof.Claims.SameButTaint (c d : Ctx) : Prop :=
  { c with pend := d.pend } = d ∧ c.pend.map (fun o => { o with mem := none }) = d.pend.map fun o => { o with mem := none }

/-- R202, R226: a store to a bank changes the bytes stored, lowest first, and no other byte of any scratchpad; every context,
home memory, L2 slice and host memory stay. R204, R292: a plain store with a policy other than 10 to a line that the L1 holds, or
has room for, outside a task, stays there: its bytes are valid and dirty, the line's other bytes are as they
were, and nothing else of the module changes. -/
def Obligations.StoresChangeTheirBytesAlone : Prop :=
  (∀ (g cl off : Nat) (bs : List Byte) (ordered task : Bool) (s : State),
    let t := s.storeAt g (.bank cl off) bs ordered task
    (∀ i < bs.length, (t.cl cl).spad.get (off + i) = bs.getD i 0) ∧
    (∀ x, x < off ∨ off + bs.length ≤ x → (t.cl cl).spad.get x = (s.cl cl).spad.get x) ∧
    (∀ k, k ≠ cl → t.cl k = s.cl k) ∧ (∀ k, SameButTaint (t.ctx k) (s.ctx k)) ∧ t.slices = s.slices ∧ t.hbm = s.hbm ∧
    t.far = s.far ∧ t.hostMem = s.hostMem ∧ t.mg = s.mg ∧ t.outbox = s.outbox ∧
    ∀ k, { t.core k with tdt := (s.core k).tdt } = s.core k) ∧
  ∀ (g ia pol : Nat) (w : Window) (bs : List Byte) (s : State), (s.ctx g).ldfs = [] → pol ≠ 2 →
    ia % 256 + bs.length ≤ 256 →
    let k := s.core (coreOf g)
    let key := ia / 256 * 256 + w.world.toNat
    ((k.l1.get? key).isSome ∨ (k.l1.filter fun e => e.1 / 256 % 64 == key / 256 % 64).length < 8) →
    ∃ l, s.storeAt g (.home ia w pol) bs false false = s.setCore (coreOf g) { k with l1 := k.l1.put key l } ∧
      (∀ i < bs.length, l.data.get (ia % 256 + i) = bs.getD i 0 ∧ l.valid.getLsbD (ia % 256 + i) = true ∧
        l.dirty.getLsbD (ia % 256 + i) = true ∧ l.pdata.get (ia % 256 + i) = bs.getD i 0) ∧
      (∀ j, j < ia % 256 ∨ ia % 256 + bs.length ≤ j →
        (∀ old, k.l1.get? key = some old → l.data.get j = old.data.get j ∧ l.valid.getLsbD j = old.valid.getLsbD j ∧
          l.dirty.getLsbD j = old.dirty.getLsbD j ∧ l.pdata.get j = old.pdata.get j ∧ l.bufs = old.bufs) ∧
        (k.l1.get? key = none → l.valid.getLsbD j = false ∧ l.dirty.getLsbD j = false ∧ l.bufs = []))

/-- R208, R205, R373: a write transaction on a resident line of world 0 changes the bytes written, raises the line's version by 1,
marks the sector dirty and, where any cluster's OWLCTL asks for it (the model's choice, log 114), tags the line; the line's other
bytes stay. -/
def Obligations.WriteTransactionsRaiseTheVersion : Prop :=
  ∀ (ia : Nat) (bs : List Byte) (a : Acc) (must : Bool) (y : Line) (s : State), a.world = 0 → bs ≠ [] →
    ia % 16 + bs.length ≤ 16 → (s.slice (homeSlice ia)).lines.get? (ia / 1024) = some y →
    y.filled.getLsbD (ia / 256 % 4) = true → y.poison.getLsbD (ia / 256 % 4) = false →
    (s.slice (homeSlice ia)).defer = [] → (s.slice (homeSlice ia)).fills = [] → s.late = [] →
    ∃ t z, s.writeTxn a (cellsAt ia bs) must = (t, .ok ()) ∧ (t.slice (homeSlice ia)).lines.get? (ia / 1024) = some z ∧
      z.ver = y.ver + 1 ∧ z.dirty = y.dirty ||| (1#4 <<< (ia / 256 % 4)) ∧
      (t.slice (homeSlice ia)).tags = (if s.clusters.any fun c => c.2.dbg.owlCtl.getLsbD 5
        then (s.slice (homeSlice ia)).tags.put (ia / 1024) a.tag else (s.slice (homeSlice ia)).tags) ∧
      (∀ i < bs.length, z.data.get (ia % 1024 + i) = bs.getD i 0) ∧
      (∀ x, x < ia % 1024 ∨ ia % 1024 + bs.length ≤ x → z.data.get x = y.data.get x) ∧
      (∀ k, k ≠ homeSlice ia → t.slice k = s.slice k) ∧ t.hbm = s.hbm ∧ t.far = s.far ∧ t.clusters = s.clusters

/-- Does a window take part in matching and cover block b (R316, R317)? -/
def Sys2Proof.Claims.Covers (w : Window) (b : Nat) : Prop :=
  w.v = true ∧ w.base + w.nblk < 2 ^ 42 ∧ w.iaBase + w.nblk < 2 ^ 36 ∧ w.base ≤ b ∧ b ≤ w.base + w.nblk

/-- w is the lowest-numbered window of a context that covers block b: the deciding one (R317). -/
def Sys2Proof.Claims.Decides (c : Ctx) (b : Nat) (w : Window) : Prop :=
  ∃ j : Fin 8, c.win[j] = w ∧ Covers w b ∧ ∀ i < j, ¬Covers c.win[i] b

/-- Does a window grant what an access asks for? -/
def Sys2Proof.Claims.Permits (w : Window) (k : Perm) : Prop :=
  (k.r = true → w.r = true) ∧ (k.w = true → w.w = true) ∧ (k.fx = true → w.fx = true)

/-- The world tests of R317, failed: a window of another protected world, or a protected context's write outside its world. -/
def Sys2Proof.Claims.Foreign (c : Ctx) (w : Window) (k : Perm) : Prop :=
  (w.world ≠ 0 ∧ w.world ≠ c.world.truncate 8) ∨ (k.w = true ∧ c.world.truncate 8 ≠ 0#8 ∧ w.world ≠ c.world.truncate 8)

/-- The IA of R317 of an offset in the deciding window. -/
def Sys2Proof.Claims.iaIn (w : Window) (x : Nat) : Nat := (x / 65536 - w.base + w.iaBase) * 65536 + x % 65536

/-- R199 to R203, R221, R317, R327, R328: the checks of an L- or S-slot access at issue, in the order of log 11: a tag that the
operation does not accept and a limit crossed are the address fault, then alignment, then window and world, then SLIM; and where
an accepted access goes, for each tag. R242: an access that fails its checks moves no byte: it is a syllable fault recorded with
its effective address, its store data, and what it holds unseen. -/
def Obligations.AccessesAreCheckedAtIssue : Prop :=
  (∀ (g n al : Nat) (va : Word) (tags : List Nat) (k : Perm) (stack : Bool) (s : State),
    let ck := s.check g va n al tags k stack
    let low := tagOf va = 3 ∧ tagOf (s.ctx g).slim = 3 ∧ (s.ctx g).hm = false ∧ va.toNat < (s.ctx g).slim.toNat
    (tagOf va ∉ tags → ¬(stack = true ∧ low) → ck = .bad 0x02) ∧ (tagOf va ∉ tags → stack = true → low → ck = .bad 0x05) ∧
    (tagOf va ∈ tags →
      (tagOf va ≥ 5 → ck = .bad 0x02) ∧
      (tagOf va = 1 →
        (bits va 59 0 + n > (s.sizes g).1 → ck = .bad 0x02) ∧
        (bits va 59 0 + n ≤ (s.sizes g).1 →
          (va.toNat % al ≠ 0 → ck = .bad 0x03) ∧ (va.toNat % al = 0 → ck = .bank (clusterOf g) (bits va 59 0)))) ∧
      (tagOf va = 2 →
        (s.crewCluster g (bits va 59 56) = none → ck = .bad 0x02) ∧
        ∀ cl, s.crewCluster g (bits va 59 56) = some cl →
          (bits va 55 0 + n > (s.sizes g).1 → ck = .bad 0x02) ∧
          (bits va 55 0 + n ≤ (s.sizes g).1 →
            (va.toNat % al ≠ 0 → ck = .bad 0x03) ∧ (va.toNat % al = 0 → ck = .bank cl (bits va 55 0)))) ∧
      (tagOf va = 3 →
        (bits va 59 0 + n > (s.sizes g).2.1 → ck = .bad 0x02) ∧
        (bits va 59 0 + n ≤ (s.sizes g).2.1 →
          (va.toNat % al ≠ 0 → ck = .bad 0x03) ∧
          (va.toNat % al = 0 → (stack = true → low → ck = .bad 0x05) ∧
            (¬(stack = true ∧ low) → ck = .bank (clusterOf g)
              ((s.sizes g).1 + memberOf g * (s.sizes g).2.1 + bits va 59 0))))) ∧
      (tagOf va = 0 → va.toNat % al ≠ 0 → ck = .bad 0x03) ∧
      (tagOf va = 4 → bits va 59 58 ≠ 0 → ck = .bad 0x02) ∧
      (tagOf va = 4 → bits va 59 58 = 0 → va.toNat % al ≠ 0 → ck = .bad 0x03) ∧
      ∀ x, (tagOf va = 0 ∧ x = bits va 57 0) ∨ (tagOf va = 4 ∧ bits va 59 58 = 0 ∧ x = bits va 49 0) → va.toNat % al = 0 →
        ((∀ j : Fin 8, ¬Covers (s.ctx g).win[j] (x / 65536)) → ck = .bad 0x01) ∧
        ∀ w, Decides (s.ctx g) (x / 65536) w →
          (¬Permits w k → ck = .bad 0x01) ∧ (Permits w k → Foreign (s.ctx g) w k → ck = .bad 0x21) ∧
          (Permits w k → ¬Foreign (s.ctx g) w k →
            (w.base + w.nblk < (x + n - 1) / 65536 → ck = .bad 0x01) ∧
            ((x + n - 1) / 65536 ≤ w.base + w.nblk →
              (tagOf va = 0 → ck = .home (iaIn w x) w (bits va 59 58)) ∧
              (tagOf va = 4 →
                (s.trust.members.length ≤ bits va 57 50 → ck = .bad 0x22) ∧
                (bits va 57 50 < s.trust.members.length → bits va 57 50 = s.trust.myIdx → ck = .home (iaIn w x) w 2) ∧
                (bits va 57 50 < s.trust.members.length → bits va 57 50 ≠ s.trust.myIdx →
                  (w.world = 0 → ck = .remote (bits va 57 50) (iaIn w x) w) ∧
                  (w.world ≠ 0 → s.transitKey w.world = none → ck = .bad 0x21))))))) ∧
  ∀ (i : Instr) (d a : Reg) (off : Byte) (o : Ord) (n c : Nat) (ty : Option ITy) (put : List Byte → Vec → Prop) (x : Word)
    (h : Vec) (bs : List Byte) (s : State),
    (loadRow i = some (d, a, off, o, n, ty, put) →
      s.check s.cur (s.ea a off n) n n [0, 1, 2, 3, 4] permR false = .bad c →
      exec i s = .next (s.fault (s.sylFault c (s.ea a off n) 0 (if bankSide (s.ea a off n) then 6 else 64) [loadDest d ty]))) ∧
    (storeRow s i = some (a, off, o, n, x, h, bs) →
      s.check s.cur (s.ea a off n) n n [0, 1, 2, 3, 4] permW true = .bad c →
      exec i s = .next (s.fault { s.sylFault c (s.ea a off n) x 0 [] with hold := h })) ∧
    (s.check s.cur (s.ea a off 8) 8 8 [0, 1, 2, 4] permW true = .bad c →
      exec (.rel d a off) s = .next (s.fault (s.sylFault c (s.ea a off 8) (s.opD d) 0 []))) ∧
    (s.check s.cur (s.ea a off 8) 8 8 [0, 4] permW true = .bad c →
      exec (.stf d a off) s = .next (s.fault (s.sylFault c (s.ea a off 8) (s.opD d) 0 []))) ∧
    (s.check s.cur (s.ea a off 8) 8 8 [0, 4] permR false = .bad c → s.iss.rec_ = none →
      exec (.ldv d a off o) s = .next (s.fault (s.sylFault c (s.ea a off 8) 0 64 [.s d.toNat])) ∧
      exec (.vget d a off) s = .next (s.fault (s.sylFault c (s.ea a off 8) 0 64 [.s d.toNat])) ∧
      exec (.ldf d a off) s = .next (s.fault (s.sylFault c (s.ea a off 8) 0 0 [.s d.toNat])))

/-- R227, R230, R231, R209: LDV lands the word and joins the line's version with it, VGET lands the version, and CASV stores sD as
a write transaction exactly where the version is s(D+1), and lands the old word and the version found; word and version are those
of one point of the line's order. On a resident line of world 0, with no LDF under way and no copy in the L1, they are the line's
own bytes and its version (R205), and neither changes. -/
def Obligations.VersionOperationsReadOnePoint : Prop :=
  (∀ (d a : Reg) (off : Byte) (o : Ord) (s : State), Issues s →
    let va := s.ea a off 8
    let pr := s.check s.cur va 8 8 [0, 4] permR false
    let op := fun (wr : List Wr) (f : RecForm) => { s.op 64 wr 0 f with late := true }
    ((∀ c, pr ≠ .bad c) →
      (let m := s.memOpOf .ldv o pr d.toNat 0 0
       PerformedOrHeld (.ldv d a off o) s (op [] (.recorded va 0 (isAcq o))) m fun t =>
        let r := (s.before s.cur pr (isRel o)).wordVer s.cur pr false
        t = withOp (r.1.after s.cur pr (isAcq o))
          { op [wrS d r.2.1] (.recorded va 0 (isAcq o)) with ldv := r.1.pairOf pr r.2.2, away := m.away }) ∧
      let m := s.memOpOf .vget .unp pr d.toNat 0 0
      PerformedOrHeld (.vget d a off) s (op [] (.recorded va 0 false)) m fun t =>
        let r := s.versionAt s.cur pr
        t = withOp r.1 { op [wrS d r.2] (.recorded va 0 false) with away := m.away }) ∧
    (∀ ia w pol, s.check s.cur va 8 8 [0, 4] permRW true = .home ia w pol → s.iss.rec_ = none →
      let p := Place.home ia w pol
      PerformedOrHeld (.casv d a off o) s (op [] .completed)
        (s.memOpOf .casv o p d.toNat (s.opD d) ((s.srcS (d + 1) 3).zeroExtend 256)) fun t =>
        let s0 := s.before s.cur p (isRel o)
        let r := s0.wordVer s.cur p true
        (r.1.ctx s.cur).async = (s0.ctx s.cur).async →
        t = withOp ((if r.2.2 = s.srcS (d + 1) 3
            then r.1.homeStore s.cur ia (leBytes 8 (s.opD d).toNat) (r.1.acc s.cur w (.pod, s.cur)) true else r.1).after
              s.cur p (isAcq o))
          (op [wrN d.toNat r.2.1, wrN (d.toNat + 1) r.2.2] .completed))) ∧
  ∀ (g ia pol : Nat) (w : Window) (wr : Bool) (y : Line) (s : State), w.world = 0 → (s.ctx g).ldfs = [] →
    (s.core (coreOf g)).l1.get? (ia / 256 * 256) = none → (s.slice (homeSlice ia)).fills = [] →
    (s.slice (homeSlice ia)).lines.get? (ia / 1024) = some y → y.filled.getLsbD (ia / 256 % 4) = true →
    y.poison.getLsbD (ia / 256 % 4) = false → ia % 8 = 0 →
    s.wordVer g (.home ia w pol) wr = (s.setSlice (homeSlice ia) { s.slice (homeSlice ia) with
        lines := (s.slice (homeSlice ia)).lines.put (ia / 1024) { y with lru := s.fresh } },
      BitVec.ofNat 64 (leNat (y.data.read (ia % 1024) 8)), y.ver) ∧ (s.versionAt g (.home ia w pol)).2 = y.ver

/-- R228: VALSET takes the validation set with its FAILED bit, leaves an empty one, and writes its predicate within 64 once its
check point has come: 0xFF where the set checks out as it lands, else 0x00. A set checks out exactly where FAILED is 0 and every
pair of this module names a resident line of its version, and an empty set does. R227: the set after a landing LDV. -/
def Obligations.ValidationSetsAreTakenAndCompared : Prop :=
  (∀ (d : Reg) (s : State) (x : VSet) (p : VPair), Issues s →
    exec (.valset d) s = .next (s.setMe { s.me with
      vset := ⟨[], false⟩
      pend := s.me.pend ++ [{ s.op 64 [wrP d 0] 0 (.recorded 0 0 true) with late := true, check := some s.me.vset }] }) ∧
    (∀ q ∈ x.pairs, q.member = p.member → q.line = p.line → (∀ r ∈ x.pairs, r.member = p.member → r.line = p.line → r = q) →
      x.join p = if q.ver = p.ver then x else { x with failed := true }) ∧
    ((∀ q ∈ x.pairs, ¬(q.member = p.member ∧ q.line = p.line)) →
      x.join p = if x.pairs.length < 16 then { x with pairs := x.pairs ++ [p] } else { x with failed := true })) ∧
  (∀ (d : Reg) (s : State), Issues s → 0 < d.toNat → d.toNat < 48 → s.me.pend = [] →
    ∃ t u, exec (.valset d) s = .next t ∧ exec (.resultLand s.cur 0) t = .next u ∧
      (u.ctx s.cur).reg (.p d.toNat) = if s.validates s.me.vset then 0xFF else 0x00) ∧
  ∀ (s : State) (x : VSet), (∀ p ∈ x.pairs, p.member = s.trust.myIdx) →
    (s.validates x = true ↔ x.failed = false ∧
      ∀ p ∈ x.pairs, ∃ y, (s.slice (homeSlice (p.line * 1024))).lines.get? p.line = some y ∧ y.ver = p.ver)

/-- The atomics of R232: operands, ordering, width in bytes, and the word stored for an old value, x and the second operand:
none where a compare fails. -/
def Sys2Proof.Claims.atomRow : Instr → Option (Reg × Reg × Byte × Ord × Nat × (Word → Word → Word → Option Word))
  | .atomAdd d a f o => some (d, a, f, o, 8, fun v x _ => some (v + x))
  | .atomMin d a f o => some (d, a, f, o, 8, fun v x _ => some (if v.toInt < x.toInt then v else x))
  | .atomMax d a f o => some (d, a, f, o, 8, fun v x _ => some (if v.toInt < x.toInt then x else v))
  | .atomAnd d a f o => some (d, a, f, o, 8, fun v x _ => some (v &&& x))
  | .atomOr d a f o => some (d, a, f, o, 8, fun v x _ => some (v ||| x))
  | .atomXor d a f o => some (d, a, f, o, 8, fun v x _ => some (v ^^^ x))
  | .atomXchg d a f o => some (d, a, f, o, 8, fun _ x _ => some x)
  | .atomCas d a f o => some (d, a, f, o, 8, fun v x y => if v = x then some y else none)
  | .atomAddI32 d a f o => some (d, a, f, o, 4, fun v x _ => some (v + x))
  | .atomMinI32 d a f o => some (d, a, f, o, 4, fun v x _ => some (if tyInt .i32 v < tyInt .i32 x then v else x))
  | .atomMaxI32 d a f o => some (d, a, f, o, 4, fun v x _ => some (if tyInt .i32 v < tyInt .i32 x then x else v))
  | .atomAndI32 d a f o => some (d, a, f, o, 4, fun v x _ => some (v &&& x))
  | .atomOrI32 d a f o => some (d, a, f, o, 4, fun v x _ => some (v ||| x))
  | .atomXorI32 d a f o => some (d, a, f, o, 4, fun v x _ => some (v ^^^ x))
  | .atomXchgI32 d a f o => some (d, a, f, o, 4, fun _ x _ => some x)
  | .atomCasI32 d a f o => some (d, a, f, o, 4, fun v x y => if tyInt .i32 v = tyInt .i32 x then some y else none)
  | _ => none

/-- The memory operation that an atomic is (R232): codes 0 to 6 are those of the combiner, 7 is cas. The second operand is that of
a compare or of .spc. -/
def Sys2Proof.Claims.atomOf (i : Instr) (s : State) (p : Place) : Option MemOp :=
  let go := fun (code : Nat) (w64 : Bool) (d : Reg) (o : Ord) => some (s.memOpOf (.atom code w64) o p d.toNat (s.opD d)
    (if code = 7 ∨ o = .spc then (s.srcS (d + 1) 3).zeroExtend 256 else 0))
  match i with
  | .atomAdd d _ _ o => go 0 true d o
  | .atomAddI32 d _ _ o => go 0 false d o
  | .atomMin d _ _ o => go 1 true d o
  | .atomMinI32 d _ _ o => go 1 false d o
  | .atomMax d _ _ o => go 2 true d o
  | .atomMaxI32 d _ _ o => go 2 false d o
  | .atomAnd d _ _ o => go 3 true d o
  | .atomAndI32 d _ _ o => go 3 false d o
  | .atomOr d _ _ o => go 4 true d o
  | .atomOrI32 d _ _ o => go 4 false d o
  | .atomXor d _ _ o => go 5 true d o
  | .atomXorI32 d _ _ o => go 5 false d o
  | .atomXchg d _ _ o => go 6 true d o
  | .atomXchgI32 d _ _ o => go 6 false d o
  | .atomCas d _ _ o => go 7 true d o
  | .atomCasI32 d _ _ o => go 7 false d o
  | _ => none

/-- The operations that the near combiner takes (R234): their code, and whether they are of 64 bits. -/
def Sys2Proof.Claims.combines : Instr → Option (Nat × Bool)
  | .atomAdd .. => some (0, true)
  | .atomMin .. => some (1, true)
  | .atomMax .. => some (2, true)
  | .atomAnd .. => some (3, true)
  | .atomOr .. => some (4, true)
  | .atomXor .. => some (5, true)
  | .atomAddI32 .. => some (0, false)
  | .atomMinI32 .. => some (1, false)
  | .atomMaxI32 .. => some (2, false)
  | .atomAndI32 .. => some (3, false)
  | .atomOrI32 .. => some (4, false)
  | .atomXorI32 .. => some (5, false)
  | _ => none

/-- R232, R233, R221, R209: at a bank, an atomic reads the old value, stores the new one (its low 4 bytes for an .i32 code) unless
its compare fails, and lands the old value sign-extended within 6; both are one step of the bank's order. At a home slice, one that
is not combined is performed in the line's order: it finds the old value and the version, stores the new value as a write transaction
unless its compare or (.spc) its version fails, and lands the old value, and for .spc the version found, within 64. -/
def Obligations.AtomicsAreOneStepAtTheirPlace : Prop :=
  (∀ (i : Instr) (d a : Reg) (off : Byte) (o : Ord) (n : Nat) (f : Word → Word → Word → Option Word) (cl bo : Nat) (m : MemOp)
    (s : State), atomRow i = some (d, a, off, o, n, f) → Issues s → s.iss.rec_ = none → o ≠ .spc →
    s.check s.cur (s.ea a off n) n n [0, 1, 2, 4] permRW true = .bank cl bo → atomOf i s (.bank cl bo) = some m →
    let op := fun (wr : List Wr) =>
      { s.op (if bankSide (s.ea a off n) then 6 else 64) wr 0 .completed with late := !bankSide (s.ea a off n) }
    PerformedOrHeld i s (op []) m fun t =>
      let s0 := s.before s.cur (.bank cl bo) (isRel o)
      let old := BitVec.ofNat 64 (leNat (s0.bankLoad s.cur cl bo n))
      let s1 := match f old (s.opD d) (s.srcS (d + 1) 3) with
        | some v => s0.bankStore s.cur cl bo (leBytes n v.toNat)
        | none => s0
      ∃ v, Extends (if n = 8 then .i64 else .i32) (old.truncate _) v ∧
        t = withOp (s1.after s.cur (.bank cl bo) (isAcq o)) (op [wrS d v])) ∧
  ∀ (i : Instr) (d a : Reg) (off : Byte) (o : Ord) (n ia pol : Nat) (w : Window)
    (f : Word → Word → Word → Option Word) (m : MemOp) (s t0 : State) (bs : List Byte),
    atomRow i = some (d, a, off, o, n, f) → Issues s → s.iss.rec_ = none → ¬(o = .qnt ∧ (combines i).isSome) →
    s.check s.cur (s.ea a off n) n n (if o = .spc then [0, 4] else [0, 1, 2, 4]) permRW true = .home ia w pol →
    atomOf i s (.home ia w pol) = some m →
    let p := Place.home ia w pol
    let s0 := s.before s.cur p (isRel o)
    let a' := s0.acc s.cur w (.pod, s.cur)
    s0.homeLoad s.cur ia n a' true true = (t0, .ok bs) →
    let op := fun (wr : List Wr) => { s.op 64 wr 0 .completed with late := true }
    PerformedOrHeld i s (op []) m fun t =>
      let old := BitVec.ofNat 64 (leNat bs)
      let s1 := if o = .spc ∧ t0.verOf ia ≠ s.srcS (d + 1) 3 then t0
        else match f old (s.opD d) (s.srcS (d + 1) 3) with
          | some v => t0.homeStore s.cur ia (leBytes n v.toNat) a' true
          | none => t0
      ∃ v, Extends (if n = 8 then .i64 else .i32) (old.truncate _) v ∧
        t = withOp (s1.after s.cur p (isAcq o))
          (op (wrS d v :: if o = .spc then [wrN (d.toNat + 1) (t0.verOf ia)] else []))

/-- R234: a .qnt atomic whose key an entry of the cluster's near combiner has, with room for it, receives b op p as its old value;
the entry's pending operand becomes p op x, and nothing is written at home. One whose key no entry has opens one, the oldest of 32
flushed first: the word read at home is the base b and its old value, and its operand is pending. -/
def Obligations.CombinedAtomicsArePending : Prop :=
  ∀ (i : Instr) (d a : Reg) (off : Byte) (n ia code pol : Nat) (w64 : Bool) (w : Window)
    (f : Word → Word → Word → Option Word) (m : MemOp) (s : State),
    atomRow i = some (d, a, off, .qnt, n, f) → combines i = some (code, w64) → Issues s → s.iss.rec_ = none →
    s.check s.cur (s.ea a off n) n n [0, 1, 2, 4] permRW true = .home ia w pol → atomOf i s (.home ia w pol) = some m →
    let t0 := s.ahead s.cur ia w.world
    let cl := clusterOf s.cur
    let has := (t0.cl cl).comb.findIdx? fun e => e.has t0.trust.myIdx ia code w64 w.world
    let op := fun (wr : List Wr) => { s.op 64 wr 0 .completed with late := true }
    let pending := fun (p : Word) => if w64 then p else (p.truncate 32 : Syl).zeroExtend 64
    (∀ k e, has = some k → (t0.cl cl).comb[k]? = some e → e.op = code → e.w64 = w64 → e.count < 64 →
      PerformedOrHeld i s (op []) m fun t =>
        ∃ b p v, f e.base e.pend 0 = some b ∧ f e.pend (s.opD d) 0 = some p ∧
          Extends (if n = 8 then .i64 else .i32) (b.truncate _) v ∧
          t = withOp (t0.setCl cl { t0.cl cl with comb := (t0.cl cl).comb.set k { e with
              pend := pending p, count := e.count + 1 } })
            (op [wrS d v])) ∧
    ∀ t2 bs, has = none →
      let t1 := if 32 ≤ (t0.cl cl).comb.length then t0.flushComb cl 0 else t0
      t1.homeLoad s.cur ia n (t1.acc s.cur w (.pod, s.cur)) true = (t2, .ok bs) →
      let b := BitVec.ofNat 64 (leNat bs)
      PerformedOrHeld i s (op []) m fun t => ∃ v, Extends (if n = 8 then .i64 else .i32) (b.truncate _) v ∧
        t = withOp (t2.setCl cl { t2.cl cl with comb := (t2.cl cl).comb ++
            [⟨ia, t0.trust.myIdx, w.world, code, w64, b, pending (s.opD d), 1, t0.clock, s.cur⟩] })
          (op [wrS d v])

/-- R235, R236, R239, R240, R241: LDF goes to its slice with its destination undefined until an FWAIT; STF stores its word
as a write transaction; an MWAIT that issues has been woken, or sends its line's dirty bytes home and tests its page; PROBE lands
what the page's entry says; PFT only brings a line. -/
def Obligations.FuturesWaitsAndProbesComplete : Prop :=
  ∀ (d a : Reg) (off : Byte) (ia pol : Nat) (w : Window) (s : State), Issues s → s.iss.rec_ = none →
    let va := s.ea a off 8
    (s.check s.cur va 8 8 [0, 4] permR false = .home ia w pol →
      exec (.ldf d a off) s = .next (s.setMe { s.me with
        nextLdf := s.me.nextLdf + 1
        ldfs := s.me.ldfs ++ [{
          id := s.me.nextLdf + 1, syl := s.iss.syl, step := s.iss.step, dest := d.toNat, va := va, ia := ia
          member := s.trust.myIdx, world := w.world, at_ := .sent, val := 0, kind := 0, time := 0, gone := false }] })) ∧
    (s.check s.cur va 8 8 [0, 4] permW true = .home ia w pol →
      PerformedOrHeld (.stf d a off) s (s.op 0 [] 0 .completed) (s.memOpOf .stf .unp (.home ia w pol) 0 (s.opD d) 0) fun t =>
        t = s.homeStore s.cur ia (leBytes 8 (s.opD d).toNat) (s.acc s.cur w (.pod, s.cur)) true) ∧
    (s.check s.cur va 8 8 [0] permR false = .home ia w pol →
      (s.me.monitor ≠ none → exec (.mwait d a off) s = .next (s.setMe { s.me with monitor := none })) ∧
      (s.me.monitor = none →
        let t := (s.ahead s.cur ia w.world).noteWalk ia
        exec (.mwait d a off) s = .next (if (t.page ia false w.world).isSome then t else t.setAsync s.cur 0x20))) ∧
    (s.check s.cur va 1 1 [0] permR false = .home ia w pol →
      (∀ p, s.walk ia = some p → p.v = true → p.world = w.world → p.world = s.me.world.truncate 8 →
        ∃ v : Word, v.getLsbD 0 = true ∧ v.getLsbD 1 = p.w ∧ v.getLsbD 2 = p.fx ∧ v.extractLsb' 3 2 = p.cls ∧
          v.getLsbD 5 = p.tier ∧ v.getLsbD 6 = p.mig ∧ v.getLsbD 7 = false ∧ v.extractLsb' 8 8 = p.world ∧
          v.extractLsb' 16 48 = 0 ∧
          PerformedOrHeld (.probe d a off) s { s.op 64 [] 0 (.recorded va 0 false) with late := true }
            (s.memOpOf .probe .unp (.home ia w pol) d.toNat 0 0) fun t =>
              t = withOp (s.noteWalk ia) { s.op 64 [wrS d v] 0 (.recorded va 0 false) with late := true }) ∧
      ((∀ p, s.walk ia = some p → ¬(p.v = true ∧ p.world = w.world ∧ p.world = s.me.world.truncate 8)) →
        exec (.probe d a off) s = .next (s.fault (s.sylFault 0x04 va 0 64 [.s d.toNat])))) ∧
    (∀ c, s.check s.cur va 1 1 [0, 1, 2, 3, 4] permR false = .bad c → exec (.pft d a off) s = .next s) ∧
    (s.check s.cur va 1 1 [0, 1, 2, 3, 4] permR false = .home ia w pol →
      let held := s.mustHold s.cur (heldIn s.me.pend) (s.memOpOf .vget .unp (.home ia w pol) 0 0 0)
      (held = true ∨ d = 0 ∧ pol = 2 → exec (.pft d a off) s = .next s) ∧
      (held = false → d = 0 → pol ≠ 2 → ∀ t bs r, s.l1Load (coreOf s.cur) ia 1 pol (s.acc s.cur w (.pod, s.cur)) = (t, .ok bs, r) →
        exec (.pft d a off) s = .next t) ∧
      (held = false → d ≠ 0 → ∀ t bs, (s.ahead s.cur ia w.world).homeRead ia 1 (s.acc s.cur w (.pod, s.cur)) false = (t, .ok bs) →
        exec (.pft d a off) s = .next t))

/-- The byte at an IA as its home slice holds it. -/
def Sys2Proof.Claims.homeByte (s : State) (a : Nat) : Byte :=
  match (s.slice (homeSlice a)).lines.get? (a / 1024) with
  | some y => y.data.get (a % 1024)
  | none => 0

/-- Nothing keeps the dirty bytes of a core's L1 from going home: each is of world 0 and its sector is at its home slice, sound,
and no fill, deferral or transaction waits there; and context g has no LDF on its way. -/
def Sys2Proof.Claims.CleanHome (s : State) (g : Nat) : Prop :=
  s.late = [] ∧ (∀ k, (s.slice k).fills = [] ∧ (s.slice k).defer = []) ∧ (∀ l ∈ (s.ctx g).ldfs, l.at_ ≠ .sent) ∧
  ∀ key l, (s.core (coreOf g)).l1.get? key = some l → l.dirty ≠ 0 → key % 256 = 0 ∧
    ∃ y, (s.slice (homeSlice key)).lines.get? (key / 1024) = some y ∧ y.filled.getLsbD (key / 256 % 4) = true ∧
      y.poison.getLsbD (key / 256 % 4) = false

/-- Is an IA in a range that context g has bound to an object at a scope beyond its core? -/
def Sys2Proof.Claims.BoundAt (s : State) (g : Nat) (o : ObjId) (a : Nat) : Prop :=
  ∃ b, some b ∈ (s.ctx g).binds ∧ b.obj = o ∧ wide b.scope = true ∧ ∃ r ∈ b.spans, r.1 ≤ a ∧ a < r.1 + r.2

/-- Does such a range meet the 256-byte line of an IA? -/
def Sys2Proof.Claims.BoundLine (s : State) (g : Nat) (o : ObjId) (key : Nat) : Prop :=
  ∃ b, some b ∈ (s.ctx g).binds ∧ b.obj = o ∧ wide b.scope = true ∧
    ∃ r ∈ b.spans, r.1 < (key / 256 + 1) * 256 ∧ key / 256 * 256 < r.1 + r.2

/-- The L1 line of a key after it has been invalidated: gone, or left with what its tasks have buffered (R292). -/
def Sys2Proof.Claims.Dropped (l : L1Line) : Option L1Line → Prop
  | none => l.bufMask = 0
  | some z => z.dirty = 0 ∧ z.valid = l.bufMask ∧ z.bufs = l.bufs

/-- R254, R257, R258, R238: a release sends home the dirty L1 bytes of the ranges bound to its object, and no other dirty byte; an
acquire invalidates the lines of those ranges, dirty bytes first going home, and no other line; a FENCE of .clu, .dev or .pod does
both for the whole L1, and one of .ctx or .core does nothing to it. What tasks have buffered stays (R292). -/
def Obligations.ReleasesAndAcquiresMoveL1Bytes : Prop :=
  ∀ (g : Nat) (s : State), CleanHome s g →
    let line := fun (t : State) (key : Nat) => (t.core (coreOf g)).l1.get? key
    let sent := fun (t : State) (key j : Nat) (l : L1Line) => homeByte t (key + j) = l.pdata.get j
    (∀ o key, line s key = none → line (s.release g o) key = none ∧ line (s.acquire g o) key = none) ∧
    (∀ o key l, line s key = some l →
      (∃ z, line (s.release g o) key = some z ∧ z.valid = l.valid ∧ z.bufs = l.bufs ∧
        ∀ j < 256, (BoundAt s g o (key / 256 * 256 + j) →
            z.dirty.getLsbD j = false ∧ (l.dirty.getLsbD j = true → sent (s.release g o) key j l)) ∧
          (¬BoundAt s g o (key / 256 * 256 + j) → z.dirty.getLsbD j = l.dirty.getLsbD j)) ∧
      (BoundLine s g o key → Dropped l (line (s.acquire g o) key) ∧
        ∀ j < 256, l.dirty.getLsbD j = true → sent (s.acquire g o) key j l) ∧
      (¬BoundLine s g o key → ∃ z, line (s.acquire g o) key = some z ∧ z.valid = l.valid ∧ z.dirty = l.dirty ∧ z.bufs = l.bufs)) ∧
    ∀ sc, s.cur = g → Issues s →
      PerformedOrHeld (.fence sc) s (s.op 0 [] 0 .completed) (s.memOpOf (.fence sc) .unp (.bad 0) 0 0 0) fun t =>
        (wide sc = false → ∀ key, line t key = (line s key).map fun l => { l with by_ := l.by_.del g }) ∧
        (wide sc = true → (s.cl (clusterOf g)).comb = [] → ∀ key l, line s key = some l →
          Dropped l (line t key) ∧ ∀ j < 256, l.dirty.getLsbD j = true → sent t key j l)

/-- The registers of a context that memory operations do not write at their issue. -/
def Sys2Proof.Claims.SameRegisters (c d : Ctx) : Prop :=
  c.pc = d.pc ∧ c.s = d.s ∧ c.v = d.v ∧ c.p = d.p ∧ c.q = d.q ∧ c.f = d.f ∧ c.l = d.l ∧ c.bt = d.bt ∧ c.win = d.win ∧
  c.epc = d.epc ∧ c.estat = d.estat ∧ c.thv = d.thv ∧ c.slim = d.slim ∧ c.ftb = d.ftb ∧ c.rqb = d.rqb ∧ c.rqn = d.rqn ∧
  c.world = d.world ∧ c.rngs = d.rngs ∧ c.safeord = d.safeord ∧ c.hm = d.hm ∧ c.eng = d.eng ∧ c.tl = d.tl ∧
  c.loop = d.loop ∧ c.xfer = d.xfer ∧ c.steps = d.steps ∧ c.binds = d.binds ∧ c.regs = d.regs

/-- The instructions of the L and S slots. -/
def Sys2Proof.Claims.memoryOp : Instr → Bool
  | .ldI8 .. | .ldI16 .. | .ldI32 .. | .ldI64 .. | .ldN8 .. | .ldN16 .. | .ldN32 .. | .ldvec .. | .ldv .. | .ldf .. | .vget ..
  | .probe .. | .pft .. | .mwait .. | .st8 .. | .st16 .. | .st32 .. | .st64 .. | .stvec .. | .stf .. | .casv .. | .rel ..
  | .atomAdd .. | .atomMin .. | .atomMax .. | .atomAnd .. | .atomOr .. | .atomXor .. | .atomXchg .. | .atomCas ..
  | .atomAddI32 .. | .atomMinI32 .. | .atomMaxI32 .. | .atomAndI32 .. | .atomOrI32 .. | .atomXorI32 .. | .atomXchgI32 ..
  | .atomCasI32 .. | .fence .. | .valset .. => true
  | _ => false

/-- R19, R226, R232, R242: an operation of the L or S slot that issues writes no register, flag, special or engine register of any
context at its issue, and leaves every accumulator, lease and queue of the engines, the trust controller and, of the management
space, PTROOT, the grants of memory and the owners of the clusters; its results come with its landing. -/
def Obligations.MemoryOperationsWriteNoRegisterAtIssue : Prop :=
  ∀ (i : Instr) (s t : State), memoryOp i = true → Issues s → exec i s = .next t →
    (∀ g, SameRegisters (t.ctx g) (s.ctx g)) ∧ t.trust = s.trust ∧ t.mg.ptroot = s.mg.ptroot ∧ t.mg.grants = s.mg.grants ∧
    t.mg.owners = s.mg.owners ∧
    ∀ k, (t.cl k).acc = (s.cl k).acc ∧ (t.cl k).holder = (s.cl k).holder ∧ (t.cl k).mq = (s.cl k).mq ∧
      (t.cl k).vq = (s.cl k).vq ∧ (t.cl k).latch = (s.cl k).latch

/-- Does an operation access memory at its place: neither a FENCE, nor a PROBE, nor a command, nor the read of a CALLT? -/
def Sys2Proof.Claims.Accesses (m : MemOp) : Prop :=
  m.kind ≠ .callt ∧ m.kind ≠ .probe ∧ (∀ sc, m.kind ≠ .fence sc) ∧ (∀ e n c, m.kind ≠ .sync e n c)

/-- R206, R222 to R224, R254, R313: an operation waits behind an earlier one of its context that acquires, behind every earlier
one if it releases, behind one on a byte of its own, behind one on its own bank, and, at home, behind one on its line; an access to
a bank behind no other, and the read of a CALLT and a TLWAIT behind a CBSYNC alone. One that must wait stays as it is; one that need
not is performed, with the bindings of its issue, and its results are what memory answers then. That an operation waits in such a
queue while later bundles issue is the model's choice (log 102). -/
def Obligations.MemoryQueueKeepsItsOrder : Prop :=
  (∀ (g : Nat) (earlier : List MemOp) (e m : MemOp) (s : State), m.afterCbsync = false → e ∈ earlier →
    (e.acq = true → s.mustHold g earlier m = true) ∧ (m.rls = true → s.mustHold g earlier m = true) ∧
    (∀ c d o q, e.place = .bank c o → m.place = .bank d q → Accesses e → Accesses m → s.mustHold g earlier m = true) ∧
    ∀ ia ja v w pol pom, e.place = .home ia v pol → m.place = .home ja w pom → Accesses e → Accesses m →
      (ia < ja + m.size → ja < ia + e.size → s.mustHold g earlier m = true) ∧
      (ia / 1024 = ja / 1024 → e.atHome = true → m.atHome = true → s.mustHold g earlier m = true)) ∧
  (∀ (g c q : Nat) (earlier : List MemOp) (m : MemOp) (s : State), Accesses m → m.place = .bank c q → m.rls = false →
    (∀ e ∈ earlier, e.acq = false ∧ ∀ d o, e.place ≠ .bank d o) → s.mustHold g earlier m = false) ∧
  (∀ (g : Nat) (earlier : List MemOp) (m : MemOp) (s : State), m.afterCbsync = true →
    (s.mustHold g earlier m = true ↔ ∃ x ∈ earlier, x.isCbsync = true)) ∧
  ∀ (g i : Nat) (o : Op) (m : MemOp) (s : State), (s.ctx g).pend[i]? = some o → o.mem = some m →
    let earlier := heldIn ((s.ctx g).pend.take i)
    let u := s.bindsFor g m.binds
    (u.mustHold g earlier m = true → s.retryMem g i = s) ∧
    (u.mustHold g earlier m = false → Accesses m →
      let r := ({ u with iss := { s.iss with slot := 10000 + (m.step * 1024 + g) * 8 + m.slot } } : State).perform g m
      ∃ p, (s.retryMem g i).ctx g = { r.1.ctx g with
          binds := (s.ctx g).binds, pend := (r.1.ctx g).pend.set i p } ∧
        p.mem = none ∧ p.dests = o.dests ∧ p.wr = (r.2.1.filter fun w => !o.sup.contains w.reg) ∧ p.away = m.away ∧
        (p.landed = true ↔ m.dests = []) ∧
        (∀ h, h ≠ g → (s.retryMem g i).ctx h = r.1.ctx h) ∧ (s.retryMem g i).slices = r.1.slices ∧
        (s.retryMem g i).clusters = r.1.clusters)

/-! ### Floating point and vectors -/

/-- R93: the first NaN operand, quieted, with NV for a signalling one; r where no operand is NaN. -/
def Sys2Proof.Claims.nanRule (f : Ieee) (xs : List Nat) (r : Nat × Byte) : Nat × Byte :=
  match xs.filter f.isNan with
  | [] => r
  | x :: _ => (x ||| 2 ^ (f.mb - 1), if xs.any f.isSig then flagNV else 0)

/-- An exact result rounded once (R90); a NaN that the operation generates is canonical with NV (R93). -/
def Sys2Proof.Claims.rounded (f : Ieee) (rm : Rm) (v : Val) : Nat × Byte := if v.isNan then (f.canon, flagNV) else f.round rm v

/-- The element operations of R128 and R129, as functions of their operands' patterns. -/
def Sys2Proof.Claims.fAdd (f : Ieee) (m : Rm) (x y : Nat) : Nat × Byte :=
  nanRule f [x, y] (rounded f m (Val.add (m == .rdn) (f.val x) (f.val y)))
def Sys2Proof.Claims.fMul (f : Ieee) (m : Rm) (x y : Nat) : Nat × Byte :=
  nanRule f [x, y] (rounded f m (Val.mul (f.val x) (f.val y)))
def Sys2Proof.Claims.fMa (f : Ieee) (m : Rm) (x y z : Nat) : Nat × Byte :=
  nanRule f [x, y, z] (rounded f m (Val.add (m == .rdn) (Val.mul (f.val x) (f.val y)) (f.val z)))
def Sys2Proof.Claims.fMax (f : Ieee) (x y : Nat) : Nat × Byte :=
  nanRule f [x, y] (if (f.val x).lt (f.val y) then y else x, 0)

/-- The scalar rows of R128 to R130: operands, type and the pattern and flags that two patterns give. -/
def Sys2Proof.Claims.floatRow : Instr → Option (Reg × Reg × Src × FTy × (Nat → Nat → Nat × Byte))
  | .fadd d a b t m => some (d, a, b, t, fAdd (ieeeOf t) m)
  | .fsub d a b t m => some (d, a, b, t, fun x y => nanRule (ieeeOf t) [x, y]
      (rounded (ieeeOf t) m (Val.add (m == .rdn) ((ieeeOf t).val x) ((ieeeOf t).val y).negate)))
  | .fmul d a b t m => some (d, a, b, t, fMul (ieeeOf t) m)
  | .fmin d a b t => some (d, a, b, t, fun x y => nanRule (ieeeOf t) [x, y]
      (if ((ieeeOf t).val x).lt ((ieeeOf t).val y) then x else y, 0))
  | .fmax d a b t => some (d, a, b, t, fMax (ieeeOf t))
  | .fsgn d a b t g => some (d, a, b, t, fun x y =>
      (x % 2 ^ ((ieeeOf t).width - 1) + (if (match g with
        | .copy => (ieeeOf t).negOf y
        | .neg => !(ieeeOf t).negOf y
        | .xor => (ieeeOf t).negOf x != (ieeeOf t).negOf y) then 2 ^ ((ieeeOf t).width - 1) else 0), 0))
  | _ => none

/-- R127 to R131, R93, R111, R112: scalar floating-point operations round their exact result once, quiet the first NaN operand,
and write the pattern zero-extended with their flags, within 6 steps for FP64 and 4 otherwise; FCMP writes a predicate. The sign of
an FFMA of zeros is IEEE 754's, the model's choice (log 106). -/
def Obligations.ScalarFloatOperationsRoundOnce : Prop :=
  ∀ (i : Instr) (d a : Reg) (b : Src) (t : FTy) (f : Nat → Nat → Nat × Byte) (m : Rm) (c : FCond) (s : State), Issues s →
    let w := fun (x : Word) => x.toNat % 2 ^ (ieeeOf t).width
    let x := s.opA a
    let y := s.opBF b t
    let n := if t = .fp64 then 6 else 4
    (floatRow i = some (d, a, b, t, f) → exec i s = .next (withOp s
      (s.op n [wrS d (BitVec.ofNat 64 (f (w x) (w y)).1)] (f (w x) (w y)).2 (.recorded x y false)))) ∧
    (let r := fMa (ieeeOf t) m (w x) (w y) (w (s.srcS d 2));
      exec (.ffma d a b t m) s = .next (withOp s (s.op n [wrS d (BitVec.ofNat 64 r.1)] r.2 .completed))) ∧
    (let u := (ieeeOf t).val (w x)
     let v := (ieeeOf t).val (w y)
     let nan := u.isNan || v.isNan
     let sig := u.isSig || v.isSig
     let ans := match c with
        | .eq => u.eqNum v
        | .lt => u.ltNum v
        | .le => u.ltNum v || u.eqNum v
        | .un => nan
     let nv := match c with
        | .eq | .un => sig
        | .lt | .le => nan
     exec (.fcmp d a b t c) s = .next (withOp s
      (s.op n [wrP d (if ans then 0xFF else 0x00)] (if nv then flagNV else 0) (.recorded x y false))))

/-- R90: a value that the format holds rounds to itself with no flag. Any other magnitude below the largest lies between two
neighbouring patterns, and is inexact: RTZ gives the one nearer 0, RUP the one above the value and RDN the one below it, and RNE
the nearer one, of a tie the even one. -/
def Obligations.RoundingTakesTheNearestNeighbour : Prop :=
  ∀ (f : Ieee), f ∈ [fp64, fp32, fp16, bf16] →
    (∀ x m, x < 2 ^ f.width → f.isNan x = false → f.round m (f.val x) = (x, 0)) ∧
    ∀ (n : Bool) (m : Nat) (e : Int), 0 < m →
      let r := fun rm => f.roundFin rm n m e false
      let lo := (r .rtz).1
      lo < f.maxBits n →
      ∃ ml el mh eh, f.val lo = .fin n ml el ∧ f.val (lo + 1) = .fin n mh eh ∧ dyLe ml el m e = true ∧
        dyLe mh eh m e = false ∧
        (dyEq ml el m e = true → ∀ rm, r rm = (lo, 0)) ∧
        (dyEq ml el m e = false → (∀ rm, (r rm).2.getLsbD 0 = true) ∧
          (r .rup).1 = (if n then lo else lo + 1) ∧ (r .rdn).1 = (if n then lo + 1 else lo) ∧
          let sum := dyAdd ml el mh eh
          (r .rne).1 = if dyEq (2 * m) e sum.1 sum.2 then (if lo % 2 = 0 then lo else lo + 1)
            else if dyLe (2 * m) e sum.1 sum.2 then lo else lo + 1)

/-- R132, R112: the functions of one FP32 operand complete within 8 steps with the fixed cases of their table, and the RTZ results
of FRCP and FRSQ bracket the exact value. -/
def Obligations.FloatFunctionsMeetTheirTable : Prop :=
  (∀ (d a : Reg) (m : Rm) (s : State), Issues s →
    let go := fun k => Host.Outcome.next (withOp s (s.op 8
      [wrS d (BitVec.ofNat 64 (ffun k m ((s.opA a).toNat % 2 ^ 32)).1)] (ffun k m ((s.opA a).toNat % 2 ^ 32)).2
      (.recorded (s.opA a) 0 false)))
    exec (.frcp d a m) s = go .rcp ∧ exec (.frsq d a m) s = go .rsq ∧ exec (.fexp2 d a m) s = go .exp2 ∧
    exec (.flog2 d a m) s = go .log2) ∧
  (∀ m k, k ∈ [FFun.rcp, .rsq, .log2] →
    ffun k m 0 = (if k = .log2 then 0xFF800000 else 0x7F800000, flagDZ) ∧ ffun k m 0x80000000 = (0xFF800000, flagDZ)) ∧
  (∀ m, ffun .exp2 m 0 = (0x3F800000, 0) ∧ ffun .exp2 m 0x80000000 = (0x3F800000, 0) ∧
    ffun .rcp m 0x7F800000 = (0, 0) ∧ ffun .rcp m 0xFF800000 = (0x80000000, 0) ∧
    ffun .rsq m 0x7F800000 = (0, 0) ∧ ffun .rsq m 0xFF800000 = (0x7FC00000, flagNV) ∧
    ffun .exp2 m 0x7F800000 = (0x7F800000, 0) ∧ ffun .exp2 m 0xFF800000 = (0, 0) ∧
    ffun .log2 m 0x7F800000 = (0x7F800000, 0) ∧ ffun .log2 m 0xFF800000 = (0x7FC00000, flagNV) ∧
    ffun .log2 m 0x3F800000 = (0, 0)) ∧
  (∀ m x, 0x80000000 < x → x < 0xFF800000 →
    ffun .rsq m x = (0x7FC00000, flagNV) ∧ ffun .log2 m x = (0x7FC00000, flagNV)) ∧
  (∀ k m x, x < 2 ^ 32 → fp32.isNan x = true → ffun k m x = nanRule fp32 [x] (0, 0)) ∧
  ∀ x, 0 < x → x < 0x7F800000 → ∃ mx ex, fp32.val x = .fin false mx ex ∧
    (∀ lo, lo = (ffun .rcp .rtz x).1 → lo < 0x7F7FFFFF → ∃ ml el mh eh, fp32.val lo = .fin false ml el ∧
      fp32.val (lo + 1) = .fin false mh eh ∧ dyLe (ml * mx) (el + ex) 1 0 = true ∧ dyLe (mh * mx) (eh + ex) 1 0 = false) ∧
    ∀ lo, lo = (ffun .rsq .rtz x).1 → lo < 0x7F7FFFFF → ∃ ml el mh eh, fp32.val lo = .fin false ml el ∧
      fp32.val (lo + 1) = .fin false mh eh ∧ dyLe (ml * ml * mx) (2 * el + ex) 1 0 = true ∧
      dyLe (mh * mh * mx) (2 * eh + ex) 1 0 = false

/-- R108, R133, R134, R102, R104: FCVTI rounds to an integer, clamps with NV, and is extended; ICVTF rounds once; FCVT converts by
its mode, or by 16 bits drawn once, which advance RNGS at the end of the bundle and stay with its record. -/
def Obligations.FloatConversionsComplete : Prop :=
  ∀ (d a : Reg) (i : ITy) (t dt : FTy) (m : Rm) (s : State), Issues s → s.iss.ov = none → s.iss.rec_ = none →
    let x := s.opA a
    (∃ z fl, exec (.fcvti d a i t m) s = .next (withOp s (s.op 3 [wrS d (tyPut i z)] fl (.recorded x 0 false))) ∧
      match (ieeeOf t).val (x.toNat % 2 ^ (ieeeOf t).width) with
      | .nan _ => z = 0 ∧ fl = flagNV
      | .inf n => z = (if n then itMin i else itMax i) ∧ fl = flagNV
      | .fin n mm e =>
        let c := cutAt m n mm e false 0
        let k : Int := if n then -c.1 else c.1
        (k < itMin i → z = itMin i ∧ fl = flagNV) ∧ (k > itMax i → z = itMax i ∧ fl = flagNV) ∧
        (itMin i ≤ k → k ≤ itMax i → z = k ∧ fl = if c.2 then flagNX else 0)) ∧
    (let r := (ieeeOf t).roundFin m (decide (tyInt i x < 0)) (tyInt i x).natAbs 0 false;
      exec (.icvtf d a i t m) s = .next (withOp s (s.op 3 [wrS d (BitVec.ofNat 64 r.1)] r.2 (.recorded x 0 false)))) ∧
    (let f := fun t => fmtOf t fun k => vget s.me.f k 0
     let hold := (s.descOf t ++ s.descOf dt).zeroExtend 256
     (let r := convert (f t) (f dt) m none x.toNat;
      exec (.fcvt d a false t dt m) s = .next (withOp s
        { s.op 3 [wrS d (BitVec.ofNat 64 r.1)] r.2 (.recorded x 0 false) with hold := hold })) ∧
     let draw := srndDraw s.me.rngs
     let r := convert (f t) (f dt) m (some draw.2.toNat) x.toNat
     exec (.fcvt d a true t dt m) s = .next (withOp (s.atEnd (.rngs draw.1))
        { s.op 3 [wrS d (BitVec.ofNat 64 r.1)] r.2 (.recorded x (draw.2.zeroExtend 64) false) with hold := hold }))

/-- mag(k) of a narrow format (R97) in units of 2^q; q is at most its exponents. -/
def Sys2Proof.Claims.magAt (d : Syl) (q : Int) (k : Nat) : Nat :=
  (2 ^ dMB d + k % 2 ^ dMB d) * 2 ^ (((k / 2 ^ dMB d : Nat) : Int) - dBIAS d - dMB d - q).toNat

/-- A candidate of R98 as a magnitude, none being 0, and the candidate next above it. -/
def Sys2Proof.Claims.candAt (d : Syl) (q : Int) : Option Nat → Nat
  | none => 0
  | some k => magAt d q k
def Sys2Proof.Claims.candNext (neg : Bool) : Option Nat → Nat
  | none => if neg then 0 else 1
  | some k => k + 1

/-- top(s) and code(s, k) of R98, and the NaN code of R97. -/
def Sys2Proof.Claims.topIndex (d : Syl) (neg : Bool) : Nat :=
  2 ^ (dEB d + dMB d) - 1 - (if dNANR d = true ∧ (neg = true ↔ dS d = 1) then 1 else 0)
def Sys2Proof.Claims.codeOf (d : Syl) (neg : Bool) (k : Nat) : Nat := (if neg then 2 ^ (dEB d + dMB d) else 0) + k
def Sys2Proof.Claims.nanCode (d : Syl) : Nat := 2 ^ (dS d + dEB d + dMB d) - 1

/-- The code and flags of R98 for the candidate x that a mode has picked; `hit` says that it is the value itself. -/
def Sys2Proof.Claims.encoded (d : Syl) (rm : Rm) (neg : Bool) (x : Option Nat) (hit : Bool) : Nat × Byte :=
  match x with
  | none => (0, flagUF ||| flagNX)
  | some k =>
    if k ≤ topIndex d neg then (codeOf d neg k, if hit then 0 else flagNX)
    else if dSAT d = false ∧ dNANR d = true ∧ ¬(rm = .rtz ∨ rm = .rup ∧ neg = true ∨ rm = .rdn ∧ neg = false) then
      (nanCode d, flagOF ||| flagNX)
    else (codeOf d neg (topIndex d neg), flagOF ||| flagNX ||| flagSA)

/-- x is the largest candidate of a sign at most m·2^e, q being at most every exponent in question. -/
def Sys2Proof.Claims.IsFloor (d : Syl) (neg : Bool) (m : Nat) (e q : Int) (x : Option Nat) : Prop :=
  candAt d q x ≤ m * 2 ^ (e - q).toNat ∧ m * 2 ^ (e - q).toNat < magAt d q (candNext neg x) ∧
    ∀ k, x = some k → candNext neg none ≤ k

/-- R96 to R98, R102, R103: a narrow code decodes to a signed power of two with the hidden one, its all-zero code to +0 and the
all-ones code of a format with NANR to NaN. A value encodes to the candidate that the mode names of the two about it, to a tie's
even index and never away from 0, with the overflow, saturation and sign rules; a code that is no NaN encodes to itself. A
stochastic rounding takes the candidate above where the 16 bits drawn are below the value's fraction of the gap, of 65,536. -/
def Obligations.NarrowFormatsDecodeAndEncode : Prop :=
  (∀ (d : Syl) (c : Nat), dOk d = true → let w := dS d + dEB d + dMB d
    narrowDecode 0 c = .fin false 0 0 ∧ (∀ rm v, narrowEncode 0 rm v = (0, flagNV)) ∧
    narrowDecode d (c + 2 ^ w) = narrowDecode d c ∧ narrowDecode d 0 = .fin false 0 0 ∧
    (dNANR d = true → narrowDecode d (nanCode d) = .nan false) ∧
    (0 < c → c < 2 ^ w → ¬(dNANR d = true ∧ c = nanCode d) →
      let neg := decide (dS d = 1 ∧ 2 ^ (w - 1) ≤ c)
      let k := c % 2 ^ (dEB d + dMB d)
      (∃ m e, narrowDecode d c = .fin neg m e ∧
        ∀ q : Int, q ≤ e → q ≤ -dBIAS d - dMB d → m * 2 ^ (e - q).toNat = magAt d q k) ∧
      (∀ rm, narrowEncode d rm (narrowDecode d c) = (c, 0)))) ∧
  (∀ (d : Syl) (rm : Rm), dOk d = true →
    (∀ s, narrowEncode d rm (.nan s) = if dNANR d then (nanCode d, 0)
      else (codeOf d (decide (dS d = 1)) (topIndex d (decide (dS d = 1))), flagNV ||| flagSA)) ∧
    (∀ neg e, narrowEncode d rm (.fin neg 0 e) = (0, 0)) ∧
    (∀ m e, dS d = 0 → 0 < m → narrowEncode d rm (.fin true m e) = (0, flagSA ||| flagNX)) ∧
    (dS d = 0 → narrowEncode d rm (.inf true) = (0, flagSA ||| flagNX)) ∧
    (∀ neg, (neg = true → dS d = 1) → narrowEncode d rm (.inf neg) = encoded d rm neg (some (topIndex d neg + 1)) false) ∧
    ∀ (neg : Bool) (m : Nat) (e : Int), (neg = true → dS d = 1) → 0 < m →
      let q := min e (-dBIAS d - dMB d)
      let v := m * 2 ^ (e - q).toNat
      ∃ lo, IsFloor d neg m e q lo ∧
        let hi := candNext neg lo
        let sum := candAt d q lo + magAt d q hi
        let hit := decide (candAt d q lo = v)
        let x := if hit then lo else match rm with
          | .rtz => lo
          | .rup => if neg then lo else some hi
          | .rdn => if neg then some hi else lo
          | .rne => if 2 * v < sum then lo else if 2 * v = sum ∧ (∀ k, lo = some k → k % 2 = 0) then lo else some hi
        narrowEncode d rm (.fin neg m e) = encoded d rm neg x hit) ∧
  (∀ (d : Syl) (neg : Bool) (m r : Nat) (e : Int), dOk d = true → 0 < m → r < 65536 →
    (neg = true → dS d = 0 → (Fmt.narrow d).srnd (.fin neg m e) r = (0, flagSA ||| flagNX)) ∧
    ((neg = true → dS d = 1) →
      let q := min e (-dBIAS d - dMB d)
      let v := m * 2 ^ (e - q).toNat
      ∃ lo, IsFloor d neg m e q lo ∧
        let hi := candNext neg lo
        let hit := decide (candAt d q lo = v)
        let up := decide (r < (v - candAt d q lo) * 65536 / (magAt d q hi - candAt d q lo))
        (Fmt.narrow d).srnd (.fin neg m e) r = encoded d .rne neg (if !hit && up then some hi else lo) hit)) ∧
  (∀ (f : Ieee) (neg : Bool) (m r : Nat) (e : Int), f ∈ [fp64, fp32, fp16, bf16] → 0 < m → r < 65536 →
    let lo := (f.roundFin .rtz neg m e false).1
    lo < f.maxBits neg → ∃ ml el mh eh, f.val lo = .fin neg ml el ∧ f.val (lo + 1) = .fin neg mh eh ∧
      let q := min e (min el eh)
      let v := m * 2 ^ (e - q).toNat
      let l := ml * 2 ^ (el - q).toNat
      let h := mh * 2 ^ (eh - q).toNat
      l ≤ v ∧ v < h ∧ ((Fmt.ieee f).srnd (.fin neg m e) r).1 = (if r < (v - l) * 65536 / (h - l) then lo + 1 else lo) ∧
      (((Fmt.ieee f).srnd (.fin neg m e) r).2.getLsbD 0 = true ↔ l ≠ v)) ∧
  (∀ x : Word, let y := if x = 0 then 1 else x
    let a := y ^^^ (y <<< 13)
    let b := a ^^^ (a >>> 7)
    let z := b ^^^ (b <<< 17)
    srndDraw x = (z, z.extractLsb' 48 16)) ∧
  convert (.ieee fp32) (.ieee bf16) .rne (some 0x3000) 0x3F804000 = (0x3F81, flagNX) ∧
  convert (.ieee fp32) (.ieee bf16) .rne (some 0x8000) 0x3F804000 = (0x3F80, flagNX)

/-- The result v, with flags fl, of an operation k on each element of width w of n elements (R136). -/
def Sys2Proof.Claims.Elementwise (w n : Nat) (k : Nat → Nat × Byte) (v : Vec) (fl : Byte) : Prop :=
  (∀ i < n, (v.extractLsb' (w * i) w).toNat = (k i).1 % 2 ^ w) ∧ fl = (List.range n).foldl (fun a i => a ||| (k i).2) 0

/-- R136, R139, R112: VADD, VMUL and VFMA act element by element and OR their flags; VPACK converts sixteen FP32 lanes, lowest
first, into containers with 0 above them; VUNPK decodes eight containers from its part on. Each completes at a stop. The sign of a
VFMA of zeros is IEEE 754's, the model's choice (log 106). -/
def Obligations.VectorOperationsActByElement : Prop :=
  ∀ (d a : Reg) (b : Src) (t : FTy) (m : Rm) (part : BitVec 2) (s : State), Issues s → s.iss.rec_ = none →
    let w := (ieeeOf t).width
    let n := 256 / w
    let el := fun (x : Vec) w i => (x.extractLsb' (w * i) w).toNat
    let x := s.srcV a 0
    let y := s.opBV b t
    (∃ v fl, Elementwise w n (fun i => fAdd (ieeeOf t) m (el x w i) (el y w i)) v fl ∧
      exec (.vadd d a b t m) s = .next (withOp s (s.op 4 [wrV d v] fl .completed))) ∧
    (∃ v fl, Elementwise w n (fun i => fMul (ieeeOf t) m (el x w i) (el y w i)) v fl ∧
      exec (.vmul d a b t m) s = .next (withOp s (s.op 4 [wrV d v] fl .completed))) ∧
    (∃ v fl, Elementwise w n (fun i => fMa (ieeeOf t) m (el x w i) (el y w i) (el (s.srcV d 2) w i)) v fl ∧
      exec (.vfma d a b t m) s = .next (withOp s (s.op 4 [wrV d v] fl .completed))) ∧
    let g := fmtOf t fun k => vget s.me.f k 0
    let c := g.cont
    (c ≤ 16 → ∃ v fl, Elementwise c 16 (fun i => convert (.ieee fp32) g m none
        (if i < 8 then el x 32 i else el (s.opBV b .fp32) 32 (i - 8))) v fl ∧ v.toNat < 2 ^ (16 * c) ∧
      exec (.vpack d a b t m) s = .next (withOp s (s.op 3 [wrV d v] fl .completed))) ∧
    (c ≤ 16 → part.toNat < 32 / c → ∃ v fl,
      Elementwise 32 8 (fun i => convert g (.ieee fp32) .rne none (el x c (8 * part.toNat + i))) v fl ∧
      exec (.vunpk d a t part) s = .next (withOp s (s.op 3 [wrV d v] fl .completed)))

/-- The pairwise tree of R138 over 2^n elements from e on, its left operand first, with the flags of its operations. -/
def Sys2Proof.Claims.tree (k : Nat → Nat → Nat × Byte) (el : Nat → Nat) : Nat → Nat → Nat × Byte
  | 0, e => (el e, 0)
  | n + 1, e =>
    let l := tree k el n e
    let r := tree k el n (e + 2 ^ n)
    ((k l.1 r.1).1, l.2 ||| r.2 ||| (k l.1 r.1).2)

/-- R137: the bit and lane moves set no flag. R138: VREDADD and VREDMAX combine the elements of vA in a fixed pairwise tree, within
6 steps. -/
def Obligations.LaneMovesAndReductionsComplete : Prop :=
  (∀ (d a p : Reg) (b : Src) (s : State), Issues s →
    let x := s.srcV a 0
    let y := match b with
      | .reg r => s.srcV r 1
      | .bimm => splat (s.iss.bimm.zeroExtend 32)
    let k := (match b with
      | .reg r => (s.srcS r 1).toNat
      | .bimm => s.iss.bimm.toNat) % 8
    let lanes := fun (i : Instr) (l : Nat → BitVec 32) => ∃ v : Vec, (∀ j < 8, v.extractLsb' (32 * j) 32 = l j) ∧
      exec i s = .next (withOp s (s.op 4 [wrV d v] 0 .completed))
    exec (.vand d a b) s = .next (withOp s (s.op 4 [wrV d (x &&& y)] 0 .completed)) ∧
    exec (.vor d a b) s = .next (withOp s (s.op 4 [wrV d (x ||| y)] 0 .completed)) ∧
    lanes (.vshf d a b) (fun j => lane x ((y.extractLsb' (32 * j) 3).toNat)) ∧
    lanes (.vbcast d a) (fun _ => (s.srcS a 0).extractLsb' 0 32) ∧
    lanes (.vsel d a b p) (fun j => if (s.srcP p 2).getLsbD j then lane x j else lane y j) ∧
    lanes (.vins d a b) (fun j => if j = k then (s.srcS a 0).extractLsb' 0 32 else lane (s.srcV d 2) j) ∧
    exec (.vlane d a b) s = .next (withOp s (s.op 4 [wrS d ((lane x k).zeroExtend 64)] 0 .completed))) ∧
  ∀ (d a : Reg) (t : FTy) (m : Rm) (s : State), Issues s → t = .fp32 ∨ t = .bf16 ∨ t = .fp16 →
    let f := ieeeOf t
    let el := fun i => ((s.srcV a 0).extractLsb' (f.width * i) f.width).toNat
    let go := fun r : Nat × Byte => Host.Outcome.next (withOp s (s.op 6 [wrS d (BitVec.ofNat 64 r.1)] r.2 .completed))
    exec (.vredadd d a t m) s = go (tree (fAdd f m) el (if t = .fp32 then 3 else 4) 0) ∧
    exec (.vredmax d a t) s = go (tree (fMax f) el (if t = .fp32 then 3 else 4) 0)

/-! ### Steps, landing and stops -/

/-- R4, R13, R387: a step runs the next event of the agenda, then each syllable of the bundle that the event latched, by
`exec`; what waits and can be performed now is, each badger core executes an instruction, and the clocks move on, the reference
clock by 1600 MHz to the arithmetic clock's; every instruction answers. The model's choices: what a step is (log 3), that what
waits is tried at the end of each (log 6), and that a badger core executes one instruction in it (log 13). -/
def Obligations.StepRunsTheDecodedInstruction : Prop :=
  (∀ (i : Instr) (r : List Instr) (s : State), s.agenda = i :: r →
    (i.wf = true → s.allowed i = true → step s = match exec i { s with agenda := r } with
      | .next t => ticked (runItems 128 t)
      | o => o) ∧
    (i.wf = false → s.allowed i = true → step s = .fault .illFormed) ∧
    (s.allowed i = false → step s = .next ({ s with agenda := r } : State).tick)) ∧
  (∀ (t : Todo) (r : List Todo) (n : Nat) (s : State), s.iss.todo = t :: r → s.iss.mode ≠ .reissue →
    runItems (n + 1) s = match exec t.instr { s with iss := { s.iss with
        todo := r, slot := t.slot, syl := t.syl, bimm := t.bimm, step := t.step, ov := t.ov, rec_ := t.rec_ } } with
      | .next u => runItems n (u.endItem t.instr)
      | o => o) ∧
  (∀ n s, s.iss.todo = [] → runItems n s = .next s.finish) ∧
  (∀ s : State, ticked (.next s) = .next s.retry.badgerSteps.tick ∧ s.tick = { s with
    fresh := s.fresh + 1, clock := s.clock + 1, refClock := s.refClock + (s.refPart + refParts s.mg.clkMHz) / 720720
    refPart := (s.refPart + refParts s.mg.clkMHz) % 720720
    agenda := if (s.clock + 1) % 65536 = 0 then .slotTableTurn :: s.agenda else s.agenda
    mg := { s.mg with thCount := if s.mg.clkMHz < 1600 then s.mg.thCount + 1 else s.mg.thCount } }) ∧
  (∀ mhz, mhz % 100 = 0 → 800 ≤ mhz → mhz ≤ 1600 → refParts mhz * mhz = 1600 * 720720) ∧
  ∀ i s, ∃ t, exec i s = .next t

/-- The running context g presents a bundle, and nothing of it is outstanding: no transfer, loop, wait, report or result. -/
structure Sys2Proof.Claims.Turn (s : State) (g : Nat) : Prop where
  runs : (s.core (coreOf g)).running = some (g % 4)
  slot : (s.core (coreOf g)).fenced = false ∧ (s.core (coreOf g)).frozen ≤ s.clock
  able : s.presentable g = true ∧ (s.ctx g).status = .ready
  free : (s.ctx g).async = none ∧ (s.ctx g).phsw = none ∧ (s.ctx g).waitPh = none ∧ (s.ctx g).xfer = none ∧
    (s.ctx g).loop = none ∧ (s.ctx g).redo = none ∧ (s.ctx g).pend = [] ∧ (s.ctx g).tent = [] ∧ s.cbHeld g = false ∧
    (s.ctx g).report = []

/-- Its address passes the fetch bounds (R143). -/
structure Sys2Proof.Claims.Presents (s : State) (g : Nat) : Prop extends Turn s g where
  at_ : s.fetchBad g (s.ctx g).pc.toNat (s.bundleAt g (s.ctx g).pc.toNat).length = false

/-- R13, R15, R33, R37, R57, R58, R340: a bundle that R56 and R58 accept and that no syllable holds is latched, decoded from its
bytes at the program counter, with those of its syllables that its guard leaves; nothing but its own status, the issue slot and
the debug counters changes. The module's step then executes them. The check of a breakpoint is skipped where a RESUME from its stop
has said so (R367). -/
def Obligations.BundlesIssueAsTheyDecode : Prop :=
  ∀ (g : Nat) (s : State), Presents s g →
    let c := s.ctx g
    let b := decodeBundle (s.bundleAt g c.pc.toNat)
    let u := { s with cur := g, iss := Iss.none }
    let ts := live (u.guard b.hdr c.steps) (todoOf b c.steps)
    illegalAt false false b = none → u.privileged (todoOf b c.steps) = false → s.breaks g c.pc.toNat b.hdr.stop = false ∨ c.skipBp = true →
    (∀ t ∈ ts, u.holdsBundle t = false) →
    ∃ t, exec (.bundleIssue (coreOf g)) s = .next t ∧ t.cur = g ∧
      t.iss = { Iss.none with
        mode := .bundle, addr := c.pc, len := b.hdr.len, stop := b.hdr.stop, bimm := b.hdr.bimm, step := c.steps, todo := ts } ∧
      t.ctx g = { c with status := .ready, blocked := none } ∧ (∀ h, h ≠ g → t.ctx h = s.ctx h) ∧
      t.slices = s.slices ∧ t.hbm = s.hbm ∧ t.far = s.far ∧ t.hostMem = s.hostMem ∧ t.mg = s.mg ∧ t.trust = s.trust ∧
      t.gangs = s.gangs ∧ t.outbox = s.outbox ∧ (∀ k, { t.cl k with dbg := (s.cl k).dbg } = s.cl k) ∧
      ∀ k, { t.core k with
        running := (s.core k).running, loopBuf := (s.core k).loopBuf, frozen := (s.core k).frozen } = s.core k

/-- A context outside handler mode whose stop finds nothing to record, and whose handler lies in a running half. -/
def Sys2Proof.Claims.Unrecorded (s : State) (g : Nat) : Prop :=
  (s.ctx g).pend = [] ∧ (s.ctx g).ldfs = [] ∧ (s.ctx g).xfer = none ∧ (s.ctx g).loop = none ∧ (s.ctx g).phsw = none ∧
  (s.ctx g).redo = none ∧ (s.ctx g).tent = [] ∧ (s.ctx g).hm = false ∧ (∀ e ∈ (s.core (coreOf g)).cbuf, e.g ≠ g) ∧
  (s.core (coreOf g)).running_ (s.ctx g).thv.toNat = true

/-- From s to t context g has taken a stop with no record: handler mode at THV, EPC, RQN and ESTAT as R342 and R343 have them, every
register as it was. -/
def Sys2Proof.Claims.Entered (s t : State) (g cause slot reason : Nat) (epc : Word) : Prop :=
  (t.ctx g).status = .ready ∧ (t.ctx g).hm = true ∧ (t.ctx g).pc = (s.ctx g).thv ∧ (t.ctx g).epc = epc ∧ (t.ctx g).rqn = 0 ∧
  (t.ctx g).estat = ((s.ctx g).estat &&& 0xFF) ||| BitVec.ofNat 64 (cause * 2 ^ 8 + slot * 2 ^ 16 + reason * 2 ^ 20) ∧
  ∀ r, (t.ctx g).reg r = (s.ctx g).reg r

/-- The operations that only handler mode may issue (R337, R336, R358). -/
def Sys2Proof.Claims.handlerOnly : Instr → Prop
  | .mtc _ r => r ∈ [CReg.epc, .thv, .rqb, .rqn, .safeord, .world]
  | .resume | .winset _ _ _ _ => True
  | _ => False

/-- R33, R56 to R58, R143, R337, R340, R358, R367, R368: a bundle presented outside handler mode does not issue but stops, in this
order: at an address that fails the fetch bounds (0x09); where it is illegal (0x06), with the lowest slot index, the header's 8 first,
and its reason; where a syllable is privileged (0x07); at a breakpoint on its ordinal (0x0A), with SAFEORD. A STOP bundle of a
stepped context is followed by the single-step stop (0x0B). -/
def Obligations.PresentedBundlesTakeTheirStops : Prop :=
  (∀ (g : Nat) (s : State), Turn s g → Unrecorded s g →
    let c := s.ctx g
    let a := c.pc.toNat
    let bs := s.bundleAt g a
    let b := decodeBundle bs
    let bad := s.fetchBad g a bs.length
    let ill := illegalAt false false b
    let o := s.ordinalAt g a
    let stops := fun cause slot reason (k : State → Prop) => ∃ t, exec (.bundleIssue (coreOf g)) s = .next t ∧
      Entered s t g cause slot reason c.pc ∧ (t.ctx g).steps = c.steps ∧ k t
    (bad = true ↔ a % 4 ≠ 0 ∨ 0x20000 ≤ a ∨ (s.core (coreOf g)).running_ a = false ∨
      a / 0x10000 ≠ (a + bs.length - 1) / 0x10000) ∧
    (bad = true → stops 0x09 15 0 fun _ => True) ∧
    (bad = false → ∀ k r, ill = some (k, r) → stops 0x06 k r fun _ => True) ∧
    (bad = false → ill = none → (∃ y ∈ todoOf b c.steps, handlerOnly y.instr) → stops 0x07 15 0 fun _ => True) ∧
    (bad = false → ill = none → ({ s with cur := g, iss := Iss.none } : State).privileged (todoOf b c.steps) = false →
      c.skipBp = false → b.hdr.stop = true → o ≠ 0 →
      (∃ r < 8, let w := vget (s.cl (clusterOf g)).dbg.bp r 0
        w.getLsbD 63 = true ∧ w.getLsbD (32 + memberOf g) = true ∧ bits w 31 0 = o.toNat) →
      stops 0x0A 15 0 fun t => (t.ctx g).safeord = o.zeroExtend 64)) ∧
  (∀ bs : List Byte, let b := decodeBundle bs
    let beside := ∃ y ∈ b.syls, y.dec = .ok .resume ∧ 1 < b.syls.length
    (illegalAt false false b = none ↔ b.hdr.guardOk = true ∧ ¬beside ∧ ∀ y ∈ b.syls, ∃ i, y.dec = .ok i) ∧
    (b.hdr.guardOk = false → illegalAt false false b = some (8, 6)) ∧
    (b.hdr.guardOk = true → beside → illegalAt false false b = some (0, 5)) ∧
    ∀ k r, b.hdr.guardOk = true → ¬beside → illegalAt false false b = some (k, r) →
      ∃ y ∈ b.syls, ∃ why, y.slot.index = k ∧ y.dec = .error why ∧ why.code = r ∧
        ∀ z ∈ b.syls, z.slot.index < k → ∃ i, z.dec = .ok i) ∧
  ∀ (k : Nat) (s : State), BundleEnds { s with iss := { s.iss with stop := false } } → s.iss.stop = true → Unrecorded s s.cur →
    (s.cl (clusterOf s.cur)).dbg.step.getLsbD (memberOf s.cur) = true →
    ∃ t, runItems k s = .next t ∧ Entered s t s.cur 0x0B 15 0 (s.iss.addr + BitVec.ofNat 64 s.iss.len) ∧
      (t.ctx s.cur).steps = s.me.steps + 1

/-- A register that the machine has (R27 to R29), and what it holds once a result x has been written to it: s0 and p0 stay as they
read (R28), a narrower register takes the low bits. -/
def Sys2Proof.Claims.IsReg : RegN → Prop
  | .s i | .v i => i < 32
  | .p i => i < 48
  | .q i => i < 16
  | .bt i => i < 4
def Sys2Proof.Claims.held : RegN → Vec → Vec
  | .s i, x => if i = 0 then 0 else (x.truncate 64 : Word).zeroExtend 256
  | .p i, x => if i = 0 then 0xFF else (x.truncate 8 : Byte).zeroExtend 256
  | .v _, x => x
  | .q _, x | .bt _, x => (x.truncate 64 : Word).zeroExtend 256

/-- R19, R21, R28, R92, R228, R361: a landing result writes each of its registers, be it one or a pair, an s, v, p, q or bt
register, ORs its flags into ESTAT and changes no other register; of two operations with one destination the younger one's value
stays, whichever lands first. A VALSET writes 0xFF where its set checks out as it lands and 0x00 otherwise; an LDV issued before it
lands first, its pair in the set, and one still to be performed, or an acquire, is waited for. -/
def Obligations.ResultsLandInOrder : Prop :=
  (∀ (g : Nat) (o : Op) (r : List Op) (s : State), (s.ctx g).pend = o :: r → o.landed = false → o.check = none → o.mem = none →
    ∃ c, exec (.resultLand g 0) s = .next (s.setCtx g c) ∧ c.estat = (s.ctx g).estat ||| o.flags.zeroExtend 64 ∧
      (∀ q, (∀ w ∈ o.wr, w.reg ≠ q) → c.reg q = (s.ctx g).reg q) ∧
      ∀ (i : Nat) (w : Wr), o.wr[i]? = some w → IsReg w.reg → (∀ y ∈ o.wr.drop (i + 1), y.reg ≠ w.reg) →
        c.reg w.reg = held w.reg w.val) ∧
  (∀ (g : Nat) (d : RegN) (x y : Vec) (o p : Op) (r : List Op) (s : State), (s.ctx g).pend = o :: p :: r →
    o.landed = false → p.landed = false → o.check = none → p.check = none → o.mem = none → p.mem = none → IsReg d →
    d ∈ o.dests → d ∈ p.dests → o.wr.filter (·.reg == d) = [⟨d, x⟩] → p.wr.filter (·.reg == d) = [⟨d, y⟩] →
    (∃ t u, exec (.resultLand g 1) s = .next t ∧ exec (.resultLand g 0) t = .next u ∧ (u.ctx g).reg d = held d y) ∧
    ∃ t u, exec (.resultLand g 0) s = .next t ∧ exec (.resultLand g 0) t = .next u ∧ (u.ctx g).reg d = held d y) ∧
  (∀ (g d : Nat) (x : VSet) (o : Op) (s : State), o.landed = false → o.check = some x → o.mem = none → 0 < d → d < 48 →
    o.wr = [⟨.p d, 0⟩] →
    (∀ r, (s.ctx g).pend = o :: r → ∃ t, exec (.resultLand g 0) s = .next t ∧
      (t.ctx g).reg (.p d) = (if s.validates x then 0xFF else 0x00) ∧ ∀ q, q ≠ .p d → (t.ctx g).reg q = (s.ctx g).reg q) ∧
    ∀ l r, (s.ctx g).pend = l :: o :: r → l.landed = false →
      (∀ m, l.mem = some m → m.acq = true ∨ m.kind = .ldv → s.land g 1 = s) ∧
      ∀ e v pair, l.mem = none → l.check = none → l.ldv = some pair → 0 < e → e < 32 → l.wr = [⟨.s e, v⟩] →
        ∃ t, exec (.resultLand g 1) s = .next t ∧ (t.ctx g).reg (.s e) = held (.s e) v ∧
          (t.ctx g).reg (.p d) = if s.validates (x.join pair) then 0xFF else 0x00)

/-- R15, R146, R182, R239, R311, R367: a resolved branch goes on or back. The tentative bundles of a right prediction count as
steps, in order, and their commit-buffer entries are released; a breakpoint stops before its bundle. Those of a wrong one leave
nothing. An arm that has stalled for 16 clocks blocks its context; a
released entry is latched; a monitored wait or a back-off that has ended makes its context ready. -/
def Obligations.ContextEventsComplete : Prop :=
  (∀ (g : Nat) (x : Xfer) (v : Byte) (s : State), (s.ctx g).xfer = some x → x.kind = .br → x.left = 0 → x.val = some v →
    (∀ o ∈ (s.ctx g).pend, o.landed = true) →
    let taken := v.getLsbD 0 ^^ x.neg
    (x.arm_ = false → exec (.branchResolve g) s = .next (s.setCtx g { s.ctx g with
      xfer := none, pc := if taken then x.target else (s.ctx g).pc })) ∧
    (x.arm_ = true → taken ≠ x.arm → ∃ t, exec (.branchResolve g) s = .next t ∧
      t.ctx g = { s.ctx g with xfer := none, tent := [], pc := if taken then x.target else x.fall } ∧
      (t.core (coreOf g)).cbuf = ((s.core (coreOf g)).cbuf.filter fun e => e.g != g || e.released) ∧
      (t.core (coreOf g)).stalled = none) ∧
    (x.arm_ = true → taken = x.arm → (∀ b ∈ (s.ctx g).tent, s.breaks g b.addr.toNat b.stop = false ∧ s.stepped g b.stop = false) →
      let n := (s.ctx g).steps + (s.ctx g).tent.length
      ∃ t, exec (.branchResolve g) s = .next t ∧ (t.core (coreOf g)).stalled = none ∧ (t.ctx g).xfer = none ∧
        (t.ctx g).tent = [] ∧ (t.ctx g).steps = n ∧ (t.ctx g).pc = (s.ctx g).pc ∧ (t.ctx g).status = (s.ctx g).status ∧
        (∀ r, (t.ctx g).reg r = (s.ctx g).reg r) ∧ (t.ctx g).estat = (s.ctx g).estat ∧
        (t.core (coreOf g)).cbuf = (s.core (coreOf g)).cbuf.filterMap fun e =>
          if e.g ≠ g ∨ e.released = true then some e
          else if (s.ctx g).steps ≤ e.step ∧ e.step < n then some { e with released := true } else none) ∧
    (∀ b r, x.arm_ = true → taken = x.arm → (s.ctx g).tent = b :: r → s.breaks g b.addr.toNat b.stop = true →
      (s.ctx g).skipBp = false → (s.settle g).2 = some ⟨0x0A, 15, 0, 0, b.addr⟩ ∧
        ((s.settle g).1.ctx g).steps = (s.ctx g).steps)) ∧
  (∀ (g t0 : Nat) (x : Xfer) (s : State), (s.ctx g).xfer = some x → x.arm_ = true → (s.ctx g).brDone x = false →
    (s.core (coreOf g)).stalled = some t0 → (s.core (coreOf g)).running = some (g % 4) → t0 + 16 ≤ s.clock →
    (s.ctx g).status = .ready →
    ∃ t, exec (.armStallTimeout g) s = .next t ∧ t.ctx g = { s.ctx g with
        status := .waiting, blocked := some s.clock, xfer := some { x with blocked := true } } ∧
      { t.core (coreOf g) with frozen := (s.core (coreOf g)).frozen } =
        { s.core (coreOf g) with running := none, last := g % 4, stalled := none }) ∧
  (∀ (k : Nat) (e : CbEntry) (r : List CbEntry) (i : Instr) (s : State), (s.core k).cbuf = e :: r → e.released = true →
    decodeSyl .x e.syl = .ok i → (s.ctx e.g).phsw = none → (s.releaseItem e i).blockedBy i = false →
    ∃ t, exec (.commitBufferRelease k) s = .next t ∧ t.cur = e.g ∧ t.iss.mode = .release ∧
      t.iss.todo.map (fun y => (y.instr, y.syl, y.bimm, y.step, y.ov)) = [(i, e.syl, e.bimm, e.step, some (e.opa, e.opb))] ∧
      t.core k = { s.core k with cbuf := r } ∧ t.ctxs = s.ctxs) ∧
  ∀ (g : Nat) (s : State),
    let up := fun (c : Ctx) => { c with status := if (s.ctx g).status = .waiting then .ready else (s.ctx g).status }
    (∀ m, (s.ctx g).monitor = some m →
      (∃ t, exec (.mwaitSpuriousWake g) s = .next t ∧ t.ctx g = up { s.ctx g with monitor := some { m with woken := true } }) ∧
      (m.limit ≠ 0 → m.since + m.limit ≤ s.clock → ∃ t, exec (.mwaitTimeout g) s = .next t ∧
        t.ctx g = up { s.ctx g with monitor := some { m with woken := true } })) ∧
    ∀ t0, (s.ctx g).backoff = some t0 → t0 ≤ s.clock → ∃ t, exec (.fwaitBackoffExpire g) s = .next t ∧ t.ctx g = up (s.ctx g)

/-- R342, R343, R345: a stop whose records are written enters handler mode at THV with RQN, EPC and ESTAT set and the
validation set, loop and transfer set aside; every register keeps its value. R340, R352: a fatal cause, or a stop in handler
mode (0x26), ends the context with its cause and its dump next. -/
def Obligations.StopsEnterTheHandler : Prop :=
  (∀ (q : StopReq) (recs : List Written) (s u : State), q.cause < 0x20 → s.me.hm = false → recs.length ≤ 64 →
    s.putRecords s.cur s.me.rqb recs = some u → (u.core (coreOf s.cur)).running_ s.me.thv.toNat = true →
    let c := (s.takeStop q recs).me
    c.hm = true ∧ c.pc = s.me.thv ∧ c.epc = q.epc ∧ c.rqn = BitVec.ofNat 64 recs.length ∧
    c.estat = (s.me.estat &&& 0xFF) ||| BitVec.ofNat 64 (q.cause * 2 ^ 8 + q.slot * 2 ^ 16 + q.reason * 2 ^ 20 + q.tcode * 2 ^ 32) ∧
    c.vset = ⟨[], false⟩ ∧ c.loop = none ∧ c.xfer = none ∧ (∀ r, c.reg r = s.me.reg r) ∧ c.eng = s.me.eng ∧ c.tl = s.me.tl ∧
    c.win = s.me.win ∧ c.rqb = s.me.rqb ∧ c.thv = s.me.thv ∧ c.slim = s.me.slim ∧ c.ftb = s.me.ftb ∧ c.world = s.me.world ∧
    (u.enterHandler q recs).me.aside = some ⟨s.me.vset, s.me.loop, s.me.xfer, s.me.steps⟩) ∧
  ∀ (q : StopReq) (recs : List Written) (s : State), 0x20 ≤ q.cause ∨ s.me.hm = true →
    ∃ u : State, s.takeStop q recs = u.owlStop (if 0x20 ≤ q.cause then q.cause else 0x26) ∧ u.me.status = .fatal ∧
      u.me.cause = (if 0x20 ≤ q.cause then q.cause else 0x26) ∧ u.me.epc = q.epc ∧ u.agenda = .fatalStop s.cur :: s.agenda ∧
      (u.core (coreOf s.cur)).running = none ∧ ∀ h, h ≠ s.cur → u.ctx h = s.ctx h

/-- A record of R346 as its 32 bytes hold it. -/
structure Sys2Proof.Claims.RecordIs (w : Written) (syl : Syl) (slot rem step : Nat) (opa opb : Word)
    (cause : Nat) (f v k s : Bool) : Prop where
  size : w.bytes.length = 32
  syl : fld w.bytes 0 4 = syl.toNat
  ord : fld w.bytes 4 2 = step % 65536
  rem : fld w.bytes 6 1 = rem
  slot : fld w.bytes 7 1 = slot
  opa : fld w.bytes 8 8 = opa.toNat
  opb : fld w.bytes 16 8 = opb.toNat
  none : fld w.bytes 24 4 = 0
  cause : fld w.bytes 28 1 = cause
  bits : fld w.bytes 29 3 = f.toNat + 2 * v.toNat + 4 * k.toNat + 8 * s.toNat

/-- A context that a stop finds with these operations, and with no transfer, LDF, PHSW or commit-buffer entry. -/
def Sys2Proof.Claims.Has (s : State) (os : List Op) : Prop :=
  s.me.pend = os ∧ s.me.xfer = none ∧ s.me.ldfs = [] ∧ s.me.phsw = none ∧ ∀ e ∈ (s.core (coreOf s.cur)).cbuf, e.g ≠ s.cur

/-- R344, R346 to R348, R112, R147, R182, R242, R303: what the records of a stop hold, one for each operation that is recorded, in
queue order: the syllable, the slot, the steps to the bound, the ordinal and the captured words, with F and the cause of a faulting
syllable, V of an LDV, K, and S where a younger operation has written a destination, which then keeps that value. They stand in the
record area 32 bytes apart. -/
def Obligations.RecordsHoldTheirOperations : Prop :=
  (∀ (fs : List SylFault) (s : State), (s.gatherRecords fs).2.Pairwise fun x y =>
    x.step < y.step ∨ x.step = y.step ∧ x.slot ≤ y.slot) ∧
  (∀ (o : Op) (a b : Word) (k : Bool) (s : State), Has s [o] → o.form = .recorded a b k → o.landed = false → o.sup = [] →
    o.slot < 8 → ∃ w, (s.gatherRecords []).2 = [w] ∧
      RecordIs w o.syl o.slot (min 255 (o.step + o.bound - (s.me.steps - 1))) o.step a b 0 false o.isLdv k false) ∧
  (∀ (o p : Op) (d : RegN) (x : Vec) (a b : Word) (k : Bool) (s : State), Has s [o, p] → o.form = .recorded a b k →
    p.form = .completed → o.landed = false → p.landed = false → o.sup = [] → o.dests = [d] → p.dests = [d] → p.mem = none →
    p.check = none → p.wr = [⟨d, x⟩] → IsReg d → o.slot < 8 →
    (o.step < p.step ∨ o.step = p.step ∧ o.slot < p.slot) → ∃ w, (s.gatherRecords []).2 = [w] ∧
      RecordIs w o.syl o.slot (min 255 (o.step + o.bound - (s.me.steps - 1))) o.step a b 0 false o.isLdv k true ∧
      (s.gatherRecords []).1.me.reg d = held d x) ∧
  (∀ (f : SylFault) (s : State), Has s [] → f.xfer = none → f.slot < 8 → f.cause < 256 → ∃ w, (s.gatherRecords [f]).2 = [w] ∧
    RecordIs w f.syl f.slot (if f.bound = 0 then 0 else min 255 (s.iss.step + f.bound - (s.me.steps - 1))) s.iss.step
      f.opa f.opb f.cause true f.ldv f.keep false) ∧
  (∀ (x : Xfer) (s : State), Has (s.setMe { s.me with xfer := none }) [] → s.me.xfer = some x → x.left ≤ 2 →
    x.lost = [] → x.p < 48 → ∃ w, (s.gatherRecords []).2 = [w] ∧ RecordIs w x.syl 0 x.left x.step x.target
      (if x.kind = .br then BitVec.ofNat 64 (x.p + 64 * x.neg.toNat + 128 * x.arm.toNat) else 0) 0 false false true false) ∧
  (∀ (l : Ldf) (s : State), Has (s.setMe { s.me with ldfs := [] }) [] → s.me.ldfs = [l] → l.at_ ≠ .answered → l.gone = false →
    ∃ w, (s.gatherRecords []).2 = [w] ∧ RecordIs w l.syl 3 0 l.step l.va 0 0 false false false false) ∧
  (∀ (e : CbEntry) (r : List CbEntry) (s : State), s.me.pend = [] → s.me.xfer = none → s.me.ldfs = [] → s.me.phsw = none →
    (s.core (coreOf s.cur)).cbuf = e :: r → e.g = s.cur → e.released = true → (∀ y ∈ r, y.g ≠ s.cur) →
    ∃ w, (s.gatherRecords []).2 = [w] ∧ RecordIs w e.syl 6 0 e.step e.opa e.opb 0 false false true false) ∧
  (∀ (p : PhWait) (s : State), Has (s.setMe { s.me with phsw := none }) [] → s.me.phsw = some p → (s.phswWait s.cur).2 = true →
    ∃ w, (s.gatherRecords []).2 = [w] ∧ RecordIs w p.syl 6 0 p.step p.ptr p.phase 0 false false false false) ∧
  ∀ (g ia pol : Nat) (va : Word) (win : Window) (w : Written) (ws : List Written) (s : State), tagOf va = 0 →
    (s.locate g va 32 permW = .home ia win pol → s.putRecords g va (w :: ws) =
      (s.storeAt g (.home ia win pol) w.bytes false (s.ctx g).holds.isSome).putRecords g (va + 32) ws) ∧
    (∀ c, s.locate g va 32 permW = .bad c → s.putRecords g va (w :: ws) = none)

/-! ### Encodings and invariants -/

/-- Worked encodings of 05_instr_scalar, 07_instr_engines, 09_instr_memory and 17_traps decode to what they stand for. -/
def Obligations.WorkedEncodingsDecode : Prop :=
  decodeTableWord 32 0x25100123 = some (.movh 4 0 0x123) ∧
  decodeTableWord 32 0x26184147 = some (.lea 6 4 (.reg 5) .spd 3) ∧
  decodeTableWord 32 0x27144192 = some (.cmp 5 4 (.reg 6) .i32 .lt) ∧
  decodeTableWord 32 0x52144FEA = some (.ldI32 5 4 0xFE .acq) ∧
  decodeTableWord 32 0x570C4020 = some (.ldvec 3 4 2 .unp) ∧
  decodeTableWord 32 0x63502060 = some (.st64 20 2 6 .unp) ∧
  decodeTableWord 32 0x78000003 = some (.fence .dev) ∧
  decodeTableWord 32 0x871461E9 = some (.fcmp 5 6 (.reg 7) .fp32 .lt) ∧
  decodeTableWord 32 0xC0030D00 = some (.erw 0 12 (.reg 13) 0) ∧
  decodeTableWord 32 0xE210007F = some (.qset 1 0x7F) ∧
  decodeTableWord 32 0x09000123 = some (.trap 0x123) ∧
  decodeTableWord 32 0x0A000000 = some .resume

/-- R41, R48 to R56: the word of every well-formed instruction decodes, in every slot of its class, to that instruction with each
operand at the value it had; the word of a NOP is a bundle of its own (R35). -/
def Obligations.EncodedInstructionsDecodeToThemselves : Prop :=
  ∀ (i : Instr) (w : Syl), i.wf = true → encode i = some w →
    match i with
    | .nop stop gn gp hint bimm =>
      decodeBundle (bytesOfWord w) = ⟨⟨0, stop, gn, gp, hint, bimm⟩, []⟩ ∧ firstIllegal ⟨⟨0, stop, gn, gp, hint, bimm⟩, []⟩ = none
    | _ => (∃ k : Slot, classOf (opOf w) = some k.cls) ∧ ∀ k : Slot, classOf (opOf w) = some k.cls → decodeSyl k w = .ok i

/-- R376, R380, R381, R387, R284, R333: the module right after reset is legal. -/
def Obligations.ResetIsLegal : Prop := Legal State.reset

/-- R376, R380, R387, R284, R333: every step from a legal state leaves a legal one. -/
def Obligations.StepsKeepTheModuleLegal : Prop := ∀ s t : State, Legal s → step s = .next t → Legal t

/-- R333: the next one-time index never falls, whatever happens: not even through a reset, a loss of power or a function-level
reset. -/
def Obligations.NextOneTimeIndexNeverFalls : Prop :=
  ∀ s t : State, step s = .next t → s.trust.xmss ≤ t.trust.xmss

/-- R284, R376, R380, R381, R387: the bring-up stage, READY, FAIL, THROT, PCAP, the clock and AGEB change by a reset, bring-up,
throttling, a thermal trip, a loss of power or a write of the management space, and by no other instruction or event. -/
def Obligations.ManagementFieldsChangeByTheirEventsAlone : Prop :=
  ∀ (i : Instr) (s t : State), exec i s = .next t →
    (match i with
      | .powerOnReset | .powerLoss | .bringupStageDone _ _ | .throttle | .throttleRelease | .thermalTrip
      | .registerWrite _ _ _ _ => False
      | _ => True) →
    t.mg.stage = s.mg.stage ∧ t.mg.ready = s.mg.ready ∧ t.mg.fail = s.mg.fail ∧ t.mg.throt = s.mg.throt ∧
    t.mg.pcap = s.mg.pcap ∧ t.mg.clkMHz = s.mg.clkMHz ∧ t.mg.ageb = s.mg.ageb

/-! ### Synchronisation -/

/-- complete(P) of R302: each phase that has all its arrivals completes, at most two in a row. -/
def Sys2Proof.Claims.completeOne (p : PhRec) : PhRec :=
  if p.nreg ≠ 0 ∧ p.narr = p.nreg then { p with phase := p.phase + 1, narr := p.nnext, nnext := 0 } else p
def Sys2Proof.Claims.completed (p : PhRec) : PhRec := completeOne (completeOne p)

/-- From s, an instruction issues command c of engine e, u being s but for what the instruction changes at once. The command takes
the next number; where nothing before it or about it waits, it is performed, `done` saying how, from the state that the release at
its issue leaves; else it waits in the memory queue and the instruction is complete. -/
def Sys2Proof.Claims.CommandIssues (i : Instr) (s u : State) (e : Nat) (c : SyncCmd) (done : State → Word → State → Prop) : Prop :=
  let v := u.number s.cur e
  let n := v.me.issued e
  let m := v.syncOp e n c
  n = u.me.issued e + 1 ∧
  (v.mustHold s.cur (heldIn v.me.pend) m = false → v.syncWaits s.cur c = false →
    ∃ t, exec i s = .next t ∧ done (v.release s.cur (.timeline e)) n t) ∧
  (v.mustHold s.cur (heldIn v.me.pend) m = true ∨ v.syncWaits s.cur c = true →
    exec i s = .next (withOp v { v.op (if m.dests.isEmpty then 0 else 64) [] 0 .stays with
      dests := m.dests, mem := some m, late := !m.dests.isEmpty }))

/-- R301 to R304, R178, R179, R295, of a phaser whose record no context has stored into: PHREG joins a phaser with its phase, PHSIG
and PHSW arrive at the phase that the context owes or at the next, PHDROP takes a registration and its arrivals back, each
completing what phases it can, two where it can; PHWAIT acquires once its bundle has waited, PHSW leaves its wait to the next
bundle; a context that is not registered, and a ninth registration, is refused. The model's choices: that a command behind a memory
operation waits in the memory queue, its instruction complete (log 102), and that a repeated PHREG completes at eight registrations
too (log 24). -/
def Obligations.PhaserCommandsComplete : Prop :=
  ∀ (a : Reg) (b : Src) (cl off : Nat) (s : State), Issues s →
    let P := (cl, off)
    let va := s.opA a
    (s.phPlace s.cur va = some P → CommandIssues (.phreg a) s s 5 (.phreg cl off) fun w n t =>
      let p := w.phGet cl off
      (w.me.reg? P = none → w.me.regs.length < 8 → (w.cl cl).broken.contains off = false →
        t.phGet cl off = { p with nreg := p.nreg + 1 } ∧ t.phActive cl off = true ∧
        t.me.regs = w.me.regs ++ [⟨cl, off, p.phase⟩] ∧ t.me.issued 5 = n) ∧
      (w.me.reg? P = none → w.me.regs.length ≥ 8 → t = w.refuseCmd s.cur 5 n) ∧
      (w.me.reg? P ≠ none → t = w.complete s.cur 5 n)) ∧
    (∀ x, s.held? va = some x → x.cl = cl → x.off = off →
      (CommandIssues (.phsig a) s s 5 (.phsig cl off) fun w n t => ∀ r, w.me.reg? P = some r →
        let y := w.release s.cur (.phaser cl off)
        let p := y.phGet cl off
        (y.cl cl).broken.contains off = false →
        t.phGet cl off = completed (if r.owed = p.phase then { p with narr := p.narr + 1 } else { p with nnext := p.nnext + 1 }) ∧
        t.me.reg? P = some { r with owed := r.owed + 1 } ∧ t.me.issued 5 = n) ∧
      (∃ t, exec (.phsig a) s = .next t ∧
        exec (.phsw a) s = .next (t.setMe { t.me with phsw := some ⟨cl, off, x.owed, s.iss.syl, s.iss.step, va⟩ })) ∧
      CommandIssues (.phdrop a) s s 5 (.phdrop cl off) fun w n t => ∀ r, w.me.reg? P = some r →
        let p := w.phGet cl off
        let q := { p with
          nreg := p.nreg - 1
          narr := if p.phase.toNat + 1 ≤ r.owed.toNat then p.narr - 1 else p.narr
          nnext := if r.owed = p.phase + 2 then p.nnext - 1 else p.nnext }
        (w.cl cl).broken.contains off = false →
        t.me.reg? P = none ∧ t.me.issued 5 = n ∧
        t.phGet cl off = (if q.nreg = 0 then { q with phase := q.phase + 1 } else completed q) ∧
        (q.nreg = 0 → t.phActive cl off = false)) ∧
    (s.phRefused va b = false → s.phPlace s.cur va = some P → CommandIssues (.phwait a b) s s 5 (.phwait cl off) fun w n t =>
      t = (w.acquire s.cur (.phaser cl off)).complete s.cur 5 n) ∧
    (s.held? va = none → exec (.phsig a) s = .next (s.refuse 5) ∧ exec (.phsw a) s = .next (s.refuse 5) ∧
      exec (.phdrop a) s = .next (s.refuse 5)) ∧
    (s.phPlace s.cur va = none → exec (.phreg a) s = .next (s.refuse 5)) ∧
    (s.phRefused va b = true → exec (.phwait a b) s = .next (s.refuse 5)) ∧
    (s.me.status = .ready → (s.refuse 5).me.estat = s.me.estat ||| 0x10 ∧
      (s.refuse 5).me.er 5 62 = s.me.issued 5 + 1 ∧ (s.refuse 5).me.issued 5 = s.me.issued 5 + 1)

/-- R299, R264, R265, R255, R305, R306, R269, R270, R309 to R313: a TLWAIT that has waited acquires its timeline and drops the
L1 lines of what its commands wrote in device memory; BIND fills the lowest empty entry with the object and the ranges that its
base has now, UNBIND empties the entries that name it; CBSYNC sends the dirty lines of its ranges home and drops the copies of
control blocks there; TKGET answers the record of the task it takes, of the one held, 0, or all ones, and lands as it is
performed; TKDONE commits the task, gives it up and decrements its successors; FWAIT reports the LDFs before it that it covers, and
forgets them at the end of its bundle. That a command with a memory operation before it waits in the memory queue, its instruction
complete, is the model's choice (log 102). -/
def Obligations.SynchronisationCommandsComplete : Prop :=
  ∀ (a : Reg) (b : Src) (e : BitVec 4) (s : State), Issues s → s.iss.ov = none → s.iss.rec_ = none →
    PerformedOrHeld (.tlwait e a b) s (s.op 0 [] 0 .completed) (s.syncOp e.toNat (s.tlTarget e a b) .tlwait) (fun t =>
      t = (s.acquire s.cur (.timeline e.toNat)).dropOutputs s.cur e.toNat (s.tlTarget e a b)) ∧
    (let o := s.srcS a 0
     let base := s.srcS (a + 1) 2
     let ctl := s.opB b
     ∀ k sp, s.bindObj (bits ctl 37 35) o = some k → bits ctl 63 38 = 0 → bits ctl 34 32 ≤ 4 → tagOf base = 0 →
      s.me.bindCount < 16 → s.spans base (if bits ctl 31 0 = 0 then 2 ^ 32 else bits ctl 31 0) = .ok sp →
      exec (.bind a b) s = .next (s.setMe { s.me with binds := fillBind ⟨k, o, base, ctl, sp⟩ s.me.binds })) ∧
    exec (.unbind 0 (.reg 0)) s = .next (s.setMe { s.me with binds := [] }) ∧
    (¬(a = 0 ∧ b = .reg 0) → ∃ bs : List (Option Bind),
      exec (.unbind a b) s = .next (s.setMe { s.me with binds := bs }) ∧ bs.length = s.me.binds.length ∧
      ∀ (i : Nat) (x : Bind), s.me.binds[i]? = some (some x) →
        bs[i]? = some (if x.raw = s.srcS a 0 ∧ x.base = s.srcS (a + 1) 2 ∧ bits x.ctl 37 0 = bits (s.opB b) 37 0
          then none else some x)) ∧
    (∀ sp, tagOf (s.opA a) = 0 → s.spans (s.opA a) (bits (s.opB b) 31 0) = .ok sp →
      PerformedOrHeld (.cbsync a b) s (s.op 0 [] 0 .completed) (s.syncOp 0 0 (.cbsync sp)) fun t => t = sp.foldl
        (fun t r => (t.l1SendRange (coreOf s.cur) r.1 r.2 (.dev, s.cur)).dropCopies r.1 r.2)
        (s.performLdfs s.cur fun _ => true)) ∧
    CommandIssues (.tkget a) s s 6 (.tkget a.toNat) (fun w n t =>
      let gets := fun v (u : State) => t = ((withOp u { u.op 64 [wrS a v] 0 .stays with late := true }).landOne s.cur
        u.me.pend.length).complete s.cur 6 n
      (w.gangOf s.cur = none → gets 0xFFFFFFFFFFFFFFFF w) ∧
      ∀ x j, w.gangOf s.cur = some (x, j) → (x.pool = none → gets 0xFFFFFFFFFFFFFFFF w) ∧
      ∀ p, x.pool = some p →
        (∀ k, w.me.task = some k → gets (p.base + BitVec.ofNat 64 (64 * k)) w) ∧
        (w.me.task = none → p.halted = true ∨ (∀ k ∈ p.tasks, k.done = true) → gets 0xFFFFFFFFFFFFFFFF w) ∧
        (w.me.task = none → p.halted = false → (∃ k ∈ p.tasks, k.done = false) →
          (w.firstTask x p s.cur = none → gets 0 w) ∧
          ∀ i k, w.firstTask x p s.cur = some i → p.tasks[i]? = some k →
            let v := w.setGang { x with pool := some (p.setTask i { k with ready := none, holder := some s.cur }) }
            gets (p.base + BitVec.ofNat 64 (64 * i)) ((v.setMe { v.me with task := some i }).acquire s.cur .pool))) ∧
    (s.me.task ≠ none ∨ (∃ m ∈ heldIn s.me.pend, m.isTask = true) → CommandIssues .tkdone s s 6 .tkdone fun w n t =>
      ∀ i, s.me.task = some i →
        let y := (w.release s.cur .pool).commitTask s.cur
        let v := y.setCtx s.cur { y.ctx s.cur with task := none }
        ∀ x j p k, v.gangOf s.cur = some (x, j) → x.pool = some p → p.tasks[i]? = some k →
          let q := p.setTask i { k with done := true, holder := none }
          let r := (v.setGang { x with pool := some q }).successors x q s.cur i
          t = (r.1.decrements x q s.cur i r.2).complete s.cur 6 n) ∧
    (s.me.task = none → (∀ m ∈ heldIn s.me.pend, m.isTask = false) → exec .tkdone s = .next (s.refuse 6)) ∧
    ∃ u : State, CommandIssues (.fwait a) s u 7 .done (fun w n t => t = w.complete s.cur 7 n) ∧
      (let ls := s.me.covered a s.iss.step
       (∀ l, l ∈ ls ↔ l ∈ s.me.ldfs ∧ l.step < s.iss.step ∧ (a = 0 ∨ l.dest = a.toNat)) ∧
       u.iss.ends = s.iss.ends ++ [.covered (ls.map (·.id))] ∧ u.me.ldfs = s.me.ldfs ∧ u.me.backoff = none ∧
       (∀ v : State, ((v.applyEnd s.cur (.covered (ls.map (·.id)))).ctx s.cur).ldfs =
         (v.ctx s.cur).ldfs.filter fun l => !(ls.any fun x => x.id == l.id)) ∧
       ((u.me.er 7 0).getLsbD 0 = true ↔ ∃ l ∈ ls, l.kind = 1) ∧ ((u.me.er 7 0).getLsbD 1 = true ↔ ∃ l ∈ ls, l.kind = 2) ∧
       (∀ r < 64, (u.me.er 7 1).getLsbD r = true ↔ ∃ l ∈ ls, l.kind = 1 ∧ l.dest = r) ∧
       (∀ r < 64, (u.me.er 7 2).getLsbD r = true ↔ ∃ l ∈ ls, l.kind = 2 ∧ l.dest = r) ∧
       u.me.nb = if ls.any (fun l => l.kind == 1) then s.me.nb + 1 else 0)

/-! ### Engines -/

/-- The matrix commands whose tiles their registers name (R184, R186, R188): whether the registers are accepted, the input tiles
and the output tiles. -/
def Sys2Proof.Claims.tileRow (c : Cmd) : Instr → Option (Bool × List (Word × Nat) × List (Word × Nat))
  | .mma x y => some (c.mmaOk x, c.mmaTiles x y false, [])
  | .mmas x y => some (c.mmaOk x, c.mmaTiles x y true, [])
  | .accrd t => some (c.accOk t, [], [c.accTile t])
  | .accwr t => some (c.accOk t, [c.accTile t], [])
  | .accz => some (c.geomOk, [], [])
  | _ => none

/-- R174 to R181, R158, R185 to R193, R245, R246, R248, R250, R196, R197, R300: an accepted command captures its engine's
registers, the descriptors, the windows and the world, takes the next number, and joins its core's table with the scratchpad
ranges it reads and writes, behind the memory operations before it, a COLL with its group record read at issue or, behind a
CBSYNC that waits, once that has been performed (the model's choices, log 102); one whose registers or tiles are not accepted is refused, with
NV and its number in LASTREF (an ACCRD or ACCWR with K = 0 is accepted, the model's choice, log 108). An MFREE without the lease completes at once; a VECOP.srnd advances its generator by all its draws; a
BMSG goes to the slice of its target. ERD, TLREAD, QLD, QMOV and QSET give their values. -/
def Obligations.EngineCommandsAreCapturedOrRefused : Prop :=
  (∀ (e : Nat) (i : Instr) (s : State), let c := s.capture e i
    c.instr = i ∧ c.g = s.cur ∧ c.eng = e ∧ c.n = 0 ∧ c.taint = [] ∧ c.aux = [] ∧ (∀ k < 16, c.reg k = s.me.er e k) ∧ c.fmts = s.me.f.toList ∧
    c.win = s.me.win.toList ∧ c.world = s.me.world) ∧
  (∀ (c : Cmd) (s : State), c.eng < 10 → c.g = s.cur → Issues s →
    let v := s.number s.cur c.eng
    let n := v.me.issued c.eng
    let m := v.syncOp c.eng n (.submit c)
    n = s.me.issued c.eng + 1 ∧
    (v.mustHold s.cur (heldIn v.me.pend) m = false →
      let w := v.release s.cur (.timeline c.eng)
      s.enqueue c = w.setCore (coreOf s.cur) { w.core (coreOf s.cur) with
        tdt := (w.core (coreOf s.cur)).tdt ++ [⟨{ c with n := n }, false⟩] }) ∧
    (v.mustHold s.cur (heldIn v.me.pend) m = true →
      s.enqueue c = withOp v { v.op 0 [] 0 .stays with mem := some m })) ∧
  (∀ (e : Nat) (s : State), e < 10 → s.me.status = .ready → (s.refuse e).me.estat = s.me.estat ||| 0x10 ∧
    (s.refuse e).me.er e 62 = s.me.issued e + 1 ∧ (s.refuse e).me.issued e = s.me.issued e + 1) ∧
  (∀ (i : Instr) (ok : Bool) (ins outs : List (Word × Nat)) (s : State), let c := s.capture 0 i
    tileRow c i = some (ok, ins, outs) →
    (∀ x y, ok = true → s.tiles s.cur ins = some x → s.tiles s.cur outs = some y →
      exec i s = .next (s.enqueue { c with ins := x, outs := y })) ∧
    (ok = false ∨ s.tiles s.cur ins = none ∨ s.tiles s.cur outs = none → exec i s = .next (s.refuse 0))) ∧
  (∀ s : State, exec .mlease s = .next (s.enqueue (s.capture 0 .mlease))) ∧
  (∀ s : State, Issues s → let c := s.capture 0 .mfree
    CommandIssues .mfree s s 0 (.submit c) fun w n t =>
      ((w.cl (clusterOf s.cur)).holder = some s.cur → t = w.enter { c with n := n }) ∧
      ((w.cl (clusterOf s.cur)).holder ≠ some s.cur → t = w.complete s.cur 0 n)) ∧
  (∀ (t : FTy) (s : State), Issues s → let c := s.capture 1 (.mgath t)
    let ok := bits (c.reg 2) 63 16 = 0 ∧ bit (c.reg 2) 7 = false ∧ c.gLen * 8 % c.cont t = 0 ∧ tagOf (c.reg 1) = 1 ∧
      s.spdRange s.cur (c.reg 0) (4 * c.gRows) ≠ none
    (ok → CommandIssues (.mgath t) s s 1 (.submit { c with ins := s.gathWhole c }) fun w n u =>
      ∀ r, w.spdRange s.cur (c.reg 0) (4 * c.gRows) = some r →
        ((∃ e ∈ (w.core (coreOf s.cur)).tdt, e.cmd.g = s.cur ∧ ∃ o ∈ e.cmd.outs, meets r o = true) →
          u = w.enter { c with n := n, ins := w.gathWhole c }) ∧
        ((∀ e ∈ (w.core (coreOf s.cur)).tdt, e.cmd.g = s.cur → ∀ o ∈ e.cmd.outs, meets r o = false) →
          (∀ x, w.tiles s.cur (c.gSources (w.cl (clusterOf s.cur)).spad) = some x → u = w.enter { c with n := n, ins := r :: x }) ∧
          (w.tiles s.cur (c.gSources (w.cl (clusterOf s.cur)).spad) = none → u = w.refuseCmd s.cur 1 n))) ∧
    (¬ok → exec (.mgath t) s = .next (s.refuse 1))) ∧
  (∀ (o : VOp) (ins outs : List (Word × Nat)) (x y : List (Nat × Nat)) (s : State), let c := s.capture 2 (.vecop o)
    c.vecTiles o = some (ins, outs) → s.tiles s.cur ins = some x → s.tiles s.cur outs = some y →
    let u := s.enqueue { c with ins := x, outs := y, rng := c.reg 12 }
    exec (.vecop o) s = .next (if o = .srnd
      then u.setMe (u.me.setEr 2 12 (drawMany (nestSize (nestCounts (c.reg 0))) (c.reg 12))) else u)) ∧
  (∀ (i : Instr) (s : State), Issues s → i = .cpy ∨ i = .cpyd → let c := s.capture 3 i
    let ok := c.copyOk = true ∧ (i = .cpyd → s.cpydOk c = true) ∧
      ∀ t < c.copyN, (s.elemPlace c false t).good = true ∧ (s.elemPlace c true t).good = true
    let x := { c with ins := s.copyRange c false, outs := s.copyRange c true }
    (ok → CommandIssues i s s 3 (.submit x) fun w n t =>
      t = (w.sendInputs s.cur (w.copySpans c false)).enter { x with n := n }) ∧
    (¬ok → exec i s = .next (s.refuse 3))) ∧
  (∀ s : State, Issues s → let c := s.capture 9 .ifill
    (s.ifillOk c = true → CommandIssues .ifill s s 9 (.submit c) fun w n t => t = w.enter { c with n := n }) ∧
    (s.ifillOk c = false → exec .ifill s = .next (s.refuse 9))) ∧
  (∀ (t : FTy) (o : COp) (s : State), Issues s → let c := s.capture 4 (.coll t o)
    let held := heldIn s.me.pend
    let waits := s.mustHold s.cur held (s.syncOp 4 0 (.submit c)) = true ∨ s.spansWait s.cur (s.collSpans c c.collIns) = true
    let sync := ∃ m ∈ held, m.isCbsync = true
    (c.collRegsOk = false → exec (.coll t o) s = .next (s.refuse 4)) ∧
    (c.collRegsOk = true → ¬sync → waits →
      (∀ v, s.grouped c = (v, none) → exec (.coll t o) s = .next (v.refuse 4)) ∧
      ∀ v d, s.grouped c = (v, some d) → CommandIssues (.coll t o) s v 4 (.submit d) fun w n u =>
        u = (w.sendInputs s.cur (w.collSpans d d.collIns)).enter { d with n := n }) ∧
    (c.collRegsOk = true → sync ∨ ¬waits → CommandIssues (.coll t o) s s 4 (.submit (s.collGuess c)) fun w n u =>
      (∀ v, w.grouped c = (v, none) → u = v.refuseCmd s.cur 4 n) ∧
      ∀ v d, w.grouped c = (v, some d) → u = (v.sendInputs s.cur (v.collSpans d d.collIns)).enter { d with n := n })) ∧
  (∀ (c : Cmd) (s : State), (∀ v, s.readGroup c = (v, none) → s.grouped c = (v, none)) ∧
    ∀ v es, s.readGroup c = (v, some es) → (∀ e ∈ es, bits e 63 18 = 0) ∧
      let ok := (∃ m, es[c.collRank]? = some m ∧ bits m 7 0 = v.trust.myIdx ∧ bits m 17 8 = c.g) ∧
        (∀ x ∈ c.collIns, v.collTile c permR x = true) ∧ ∀ x ∈ c.collOuts es.length, v.collTile c permW x = true
      (ok → s.grouped c = (v, some { c with
        aux := es, ins := v.collRanges c c.collIns, outs := v.collRanges c (c.collOuts es.length) })) ∧
      (¬ok → s.grouped c = (v, none))) ∧
  (∀ (t r : Nat) (w v : Window) (l k : Nat) (s : State), Issues s → let c := s.capture 8 .bmsg
    tagOf (c.reg 0) = 0 → tagOf (c.reg 1) = 0 → (c.reg 1).toNat % 8 = 0 →
    s.tilePlace c (c.reg 0) 1 permR = .home t w l → s.tilePlace c (c.reg 1) 8 permW = .home r v k →
    CommandIssues .bmsg s s 8 (.bmsg c) fun x n u =>
      x.tilePlace c (c.reg 0) 1 permR = .home t w l → x.tilePlace c (c.reg 1) 8 permW = .home r v k →
      ∃ m, (u.slice (homeSlice t)).coming.getLast? = some m ∧ m.kind = 3 ∧ m.ia = r ∧
        m.msg0 = c.reg 2 ∧ m.msg1 = c.reg 3 ∧ m.g = s.cur ∧ m.n = n ∧ m.world = v.world ∧ m.ver = 0) ∧
  ∀ (e : BitVec 4) (a n : Reg) (imm : BitVec 12) (b : Byte) (cl off : Nat) (s : State), Issues s → s.iss.ov = none →
    exec (.erd e a n) s = .next (withOp s (s.op 4 [wrS a (s.me.er e.toNat n.toNat)] 0
      (.recorded (s.me.er e.toNat n.toNat) 0 false))) ∧
    exec (.tlread e a) s = .next (withOp s (s.op 4 [wrS a (vget s.me.tl e.toNat 0)] 0
      (.recorded (vget s.me.tl e.toNat 0) 0 false))) ∧
    exec (.qmov e a) s = .next (withOp s (s.op 1 [⟨.q e.toNat, (s.srcS a 0).zeroExtend 256⟩] 0 .completed)) ∧
    (∃ v : Word, (∀ i < 8, v.extractLsb' (8 * i) 8 = b) ∧
      exec (.qset e b) s = .next (withOp s (s.op 1 [⟨.q e.toNat, v.zeroExtend 256⟩] 0 .completed))) ∧
    (let va := s.srcS a 0 + 8 * imm.signExtend 64
     s.check s.cur va 8 8 [1, 2, 3] permR false = .bank cl off → s.unsettled cl off 8 = false →
      exec (.qld e a imm) s = .next (withOp s (s.op 6
        [⟨.q e.toNat, BitVec.ofNat 256 (leNat ((s.cl cl).spad.read off 8))⟩] 0 (.recorded va 0 false))))

/-- A command of the table that may start: the k-th entry of a core's table. -/
def Sys2Proof.Claims.Ready (s : State) (core k : Nat) (c : Cmd) : Prop :=
  ∃ e, (s.core core).tdt[k]? = some e ∧ e.cmd = c ∧ startable (s.core core).tdt k = true

/-- R158 to R160, R165, R178 to R180, R185, R187, R188, R190, R195, R245 to R247, R249, R366: a command starts where the table
lets it, a matrix command only from the holder of the lease and into a queue with a place; the lease is granted, passed on at its
run limit, for idling or by MFREE, and goes to the next requester. A finished command leaves the table, completes its number and
writes what its row gives: an MMA, ACCWR or ACCZ the cells of its rectangle and no other, ACCRD their values in its tile and no
other byte, MGATH the latch, a copy its elements as read, CPYD decrypted, a COLL its status, a fill its half. That effects take
place at completion (log 10), and that a copy some of whose reads fault or are poisoned still writes what was read (log 66), are the
model's choices. -/
def Obligations.EngineCommandsStartAndComplete : Prop :=
  (∀ (core k : Nat) (c : Cmd) (s : State), Ready s core k c → c.g / 4 = core →
    let cl := clusterOf c.g
    let x := s.cl cl
    (c.eng ≤ 1 → x.holder = some c.g → (x.paired = true ∨ x.runN < 64 ∧ s.clock - x.runT < 8192) → x.mq.length < 16 →
      c.instr ≠ .mlease → c.instr ≠ .mfree →
      ∃ t, exec (.tdtDispatch core k) s = .next t ∧ (t.cl cl).mq = x.mq ++ [{ c with tenure := x.tenure }] ∧
        ((t.core core).tdt[k]?.map fun e => (e.cmd, e.started)) = some (c, true)) ∧
    (c.eng ≤ 1 → x.holder = some c.g → x.paired = false → x.runN < 64 → s.clock - x.runT < 8192 → x.mq.length < 16 →
      (c.instr = .mlease → (s.ctx c.g).ended = false → exec (.tdtDispatch core k) s =
        .next (((s.markStarted core k).setCl cl { x with runN := x.runN + 1 }).finishCmd c 0)) ∧
      (c.instr = .mfree → exec (.tdtDispatch core k) s = .next (((s.markStarted core k).finishCmd c 0).passLease cl))) ∧
    (c.eng ≤ 1 → x.holder = none → exec (.tdtDispatch core k) s = .next (s.request c.g)) ∧
    (c.eng = 2 → ∃ t, exec (.tdtDispatch core k) s = .next t ∧ (t.cl cl).vq = x.vq ++ [c] ∧
      ((t.core core).tdt[k]?.map fun e => (e.cmd, e.started)) = some (c, true)) ∧
    (c.eng = 4 → ∃ t, exec (.tdtDispatch core k) s = .next t ∧ t.colls = s.colls ++ [⟨c.reg 6, dieOf c.g, core, c⟩] ∧
      ((t.core core).tdt[k]?.map fun e => (e.cmd, e.started)) = some (c, true)) ∧
    (c.eng = 3 → s.boardRoom c = true → ∃ t, exec (.copyStart core k) s = .next t ∧
      (∀ b ∈ c.boardEntries, b.2 ∈ (t.cl b.1).board) ∧
      ((t.core core).tdt[k]?.map fun e => (e.cmd, e.started)) = some (c, true))) ∧
  (∀ (cl g : Nat) (s : State), let x := s.cl cl
    (x.holder = none → ((List.range 16).map (ctxOfMember cl)).find? (fun h => x.reqs.contains h) = some g →
      exec (.leaseGrant cl) s = .next (s.giveLease cl (some g))) ∧
    (∀ h, x.holder = some g → x.paired = false → 64 ≤ x.runN ∨ 8192 ≤ s.clock - x.runT →
      (s.nextRequester cl (memberOf g) = some h → exec (.leaseRunLimit cl) s = .next (s.giveLease cl (some h))) ∧
      (s.nextRequester cl (memberOf g) = none →
        exec (.leaseRunLimit cl) s = .next (s.setCl cl { x with runN := 0, runT := s.clock }))) ∧
    (∀ h t0, x.holder = some g → x.paired = false → (s.ctx g).blocked = some t0 → 256 ≤ s.clock - t0 →
      (∀ c ∈ x.mq, c.g ≠ g) → s.nextRequester cl (memberOf g) = some h →
      exec (.leaseIdlePass cl) s = .next (s.giveLease cl (some h))) ∧
    (let y := (s.giveLease cl (some g)).cl cl
     y.holder = some g ∧ y.tenure = x.tenure + 1 ∧ y.runN = 0 ∧ g ∉ y.reqs ∧ y.acc = x.acc ∧ y.mq = x.mq ∧ y.spad = x.spad)) ∧
  (∀ (cl : Nat) (c0 : Cmd) (r : List Cmd) (s : State), (s.cl cl).mq = c0 :: r →
    let w := s.setCl cl { s.cl cl with mq := r }
    let c := w.current c0
    let k := clusterOf c.g
    ∃ t, exec (.engineCommandComplete cl false) s = .next t ∧ (t.cl cl).mq = r ∧
      (∀ e ∈ (t.core (coreOf c.g)).tdt, e.is c.g c.eng c.n = false) ∧
      ((s.ctx c.g).done = [] → c.eng < 10 → c.n = vget (s.ctx c.g).tl c.eng 0 + 1 → vget (t.ctx c.g).tl c.eng 0 = c.n) ∧
      (∀ x y, c.instr = .mma x y → (t.cl k).acc = (w.mmaRun c x y false).1) ∧
      (∀ x y, c.instr = .mmas x y → (t.cl k).acc = (w.mmaRun c x y true).1) ∧
      (c.instr = .accz → ∀ i j, i < c.rows → j < c.cols → (t.cl k).acc.get (c.cell false i j) 0 = 0) ∧
      (∀ n, (∀ x ∈ [false, true], ∀ i j, i < c.rows → j < c.cols → n ≠ c.cell x i j ∧ n ≠ c.cell x i j + 1) →
        (t.cl k).acc.get n 0 = (w.cl k).acc.get n 0) ∧
      (∀ ty, let wide := ty == .fp64
        let row := fun i => bits (c.reg 11) 59 0 + i * bits (c.reg 12) 31 0
        let n := contBytes c.cols (c.cont ty)
        (c.instr = .accrd ty → c.taint = [] → c.rows = 1 ∨ n ≤ bits (c.reg 12) 31 0 →
          (∀ i j, i < c.rows → j < c.cols → contAt (t.cl k).spad (row i) (c.cont ty) j =
            (accOut c ty (cellGet (w.cl k).acc wide (c.cell wide i j))).1 % 2 ^ c.cont ty) ∧
          ∀ a, (∀ i < c.rows, a < row i ∨ row i + n ≤ a) → (t.cl k).spad.get a = (w.cl k).spad.get a) ∧
        (c.instr = .accwr ty → (ty = .fp64 → c.cols ≤ 64) → ∀ i j, i < c.rows → j < c.cols →
          cellGet (t.cl k).acc wide (c.cell wide i j) =
            (accIn c ty (contAt (w.inMem c) (row i) (c.cont ty) j)).1 % 2 ^ (if wide then 64 else 32)) ∧
        (c.instr = .mgath ty → let m := w.inMem c
          (w.tiles c.g (c.gSources m) ≠ none → (t.cl k).latch.ty = some ty ∧ (t.cl k).latch.owner = some (c.g, c.tenure) ∧
            ∀ r p x, r < c.gRows → p = c.reg 1 + BitVec.ofNat 64 (leNat (m.read (bits (c.reg 0) 59 0 + 4 * r) 4)) →
              x < c.gLen → (t.cl k).latch.rows.get (256 * r + x) = m.get (bits p 59 0 + x)) ∧
          (w.tiles c.g (c.gSources m) = none → (t.cl k).latch = (w.cl k).latch ∧ (t.ctx c.g).er 1 62 = c.n)))) ∧
  (∀ (cl : Nat) (c0 : Cmd) (o : VOp) (r : List Cmd) (s : State), (s.cl cl).vq = c0 :: r → c0.instr = .vecop o →
    let w := s.setCl cl { s.cl cl with vq := r }
    exec (.engineCommandComplete cl true) s = .next (w.runVec (w.current c0) o)) ∧
  (∀ (core k : Nat) (e : TdtEntry) (s : State), (s.core core).tdt[k]? = some e → e.cmd.eng = 3 → e.started = true →
    e.cmd.instr = .cpy ∨ e.cmd.instr = .cpyd →
    let c := e.cmd
    let key := if c.instr = .cpyd then some ((s.contentKey (c.world.truncate 8)).getD 0) else none
    let r := s.copyReads c c.copyN 0
    let ws := s.copyWrites c key r.2
    s.elemsWait c ((List.range c.copyN).map fun t => (s.elemPlace c true t, List.replicate c.esz 0)) = false →
    exec (.copyComplete core k) s = .next (((r.1.writeElems c ws (s.copySpans c true)).unboard c).finishCmd c 0) ∧
    ∀ (t : Nat) (bs : List Byte), r.2[t]? = some bs → let p := s.elemPlace c true t
      (∀ u < c.copyN, let q := (s.elemPlace c false u).key
        p.key + c.esz ≤ q ∨ q + c.esz ≤ p.key) →
      ws[t]? = some (p, match key with
        | none => bs
        | some x => xts false x ((c.reg 8).toNat + t) bs)) ∧
  (∀ (seq : Word) (w : CollWait) (rs : List RemoteRank) (s : State), (s.colls.filter fun x => x.seq == seq) = [w] →
    let rest := { s with colls := s.colls.filter fun x => x.seq != seq }
    (∀ e, s.collEnds.find? (fun e => e.seq == seq) = some e → exec (.collComplete seq rs) s = .next (s.lateColl e) ∧
      (e.seq = seq → e.stat = 1 ∨ e.stat = 2 → ((s.lateColl e).ctx w.cmd.g).er 4 61 = BitVec.ofNat 64 e.stat)) ∧
    (s.collEnds.find? (fun e => e.seq == seq) = none →
      (collMismatch [w] (rs.filter fun r => !r.failed) = true → exec (.collComplete seq rs) s = .next (s.failSeq seq 1 [])) ∧
      (collMismatch [w] (rs.filter fun r => !r.failed) = false → rs.any (·.failed) = true ∨ w.cmd.aux.any s.rankLost = true →
        exec (.collComplete seq rs) s = .next (s.failSeq seq 2 [])) ∧
      (∀ ps, collMismatch [w] (rs.filter fun r => !r.failed) = false → rs.any (·.failed) = false →
        w.cmd.aux.any s.rankLost = false → s.collPutWaits w.cmd = false →
        inRankOrder w.cmd.aux.length ((rest.collParts [w]).2 ++ rs.map (remotePart w.cmd)) = some ps →
        exec (.collComplete seq rs) s = .next ((rest.collParts [w]).1.collGive ps w))) ∧
    (∀ n, n = 1 ∨ n = 2 → ((s.failSeq seq n []).ctx w.cmd.g).er 4 61 = BitVec.ofNat 64 n) ∧
    ∀ k, ((s.failSeq seq 1 []).cl k).spad = (s.cl k).spad) ∧
  ∀ (core : Nat) (e : TdtEntry) (s : State), (s.core core).tdt.find? (fun e => e.cmd.eng == 9) = some e → coreOf e.cmd.g = core →
    let c := e.cmd
    let f := runUnits c (bits (c.reg 3) 16 0 / 4 + 2) (c.reg 0) ⟨s, [], none⟩
    let dst := bits (c.reg 2) 16 0
    ∃ t, exec (.ifillComplete core) s = .next t ∧
      (f.stat = some 0 → (t.core core).ispad =
          (f.s.core core).ispad.write dst (f.out.reverse.flatMap fun w => leBytes 4 w) ∧
        ∀ x ∈ (t.core core).smap, x.1 < dst ∨ dst + 4 * f.out.length ≤ x.1) ∧
      ((t.ctx c.g).er 9 4 = BitVec.ofNat 64 (f.stat.getD 2 + 4 * f.out.length * 2 ^ 32))

/-- The sum of finite values in units of 2^q, and whether q is at most the exponent of each. -/
def Sys2Proof.Claims.unitsOf (q : Int) (vs : List Val) : Int :=
  vs.foldr (fun v z => match v with
    | .fin n m e => atExp n m e q + z
    | .nan _ | .inf _ => z) 0
def Sys2Proof.Claims.Below (q : Int) (vs : List Val) : Prop := ∀ n m e, Val.fin n m e ∈ vs → q ≤ e

/-- A sum that is NaN: it holds one, or infinities of both signs (R109). -/
def Sys2Proof.Claims.SumNan (vs : List Val) : Prop := (∃ v ∈ vs, v.isNan = true) ∨ .inf true ∈ vs ∧ .inf false ∈ vs

/-- x, with the flags of its one rounding, is round_rne(exact_sum(vs), f) of R90 and R109, a NaN canonical (R94). -/
def Sys2Proof.Claims.SumsTo (f : Ieee) (vs : List Val) (x : Nat) (fl : Byte) : Prop :=
  (SumNan vs → x = f.canon ∧ fl = 0) ∧
  (¬SumNan vs → ∀ n, .inf n ∈ vs → x = f.infBits n ∧ fl = 0) ∧
  (¬SumNan vs → (∀ n, .inf n ∉ vs) → ∀ q, Below q vs → let z := unitsOf q vs
    (x, fl) = if z = 0 then (0, 0) else f.roundFin .rne (decide (z < 0)) z.natAbs q false)

/-- What a pair of elements, each with its bit, adds to its block (R165, R166). -/
def Sys2Proof.Claims.term (a b : Val) (ba bb : Bool) : Option Val :=
  if ba ∧ bb then some (Val.mul a b)
  else if ba ∧ (a.isNan ∨ a.isInf) ∨ bb ∧ (b.isNan ∨ b.isInf) then some (.nan false) else none

/-- Does a pair set NV (R167): a signalling NaN, or 0·∞, an element whose bit is 0 being 0? -/
def Sys2Proof.Claims.TermInvalid (a b : Val) (ba bb : Bool) : Prop :=
  (ba = true ∧ a.isSig = true) ∨ (bb = true ∧ b.isSig = true) ∨
  (ba = true ∧ bb = false ∧ a.isInf = true) ∨ (ba = false ∧ bb = true ∧ b.isInf = true) ∨
  (ba = true ∧ bb = true ∧ a.isNan = false ∧ b.isNan = false ∧ (Val.mul a b).isNan = true)

/-- The bit of element k in a row of a bitmap tile. -/
def Sys2Proof.Claims.mapBit (m : Mem) (base : Word) (depth row k : Nat) : Bool :=
  (m.get (bits base 59 0 + row * ((depth + 7) / 8) + k / 8)).getLsbD (k % 8)

/-- One FP32 step of the vector engine (R169) whose NaN operands give the canonical NaN, with NV where one signals (R94). -/
def Sys2Proof.Claims.engNan (xs : List Nat) (r : Nat × Byte) : Nat × Byte :=
  if xs.any fp32.isNan then (fp32.canon, if xs.any fp32.isSig then flagNV else 0) else r

/-- The element-wise codes of R190 that compute: f of x and y with the scalar. -/
def Sys2Proof.Claims.vecRow (x y w : Nat) : VOp → Option (Nat × Byte)
  | .copy | .srnd => some (x, 0)
  | .add => some (engNan [x, y] (fAdd fp32 .rne x y))
  | .sub => some (engNan [x, y] (rounded fp32 .rne (Val.add false (fp32.val x) (fp32.val y).negate)))
  | .mul => some (engNan [x, y] (fMul fp32 .rne x y))
  | .axpy => some (engNan [x, w, y] (fMa fp32 .rne x w y))
  | .max => some (engNan [x, y] (fMax fp32 x y))
  | .min => some (engNan [x, y] (if (fp32.val x).lt (fp32.val y) then x else y, 0))
  | .scale => some (engNan [x, w] (fMul fp32 .rne x w))
  | .relu => some (engNan [x] (fMax fp32 x 0))
  | _ => none

/-- fmul and ffma of R171 on an exact first factor, their bits alone, and the scaling by 2^n. -/
def Sys2Proof.Claims.veTimes (a : Val) (y : Nat) : Nat := (rounded fp32 .rne (Val.mul a (fp32.val y))).1
def Sys2Proof.Claims.veMa (a : Val) (y z : Nat) : Nat :=
  (rounded fp32 .rne (Val.add false (Val.mul a (fp32.val y)) (fp32.val z))).1
def Sys2Proof.Claims.veAt2 (y : Nat) (n : Int) : Nat := (fp32.round .rne ((fp32.val y).scale n)).1

/-- The tree of R170 over the elements e(0) to e(n − 1), its flags with it: x is what is left, after at most `fuel` levels. -/
def Sys2Proof.Claims.pairTree (k : Nat → Nat → Nat × Byte) : Nat → Nat → (Nat → Nat) → Nat × Byte
  | 0, _, e => (e 0, 0)
  | fuel + 1, n, e =>
    if n ≤ 1 then (e 0, 0)
    else
      let r := pairTree k fuel ((n + 1) / 2) fun i => if 2 * i + 1 < n then (k (e (2 * i)) (e (2 * i + 1))).1 else e (2 * i)
      (r.1, r.2 ||| (List.range (n / 2)).foldl (fun a i => a ||| (k (e (2 * i)) (e (2 * i + 1))).2) 0)

/-- R163 to R171, R186, R190, R193, R194: what the engines compute. Each cell of an MMA or MMAS takes its blocks in order, one
exact sum of the surviving products, scaled, and one RNE rounding to each block, an INT32 cell clamped; its flags are those of
R167. A VECOP gives its row of R190 of each element, decoded to FP32 and encoded once, a reduction the tree of R170, a .srnd
with a draw to each element; the transcendentals follow R171. A sum of a COLL is exact above the anchor of all ranks and rounded
once; .amax takes the greatest, .bcast ROOT's, .agath each rank's, and DST gets them. That a NaN beside a quiet NaN sets no NV is
the model's choice (log 107). -/
def Obligations.EngineSumsFollowTheirRules : Prop :=
  (∀ (c : Cmd) (ta tb : FTy) (sparse : Bool) (s : State), c.taint = [] → c.mmaOk ta = true →
    ta = tb ∨ scaled ta = true ∧ scaled tb = true →
    let x := s.cl (clusterOf c.g)
    let m := x.spad
    let r := s.mmaRun c ta tb sparse
    let empty := c.asrc && !(decide (x.latch.owner = some (c.g, c.tenure)) && decide (x.latch.ty = some ta))
    let a := fun i k => if empty then Val.fin false 0 0
      else if c.asrc then (c.fmt ta).val (contAt x.latch.rows (256 * i) (c.cont ta) k)
      else (c.fmt ta).val (contAt m (bits (c.reg 0) 59 0 + i * bits (c.reg 1) 31 0) (c.cont ta) k)
    let b := fun k j => (c.fmt tb).val (contAt m (bits (c.reg 2) 59 0 + j * bits (c.reg 3) 31 0) (c.cont tb) k)
    let ba := fun i k => !sparse || empty || mapBit m (c.reg 9) c.depth i k
    let bb := fun k j => !sparse || mapBit m (c.reg 10) c.depth j k
    let size := if ta = .fp64 then 4 else 32
    let n := (c.depth + size - 1) / size
    let ks := fun p => ((List.range size).map (p * size + ·)).filter (· < c.depth)
    let code := fun (tile q : Word) i p => if scaled ta = false then 127
      else if c.smode then (m.get (bits tile 59 0 + i * n + p)).toNat else bits q (8 * (p % 8) + 7) (8 * (p % 8))
    let sa := fun i p => code (c.reg 7) c.qa i p
    let sb := fun j p => code (c.reg 8) c.qb j p
    let terms := fun i j p => (ks p).filterMap fun k => term (a i k) (b k j) (ba i k) (bb k j)
    let nanScale := fun i j p => sa i p == 255 || sb j p == 255
    let invalid := fun i j p => (∃ k ∈ ks p, TermInvalid (a i k) (b k j) (ba i k) (bb k j)) ∨ nanScale i j p = true ∨
      .inf true ∈ terms i j p ∧ .inf false ∈ terms i j p
    let some_ := fun (k : Nat → Nat → Nat → Prop) => ∃ i < c.rows, ∃ j < c.cols, ∃ p < n, k i j p
    (∀ f wide, (accOf ta = .f32 ∧ f = fp32 ∧ wide = false) ∨ (accOf ta = .f64 ∧ f = fp64 ∧ wide = true) →
      ∃ (cell : Nat → Nat → Nat → Nat) (fl : Nat → Nat → Nat → Byte),
        (∀ i < c.rows, ∀ j < c.cols, cell i j 0 = cellGet x.acc wide (c.cell wide i j) ∧
          cell i j n = cellGet r.1 wide (c.cell wide i j) ∧
          ∀ p < n, SumsTo f (f.val (cell i j p) :: if nanScale i j p then [.nan false]
            else (terms i j p).map (·.scale ((sa i p : Int) - 127 + (sb j p - 127)))) (cell i j (p + 1)) (fl i j p)) ∧
        ∀ k < 8, r.2.getLsbD k = true ↔ (k = 4 ∧ empty = true) ∨ some_ fun i j p => (fl i j p).getLsbD k = true ∨
          k = 4 ∧ (invalid i j p ∨ f.isSig (cell i j p) = true ∨
            ∃ neg, f.val (cell i j p) = .inf neg ∧ .inf (!neg) ∈ terms i j p ∧ ∀ v ∈ terms i j p, v.isNan = false)) ∧
    (accOf ta = .i32 → ∃ cell : Nat → Nat → Nat → Int,
      (∀ i < c.rows, ∀ j < c.cols, cell i j 0 = (BitVec.ofNat 32 (cellGet x.acc false (c.cell false i j))).toInt ∧
        cell i j n = (BitVec.ofNat 32 (cellGet r.1 false (c.cell false i j))).toInt ∧
        ∀ p < n, cell i j (p + 1) = max (-2147483648) (min (cell i j p + unitsOf 0 (terms i j p)) 2147483647)) ∧
      ∀ k < 8, r.2.getLsbD k = true ↔ (k = 4 ∧ empty = true) ∨
        (k = 5 ∧ some_ fun i j p => cell i j (p + 1) ≠ cell i j p + unitsOf 0 (terms i j p)))) ∧
  (∀ (c : Cmd) (o : VOp) (tx ty tz : FTy) (s : State), c.taint = [] →
    let m := (s.cl (clusterOf c.g)).spad
    let cs := nestCounts (c.reg 0)
    let el := fun (base : Word) (t : FTy) st k =>
      let p := vecAt base (c.cont t) (nestOff cs st k)
      let v := (c.fmt t).val (contAt m p.1 (c.cont t) p.2)
      if v.isNan then (fp32.canon, if v.isSig then flagNV else 0#8) else fp32.round .rne v
    let xs := el (c.reg 1) tx (nestStrides (c.reg 2) (c.reg 3))
    let ys := el (c.reg 4) ty (nestStrides (c.reg 5) (c.reg 6))
    let out := fun x => convert (.ieee fp32) (c.fmt tz) .rne none x
    let rs := s.vecRun c o tx ty tz
    (reduces o = false → rs.length = nestSize cs ∧ ∀ k < nestSize cs,
      (o = .srnd → let z := convert (.ieee fp32) (c.fmt tz) .rne (some (srndDraw (drawMany k c.rng)).2.toNat) (xs k).1
        rs[k]? = some (z.1, z.2 ||| (xs k).2)) ∧
      (o ≠ .srnd → let y := if readsY o then ys k else (0, 0#8)
        let r := veFun o (xs k).1 y.1 (bits (c.reg 11) 31 0)
        rs[k]? = some ((out r.1).1, (out r.1).2 ||| r.2 ||| (xs k).2 ||| y.2))) ∧
    (reduces o = true → let n := nestSize (cs.take c.red)
      rs.length = nestSize (cs.drop c.red) ∧ ∀ q < nestSize (cs.drop c.red),
        let t := pairTree (if o = .rsum then fun x y => engNan [x, y] (fAdd fp32 .rne x y)
          else fun x y => engNan [x, y] (fMax fp32 x y)) n n fun k => (xs (q * n + k)).1
        rs[q]? = some ((out t.1).1, (out t.1).2 ||| t.2 ||| (List.range n).foldl (fun f k => f ||| (xs (q * n + k)).2) 0))) ∧
  (∀ (x y w : Nat) (o : VOp) (r : Nat × Byte), x < 2 ^ 32 → y < 2 ^ 32 → w < 2 ^ 32 → vecRow x y w o = some r →
    veFun o x y w = r) ∧
  (∀ o ∈ [VOp.exp2, .exp, .log2, .rcp, .rsqrt], ∀ x y w, fp32.isNan x = true →
    veFun o x y w = (fp32.canon, if fp32.isSig x then flagNV else 0)) ∧
  (∀ x y w, fp32.isNan x = false →
    let z := fMul fp32 .rne x 0x3FB8AA3B
    let e := veFun .exp2 z.1 y w
    veFun .exp x y w = (e.1, z.2 ||| e.2)) ∧
  (∀ y w : Nat, let f := fun o x => veFun o x y w
    f .exp2 0x7F800000 = (0x7F800000, 0) ∧ f .exp2 0xFF800000 = (0, 0) ∧
    (∀ x, 0x43000000 ≤ x → x < 0x7F800000 → f .exp2 x = (0x7F800000, flagOF ||| flagNX)) ∧
    (∀ x, 0xC3160000 < x → x < 0xFF800000 → f .exp2 x = (0, flagUF ||| flagNX)) ∧
    f .log2 0 = (0xFF800000, flagDZ) ∧ f .log2 0x80000000 = (0xFF800000, flagDZ) ∧ f .log2 0x7F800000 = (0x7F800000, 0) ∧
    f .log2 0xFF800000 = (fp32.canon, flagNV) ∧ f .rcp 0 = (0x7F800000, flagDZ) ∧ f .rcp 0x80000000 = (0xFF800000, flagDZ) ∧
    f .rcp 0x7F800000 = (0, 0) ∧ f .rcp 0xFF800000 = (0x80000000, 0) ∧ f .rsqrt 0 = (0x7F800000, flagDZ) ∧
    f .rsqrt 0x80000000 = (0xFF800000, flagDZ) ∧ f .rsqrt 0x7F800000 = (0, 0) ∧ f .rsqrt 0xFF800000 = (fp32.canon, flagNV) ∧
    (∀ x, 0x80000000 < x → x < 0xFF800000 → f .log2 x = (fp32.canon, flagNV) ∧ f .rsqrt x = (fp32.canon, flagNV)) ∧
    f .exp2 0x3F000000 = (0x3FB504F3, 0) ∧ f .exp2 0x40400000 = (0x41000000, 0)) ∧
  (∀ (x y w m : Nat) (neg : Bool) (e : Int), fp32.val x = .fin neg m e →
    (neg = false → dyLe 128 0 m e = false) → (neg = true → dyLe m e 150 0 = true) →
    let q := min e (-6)
    let u : Int := 2 ^ (-6 - q).toNat
    ∃ k : Int, k * u ≤ atExp neg m e q ∧ atExp neg m e q < (k + 1) * u ∧
      let r := Val.fin false (atExp neg m e q - k * u).toNat q
      let t := tabT (k % 64).toNat
      let p := veTimes r (veMa r (veMa r 0x3D635847 0x3E75FDF0) 0x3F317218)
      (veFun .exp2 x y w).1 = veAt2 (veMa (fp32.val t) p t) (k / 64)) ∧
  (∀ (x y w m z : Nat) (neg : Bool) (e h : Int), fp32.val x = .fin neg m e → 2 ^ 23 ≤ z → z < 2 ^ 24 →
    dyEq m e z (h - 23) = true →
    let v := fp32.val
    (let n := Val.fin true z (-23)
     let it := fun y => veMa (v y) (veMa n y 0x3F800000) y
     let r := veAt2 (it (it (tabRT (z / 2 ^ 17 % 64)))) (-h)
     (veFun .rcp x y w).1 = r % 2 ^ 31 + (if neg then 2 ^ 31 else 0)) ∧
    (neg = false → z = 2 ^ 23 → (veFun .log2 x y w).1 = (fp32.roundFin .rne (decide (h < 0)) h.natAbs 0 false).1) ∧
    (neg = false → z ≠ 2 ^ 23 → let j := z / 2 ^ 17 % 64
      let t := veMa (.fin false z (-23)) (tabRT j) 0xBF800000
      let p := veTimes (v t) (veMa (v t) (veMa (v t) 0x3EF6384E 0xBF38AA3B) 0x3FB8AA3B)
      (veFun .log2 x y w).1 = (fAdd fp32 .rne (fp32.roundFin .rne (decide (h < 0)) h.natAbs 0 false).1
        (fAdd fp32 .rne (tabLG j) p).1).1) ∧
    (neg = false → let o := h % 2
      let n := Val.fin false z (o - 23)
      let it := fun y =>
        let t := veTimes (v (veTimes n (veTimes (v y) y))) 0x3F000000
        veTimes (v y) (rounded fp32 .rne (Val.add false (v 0x3FC00000) (v t).negate)).1
      (veFun .rsqrt x y w).1 = veAt2 (it (it (tabRS (o.toNat * 32 + z / 2 ^ 18 % 32)))) (-((h - o) / 2)))) ∧
  (∀ j < 64, ∃ t rt rs : Nat, fp32.val (tabT j) = .fin false t (-23) ∧ fp32.val (tabRT j) = .fin false rt (-24) ∧
    fp32.val (tabRS j) = .fin false rs (-24) ∧
    (2 * t - 1) ^ 64 ≤ 2 ^ (j + 24 * 64) ∧ 2 ^ (j + 24 * 64) ≤ (2 * t + 1) ^ 64 ∧
    (2 * rt - 1) * (129 + 2 * j) ≤ 2 ^ 32 ∧ 2 ^ 32 ≤ (2 * rt + 1) * (129 + 2 * j) ∧
    let d := (65 + 2 * (j % 32)) * 2 ^ (j / 32)
    (2 * rs - 1) ^ 2 * d ≤ 2 ^ 56 ∧ 2 ^ 56 ≤ (2 * rs + 1) ^ 2 * d) ∧
  (∀ (out : Ieee) (vs : List Val) (nv : Bool), out = fp32 ∨ out = bf16 →
    let r := collSum out vs nv
    (SumNan vs → r.1 = out.canon ∧ r.2 = if nv = true ∨ .inf true ∈ vs ∧ .inf false ∈ vs then flagNV else 0) ∧
    (¬SumNan vs → ∀ n, .inf n ∈ vs → r = (out.infBits n, if nv then flagNV else 0)) ∧
    (¬SumNan vs → (∀ n, .inf n ∉ vs) →
      ((∀ v ∈ vs, v.isZero = true) → r = (0, if nv then flagNV else 0)) ∧
      ∀ E : Int, (∀ n m e, Val.fin n m e ∈ vs → dyLe 1 (E + 1) m e = false) → (∃ n m e, Val.fin n m e ∈ vs ∧ dyLe 1 E m e = true) →
        ∃ (t : Nat → Int → Nat) (fl : Byte), (∀ n m e, Val.fin n m e ∈ vs → dyLe (t m e) 0 m (e + 160 - E) = true ∧
            dyLe (t m e + 1) 0 m (e + 160 - E) = false) ∧
          let z : Int := vs.foldr (fun v z => match v with
            | .fin n m e => (if n then -(t m e : Int) else t m e) + z
            | .nan _ | .inf _ => z) 0
          (r.1, fl) = (if z = 0 then (0, 0) else out.roundFin .rne (decide (z < 0)) z.natAbs (E - 160) false) ∧
          ∀ k < 8, r.2.getLsbD k = true ↔ fl.getLsbD k = true ∨ (k = 4 ∧ nv = true) ∨
            (k = 0 ∧ ∃ n m e, Val.fin n m e ∈ vs ∧ dyEq (t m e) 0 m (e + 160 - E) = false))) ∧
  (∀ (c : Cmd) (ps : List CollPart) (e : Nat) (t : FTy) (s : State),
    (∀ o, c.instr = .coll t o → o = .asum ∨ o = .rsum → (∀ p ∈ ps, p.cmd.instr = c.instr) →
      let v := fun p : CollPart => (p.cmd.fmt t).val (p.elems.getD e 0)
      let q := fun p : CollPart => if scaled t then p.scales.getD (e / 32) 0 else 127
      s.collElem c ps e = collSum (if bits (c.reg 4) 3 0 = 8 then bf16 else fp32)
        (ps.map fun p => if q p = 255 then .nan false else (v p).scale ((q p : Int) - 127))
        (ps.any fun p => (v p).isSig || q p == 255)) ∧
    (c.instr = .coll t .amax → t = .bf16 ∨ t = .fp16 ∨ t = .fp32 ∨ t = .fp64 →
      let f := ieeeOf t
      let xs := ps.map fun p => p.elems.getD e 0
      let r := s.collElem c ps e
      (xs.any f.isNan = true → r = (f.canon, if xs.any f.isSig then flagNV else 0)) ∧
      (xs.any f.isNan = false → xs ≠ [] → r.1 ∈ xs ∧ r.2 = 0 ∧ ∀ x ∈ xs, (f.val r.1).lt (f.val x) = false)) ∧
    (c.instr = .coll t .bcast → ∀ p, ps[bits (c.reg 4) 47 32]? = some p → s.collElem c ps e = (p.elems.getD e 0, 0)) ∧
    (c.instr = .coll t .agath → ∀ p, ps[e / c.collN]? = some p → s.collElem c ps e = (p.elems.getD (e % c.collN) 0, 0))) ∧
  (∀ (ps : List CollPart) (w : CollWait) (off : Nat) (s : State), let c := s.current w.cmd
    let k := c.cont c.collOut
    let n := contBytes (c.collOutN ps.length) k
    let cl := clusterOf c.g
    c.taint = [] → c.collWrites = true → tagOf (c.reg 2) = 1 → s.tilePlace c (c.reg 2) n permW = .bank cl off →
    let m := ((s.collGive ps w).cl cl).spad
    (∀ e < c.collOutN ps.length, contAt m off k e = (s.collElem c ps e).1 % 2 ^ k) ∧
    ∀ a, a < off ∨ off + n ≤ a → m.get a = (s.cl cl).spad.get a) ∧
  collSum fp32 [fp32.val 0x3F800000, fp32.val 0x30800000, fp32.val 0xBF800000] false = (0x30800000, 0) ∧
  collSum fp32 [fp32.val 0x49800000, fp32.val 0x10] false = (0x49800000, flagNX) ∧
  collSum fp32 [fp32.val 0x10, fp32.val 0x49800000] false = (0x49800000, flagNX)

/-! ### Events of the memory side -/

/-- R204, R206, R208, R210, R219, R220, R234, R235, R272, R323: a prefetched sector is brought, an L1 line evicted, an LDF
performed with the context's earlier ones to its line, unless its slice cannot take it, and its answer landed; a full or aged combiner entry is written home;
refreshes are performed, postponed up to 8 times, and then forced; an uncorrectable error poisons its sector; TINV drops the kept
entries of its range. -/
def Obligations.MemoryEventsComplete : Prop :=
  (∀ (sl k : Nat) (f : Fill) (s : State), (s.slice sl).fills[k]? = some f →
    let u := s.setSlice sl { s.slice sl with fills := (s.slice sl).fills.filter fun y => y.ia / 256 != f.ia / 256 }
    (u.hasSector f.ia = true → exec (.sliceLineFill sl k) s = .next u) ∧
    (u.hasSector f.ia = false →
      exec (.sliceLineFill sl k) s = .next (u.fetch f.ia ⟨f.world, f.cls, f.tenant, f.g, (.pod, f.g)⟩ false false false).1)) ∧
  (∀ (core k : Nat) (e : Nat × L1Line) (s : State), (s.core core).l1[k]? = some e → (s.core core).l1.get? e.1 = some e.2 →
    (e.2.bufs ≠ [] ∨ s.l1Waits core e.1 (BitVec.allOnes 256) = true → exec (.writeTransaction core k) s = .next s) ∧
    (e.2.bufs = [] → s.l1Waits core e.1 (BitVec.allOnes 256) = false →
      ∃ t, exec (.writeTransaction core k) s = .next t ∧ (t.core core).l1.get? e.1 = none ∧
        ∀ g, SameRegisters (t.ctx g) (s.ctx g))) ∧
  (∀ (g k : Nat) (l : Ldf) (s : State), (s.ctx g).ldfs[k]? = some l → l.at_ = .sent →
    (s.ldfWaits g l = true → exec (.ldfPerform g k) s = .next s) ∧
    (s.ldfWaits g l = false → exec (.ldfPerform g k) s = .next (s.performLdfs g fun x =>
      x.member == l.member && x.ia / 1024 == l.ia / 1024 && decide (x.id ≤ l.id)))) ∧
  (∀ (g k : Nat) (l : Ldf) (s : State), (s.ctx g).ldfs[k]? = some l → l.at_ = .answering → 0 < l.dest → l.dest < 32 →
    (s.ctx g).atEntry = false → ∃ c, exec (.futureAnswer g k) s = .next (s.setCtx g c) ∧
      c.reg (.s l.dest) = (if l.gone then (s.ctx g).reg (.s l.dest) else l.val.zeroExtend 256) ∧
      (∀ q, q ≠ .s l.dest → c.reg q = (s.ctx g).reg q) ∧
      c.ldfs[k]?.map (fun x => (x.at_, x.time)) = some (.answered, s.clock)) ∧
  (∀ (cl k : Nat) (e : Comb) (s : State), (s.cl cl).comb[k]? = some e →
    (64 ≤ e.count → exec (.qntFlushFull cl k) s = .next (s.flushComb cl k)) ∧
    (e.since + 4096 ≤ s.clock → exec (.qntFlushTimeout cl k) s = .next (s.flushComb cl k))) ∧
  (∀ (ctrl bank n : Nat) (s : State), let key := ctrl * 2 ^ 16 + bank
    let old := s.mg.postponed.get key 0
    (old < 8 → ∃ m, (m = 0 ∨ m = old + 1) ∧ exec (.hbmRefresh ctrl bank) s = .next { s with
      mg := { s.mg with postponed := s.mg.postponed.put key m } }) ∧
    (8 ≤ old → exec (.hbmRefresh ctrl bank) s = .next s ∧ ∃ p, exec (.hbmForcedRefresh ctrl bank n) s = .next { s with
      mg := { s.mg with
        postponed := p, forced := s.mg.forced.put ctrl (s.mg.forced.get ctrl 0 + BitVec.ofNat 64 n) } } ∧ p.get key 0 = 0)) ∧
  (∀ (ia : Nat) (s : State),
    (∃ t, exec (.eccUncorrectable ia true) s = .next t ∧ ia / 256 ∈ t.poison ∧ (∀ x, x ≠ ia / 256 → (x ∈ t.poison ↔ x ∈ s.poison)) ∧
      { t with poison := s.poison } = s) ∧
    ∀ y, (s.slice (homeSlice ia)).lines.get? (ia / 1024) = some y → y.filled.getLsbD (ia / 256 % 4) = true →
      ∃ t z, exec (.eccUncorrectable ia false) s = .next t ∧ (t.slice (homeSlice ia)).lines.get? (ia / 1024) = some z ∧
        z.poison.getLsbD (ia / 256 % 4) = true ∧ { z with poison := y.poison } = y) ∧
  ∀ (len : Word) (s : State),
    (s.mg.ready = true → ∃ t, exec (.tinv len) s = .next t ∧
      t.mg = { s.mg with tinvLen := len, tbusy := true, pcie := t.mg.pcie } ∧ t.tlb = s.tlb ∧ t.slices = s.slices) ∧
    (s.mg.tbusy = true → ∃ t, exec .tinvComplete s = .next t ∧ t.mg = { s.mg with tbusy := false, pcie := t.mg.pcie } ∧
      ∀ e, e ∈ t.tlb ↔ e ∈ s.tlb ∧ ¬(bits s.mg.tinvBase 35 0 ≤ e.1 ∧ e.1 < bits s.mg.tinvBase 35 0 + s.mg.tinvLen.toNat))

/-- R212 to R218, R250: a message joins its slice's events, is turned away when 32 wait, or is answered ABORT where the tenant's
image takes none. A handler starts with the oldest event, its core as R214 gives it; its code executes instructions that write
nothing outside its partition, reads the event at its ports, fetches, reads and writes within its tenant's worlds, and ends with
its reply; or it is aborted, by its code or at the end of its budget: a message is then answered ABORT, the counters rise, and the
16th abort disables the image and sends notice 0x20. The model's choices: x2 and the place and size of a partition in the core's
memory (logs 117 and 118), and one instruction to a step (log 13). -/
def Obligations.BadgerEventsComplete : Prop :=
  (∀ (sl : Nat) (e : BEvent) (r : List BEvent) (s : State), (s.slice sl).coming = e :: r →
    let x := s.slice sl
    (x.takes e.tenant 3 = true → x.events.length < 32 → ∃ t, exec (.badgerMsgArrive sl) s = .next t ∧
      t.slice sl = { x with coming := r, events := x.events ++ [e] } ∧ (t.ctx e.g).er 8 4 = 0) ∧
    (x.takes e.tenant 3 = true → 32 ≤ x.events.length → ∃ t, exec (.badgerMsgArrive sl) s = .next t ∧
      t.slice sl = { x with coming := r, nacks := x.nacks + 1 } ∧ (t.ctx e.g).er 8 4 = 1) ∧
    (x.takes e.tenant 3 = false → exec (.badgerMsgArrive sl) s =
      .next (((s.setSlice sl { x with coming := r }).badgerDrop e).endBmsg e 0))) ∧
  (∀ (e : BEvent) (s : State), (e.kind = 3 → s.badgerDrop e = s.badgerReply e 0xFFFFFFFFFFFFFFFE 2) ∧
    (e.kind ≠ 3 → s.badgerDrop e = s)) ∧
  (∀ (sl : Nat) (e : BEvent) (r : List BEvent) (s : State), (s.slice sl).handler = none → (s.slice sl).events = e :: r →
    let x := s.slice sl
    (∀ i a, x.imageOf e.tenant = some i → i.2.enabled = true → i.2.entries[e.kind]? = some (some a) →
      ∃ v : Rv, exec (.badgerHandlerStart sl) s = .next (s.setSlice sl { x with
          events := r, handler := some ⟨e, s.refClock, v, none, 0, 0, none, false⟩ }) ∧
        v.pc = BitVec.ofNat 64 a ∧ v.get 10 = BitVec.ofNat 64 e.kind ∧ v.get 11 = BitVec.ofNat 64 e.ia ∧ v.get 2 = 8192 ∧
        v.get 0 = 0) ∧
    (x.takes e.tenant e.kind = false →
      exec (.badgerHandlerStart sl) s = .next ((s.setSlice sl { x with events := r }).badgerDrop e))) ∧
  (∀ (base size : Nat) (m n : Mem) (c d : Rv) (a : Nat), rvStep base size m c = .next d n → a < base ∨ base + size ≤ a →
    n.get a = m.get a) ∧
  (∀ (sl : Nat) (h : Handler) (i : Nat × Image) (s : State), (s.slice sl).handler = some h →
    (s.refClock - h.since) * 3 / 4 < 2048 → h.req = none → (s.slice sl).imageOf h.ev.tenant = some i →
    let t := s.badgerStep sl
    match rvStep (8192 * i.1) 8192 (s.slice sl).hmem h.rv with
    | .next c m => t = s.setSlice sl { s.slice sl with hmem := m, handler := some { h with rv := c } }
    | .bad => t = s.setSlice sl { s.slice sl with handler := some { h with req := some .abort } }
    | .load off rd c => ∃ k, t = s.setSlice sl { s.slice sl with handler := some k } ∧
      (∀ v, (off, v) ∈ [(0x00, BitVec.ofNat 64 h.ev.kind), (0x08, BitVec.ofNat 64 h.ev.ia), (0x10, h.ev.info), (0x18, h.ev.ver),
          (0x20, h.ev.msg0), (0x28, h.ev.msg1), (0x30, BitVec.ofNat 64 (2048 - (s.refClock - h.since) * 3 / 4)),
          (0x70, if h.err then 1 else 0)] → k = { h with rv := c.put rd v }) ∧
      (off = 0x50 → k = { h with rv := c, req := some (.rdata rd) })
    | .store off v c => ∃ k, t = s.setSlice sl { s.slice sl with handler := some k } ∧
      (off = 0x40 → k = { h with rv := c, req := some (.pfetch v) }) ∧ (off = 0x48 → k = { h with rv := c, raddr := v }) ∧
      (off = 0x58 → k = { h with rv := c, waddr := v }) ∧ (off = 0x60 → k = { h with rv := c, req := some (.wdata v) }) ∧
      (off = 0x68 → k = { h with rv := c, reply := some v }) ∧ (off = 0x78 → k = { h with rv := c, req := some .done })) ∧
  (∀ (sl : Nat) (h : Handler) (addr val : Word) (s : State), (s.slice sl).handler = some h → (s.refClock - h.since) * 3 / 4 < 2048 →
    (∀ rd, h.req = some (.rdata rd) → h.raddr = addr →
      (s.portWorld sl h addr = none →
        exec (.badgerRdata sl addr) s = .next (s.gaveRdata sl h rd true 0xFFFFFFFFFFFFFFFF)) ∧
      ∀ w t res, s.portWorld sl h addr = some w →
        s.bring addr.toNat (badgerAcc w h.ev.tenant h.ev.g) false false true = (t, .ok res) → t.badSector addr.toNat res = false →
        exec (.badgerRdata sl addr) s = .next ((t.touch addr.toNat).gaveRdata sl h rd false
          (leWord (t.rawRead addr.toNat 8 (badgerAcc w h.ev.tenant h.ev.g) res)))) ∧
    (h.req = some (.wdata val) → h.waddr = addr →
      (s.portWorld sl h addr = none → exec (.badgerWdata sl addr val) s = .next (s.served_ sl h true)) ∧
      (∀ w, s.portWorld sl h addr = some w → w ≠ 0 → exec (.badgerWdata sl addr val) s = .next (s.served_ sl h true)) ∧
      let a := badgerAcc 0 h.ev.tenant h.ev.g
      let cells := cellsAt addr.toNat (leBytes 8 val.toNat)
      (s.portWorld sl h addr = some 0 → s.txnWaits a cells true = true → exec (.badgerWdata sl addr val) s = .next s) ∧
      ∀ t n, s.portWorld sl h addr = some 0 → s.txnWaits a cells true = false → s.writeTxn a cells true = (t, .ok n) →
        exec (.badgerWdata sl addr val) s = .next (t.served_ sl h false)) ∧
    (h.req = some (.pfetch addr) →
      let u := s.setHandler sl { h with req := none }
      ∀ w p, addr.toNat < 2 ^ 52 → u.lineWorld addr.toNat = some w → u.page addr.toNat false w = some p →
      u.ownsWorld h.ev.tenant w = true → ∃ fs, exec (.badgerPfetch sl addr) s = .next (u.setSlice (homeSlice addr.toNat)
        { u.slice (homeSlice addr.toNat) with fills := (u.slice (homeSlice addr.toNat)).fills ++ fs }) ∧
        ∀ f ∈ fs, f.ia / 1024 = addr.toNat / 1024 ∧ f.world = w ∧ f.tenant = h.ev.tenant) ∧
    (h.req = some .done →
      let t := s.setSlice sl { s.slice sl with handler := none }
      (h.ev.kind ≠ 3 → exec (.badgerDone sl h.reply) s = .next t) ∧
      (h.ev.kind = 3 → exec (.badgerDone sl h.reply) s = .next (t.badgerReply h.ev (h.reply.getD 0) 0)))) ∧
  ∀ (sl : Nat) (h : Handler) (s : State), (s.slice sl).handler = some h → h.ev.tenant < 16 →
    let x := s.slice sl
    let n := vget x.overrun h.ev.tenant 0
    let y : Slice := { x with
      handler := none, aborts := x.aborts + 1, overrun := vput x.overrun h.ev.tenant (if n < 16 then n + 1 else 16) }
    let z := y.disable h.ev.tenant
    n ≤ 16 → h.req = some .abort ∨ 2048 ≤ (s.refClock - h.since) * 3 / 4 →
      ∃ t, (h.req = some .abort → exec (.badgerAbort sl) s = .next t) ∧
        (2048 ≤ (s.refClock - h.since) * 3 / 4 → exec (.badgerBudgetExpire sl) s = .next t) ∧
        (n ≠ 15 → t = (s.setSlice sl y).badgerDrop h.ev) ∧
        (n = 15 → t = ((s.setSlice sl z).badgerDrop h.ev).notice h.ev.tenant 0x20 (BitVec.ofNat 64 sl) ∧
          vget z.overrun h.ev.tenant 0 = 16 ∧ (∀ k, z.takes h.ev.tenant k = false) ∧
          ∀ (u : State) q, u.noticeQueue h.ev.tenant = some q → (u.queue q).jfree ≠ 0 →
            u.notice h.ev.tenant 0x20 (BitVec.ofNat 64 sl) = u.journal q 0 5 0x20 0 (BitVec.ofNat 64 sl))

/-! ### Queues and gangs -/

/-- R274 to R280, R289, R331: the doorbell sets the tail; a command unit reads the next entry of the queue it serves, or
disables the queue where it cannot; a LAUNCH fails with the first code that applies, in the order of log 75, or waits for its
placement; WAIT, SIGNAL, COPY and MARK start, retire or fail with their journal entries, each 32 bytes at the journal's head. That
an access that meets poison fails its command, or disables its queue, as one that faults does is the model's choice (log 73), and so
is what waits where the memory side holds a journal entry's write (log 140). -/
def Obligations.QueueCommandsComplete : Prop :=
  (∀ (q : Nat) (v : Word) (s : State), s.mg.ready = true → q < 64 →
    exec (.qtailDoorbell q v) s = .next (s.setQueue q { s.queue q with tail := v.truncate 32 })) ∧
  (∀ (die q : Nat) (s t : State), s.nextRead die = some q →
    (∀ bs, s.ringRead q (s.queue q).base (64 * (s.queue q).headIdx) 64 = (t, some bs) →
      exec (.queueEntryRead die) s = .next ((t.setQueue q { t.queue q with
        head := BitVec.ofNat 32 (((t.queue q).headIdx + 1) % (t.queue q).qlen) }).accept2 q bs)) ∧
    (s.ringRead q (s.queue q).base (64 * (s.queue q).headIdx) 64 = (t, none) →
      exec (.queueEntryRead die) s = .next (t.setQueue q (t.queue q).off))) ∧
  (∀ (q : Nat) (c : QCmd) (x : Gang) (s : State), s.journalled q = some c → c.op = 1 → s.gang? c.gid = some x → x.tested = false →
    let w := BitVec.ofNat 8 x.rec_.world
    let ends := fun (t : State) (k : Nat) (v : Word) => exec (.launch q) s = .next (t.refuseLaunch x k v)
    let fields := fld c.bytes 16 8 % 64 = 0 ∧ x.rec_.fieldsOk = true
    (x.rec_.bytes.length ≠ 192 → ends s 0x1B 0) ∧
    (x.rec_.bytes.length = 192 → ¬fields → ends s 0x10 0) ∧
    (x.rec_.bytes.length = 192 → fields → x.rec_.roomOk = false → ends s 0x11 0) ∧
    (x.rec_.bytes.length = 192 → fields → x.rec_.roomOk = true → ∀ t r, s.textOf x.rec_ = (t, r) →
      (∀ v, r = .error (.fill v) → ends t 0x12 v) ∧
      ((∀ v, r ≠ .error (.fill v)) → t.slotsFull w = true → ends t 0x13 0) ∧
      (∀ k o, r = .error (.refused k o) → t.slotsFull w = false → ends t k 0) ∧
      ∀ o, r = .ok o → t.slotsFull w = false →
        let full := fld x.rec_.bytes 104 8 ≠ 0 ∧ ((t.slice 0).imageOf x.tenant).isNone ∧ t.imagesFull = true
        (full → ends t 0x18 0) ∧ (∀ u, ¬full → t.readWintab x = (u, none) → ends u 0x1B 0) ∧
        ∀ u wt, ¬full → t.readWintab x = (u, some wt) → fld x.rec_.bytes 104 8 = 0 → (w = 0 ∨ (u.slotOf w).isSome) →
          exec (.launch q) s = .next ((u.setGang { x with tested := true, image := [] }).noteHead q))) ∧
  (∀ (q : Nat) (c : QCmd) (s : State),
    (s.starting q 2 = some c → exec (.wait q) s = .next (s.startOf q c)) ∧
    (s.starting q 4 = some c → exec (.copy q) s = .next (s.startOf q c)) ∧
    (s.starting q 5 = some c → exec (.mark q) s = .next ((s.startOf q c).retireCmd q { c with started := true }
      (BitVec.ofNat 64 (fld c.bytes 16 8)))) ∧
    (s.inFlight q 3 = some c → exec (.signal q) s = .next (s.signal q c)) ∧
    (s.inFlight q 3 = none → s.starting q 3 = some c →
      exec (.signal q) s = .next ((s.startOf q c).signal q { c with started := true })) ∧
    (let a := unitFor (s.queue q).tenant
     let cells := cellsAt (fld c.bytes 16 8) (leBytes 8 (fld c.bytes 24 8))
     (s.txnWaits a cells false = true → s.signal q c = s) ∧
     ∀ t r, s.txnWaits a cells false = false → s.writeTxn a cells false = (t, r) → s.signal q c = (match r with
       | .ok _ => t.retireCmd q c 0
       | _ => t.failCmd q c)) ∧
    (∀ t r, s.inFlight q 2 = some c → s.homeMany (unitFor (s.queue q).tenant) (fld c.bytes 16 8) 8 = (t, r) →
      exec (.waitRetire q) s = .next (match r with
        | .ok bs => if leNat bs ≥ fld c.bytes 24 8 then t.retireCmd q c 0 else t
        | _ => t.failCmd q c)) ∧
    (s.inFlight q 4 = some c → s.copyWaits q (BitVec.ofNat 64 (fld c.bytes 24 8)) (fld c.bytes 32 8) = true →
      exec (.copyCommandComplete q) s = .next s) ∧
    (∀ t ok, s.inFlight q 4 = some c → s.copyWaits q (BitVec.ofNat 64 (fld c.bytes 24 8)) (fld c.bytes 32 8) = false →
      s.copyFrom q (BitVec.ofNat 64 (fld c.bytes 16 8)) (BitVec.ofNat 64 (fld c.bytes 24 8)) (fld c.bytes 32 8)
        (fun _ => true) (fld c.bytes 32 8 / 64 + 2) 0 = (t, ok) →
      exec (.copyCommandComplete q) s = .next (if ok then t.retireCmd q c 0 else t.failCmd q c))) ∧
  (∀ (q st code place : Nat) (seq detail : Word) (s : State), (s.queue q).jbad = false →
    let x := s.queue q
    let bs := leBytes 8 seq.toNat ++ [BitVec.ofNat 8 st, BitVec.ofNat 8 code, BitVec.ofNat 8 place] ++ leBytes 5 0 ++
      leBytes 8 s.refClock ++ leBytes 8 detail.toNat
    x.jwait ≠ [] ∨ s.ringWaits q x.jbase (x.jhead.toNat % 2 ^ bits x.jsize 4 0 * 32) bs = true →
      s.journal q seq st code place detail = s.setQueue q { x with jwait := x.jwait ++ [bs] }) ∧
  ∀ (q st code place : Nat) (seq detail : Word) (s : State), (s.queue q).jbad = false → bit (s.queue q).jbase 63 = true →
    (s.queue q).jwait = [] →
    let x := s.queue q
    let a := bits x.jbase 62 6 * 64 + x.jhead.toNat % 2 ^ bits x.jsize 4 0 * 32
    let t := s.journal q seq st code place detail
    t.hostMem = s.hostMem.write a (leBytes 8 seq.toNat ++ [BitVec.ofNat 8 st, BitVec.ofNat 8 code, BitVec.ofNat 8 place] ++
      leBytes 5 0 ++ leBytes 8 s.refClock ++ leBytes 8 detail.toNat) ∧
    t.queue q = { x with jhead := BitVec.ofNat 32 ((x.jhead.toNat + 1) % 2 ^ bits x.jsize 4 0) } ∧
    t.ctxs = s.ctxs ∧ t.clusters = s.clusters ∧ t.slices = s.slices

/-- R281 to R288, R293, R352 to R356, R377, R386: a LAUNCH reserves its block, is placed with its contexts as R283 starts them,
retires once every member has exited, is drained, saved and restored, and fails with the context that a fatal stop ends; a
function-level reset leaves its queues as at reset; a hardware error fences its cluster. That a reserving LAUNCH which has lost a
cluster of its block chooses anew, or gives its reservation up, is the model's choice (log 93). -/
def Obligations.GangEventsComplete : Prop :=
  (∀ (gid : Nat) (x : Gang) (b : List Nat) (s : State), s.gang? gid = some x → (s.eligible x).isSome →
    (∀ y ∈ s.gangs, y.tenant = x.tenant → y.id ≠ x.id → y.reserving = false ∧ s.before2 y x = false) → s.bestBlock x = some b →
    exec (.launchReserving gid) s = .next (s.setGang { x with reserving := true, target := b })) ∧
  (∀ (gid : Nat) (x : Gang) (s : State), s.gang? gid = some x → x.waits = true → x.reserving = true →
    (∃ cl ∈ x.target, s.owned x.tenant cl = false) →
    (∀ b, s.bestBlock x = some b → exec (.launchReserving gid) s = .next (s.setGang { x with target := b })) ∧
    (s.bestBlock x = none → exec (.launchReserving gid) s = .next (s.setGang { x with reserving := false, target := [] }))) ∧
  (∀ (gid : Nat) (x : Gang) (b : List Nat) (s : State), s.mayPlace gid .waiting = some (x, b) →
    exec (.gangPlace gid) s = .next ((s.grant x).placeOn x b)) ∧
  (∀ (r : LaunchRec) (ws : List Window) (g j m n : Nat), let c := startCtx r ws g j m n
    c.status = .ready ∧ c.pc = BitVec.ofNat 64 (fld r.bytes 16 4) ∧ c.reg (.s 2) = BitVec.ofNat 256 ((3 * 2 ^ 60 + r.localBytes) % 2 ^ 64) ∧
    c.reg (.s 5) = BitVec.ofNat 256 (j % 2 ^ 64) ∧ c.reg (.s 6) = BitVec.ofNat 256 (m % 2 ^ 64) ∧
    c.reg (.s 8) = BitVec.ofNat 256 (g % 2 ^ 64) ∧ (∀ i, i = 1 ∨ (9 ≤ i ∧ i < 32) → c.reg (.s i) = 0) ∧
    (∀ i < 32, c.reg (.v i) = 0) ∧ c.hm = false ∧ c.estat = 0 ∧ c.slim = 0x3000000000000000 ∧
    c.thv = BitVec.ofNat 64 (fld r.bytes 72 4) ∧ c.rqb = BitVec.ofNat 64 (fld r.bytes 80 8) + BitVec.ofNat 64 (2048 * (16 * j + m)) ∧
    c.rngs = BitVec.ofNat 64 (fld r.bytes 96 8) ^^^ BitVec.ofNat 64 ((16 * j + m) * 2 ^ 32) ∧ c.pend = [] ∧ c.steps = 0) ∧
  (∀ (gid : Nat) (x : Gang) (s : State), s.gang? gid = some x → x.phase = .running →
    (∀ g ∈ x.ctxs, (s.ctx g).status = .exited ∧ s.quiet g = true) → s.settled x.ctxs x.cores x.block = true →
    ∃ t, exec (.gangRetire gid) s = .next t ∧ ∀ y ∈ t.gangs, y.id ≠ gid) ∧
  (∀ (g i : Nat) (x : Gang) (s : State), (s.ctx g).status = .fatal → s.gangOf g = some (x, i) →
    ((s.ctx g).holds = none → exec (.fatalStop g) s = .next ((s.dump x g).failGang x.id 0x14 (BitVec.ofNat 64 g))) ∧
    ((s.ctx g).holds ≠ none → exec (.fatalStop g) s = .next ((s.dump x g).endCtx g))) ∧
  (∀ (ia : Word) (bs : List Byte) (x : Gang) (es : List (Word × Word × Word)) (s t u : State), s.mg.ready = true →
    let s0 := { s with mg := { s.mg with preempt := ia } }
    (s.mg.pstate = 1 → exec (.preempt ia) s = .next (s0.refuseRequest 4)) ∧
    (s.mg.pstate ≠ 1 → s0.objBytes ia.toNat 64 = (t, some bs) → t.named (fld bs 8 1) (BitVec.ofNat 64 (fld bs 0 8)) = some x →
      zeros bs 9 15 = true → zeros bs 36 63 = true → t.drainTable (fld bs 24 8) (fld bs 32 4) = (u, some es) →
      exec (.preempt ia) s = .next ((u.setGang { x with
        phase := .draining, save := BitVec.ofNat 64 (fld bs 16 8), dtab := es, saved := [], fell := [] }).setRequest 1 u.mg.pcode))) ∧
  (∀ (g i : Nat) (x : Gang) (s : State), s.gangOf g = some (x, i) → x.phase = .draining → (s.ctx g).hm = false →
    (s.ctx g).redo = none → (s.ctx g).report = [] → (s.ctx g).status = .ready ∨ (s.ctx g).status = .waiting → (s.ctx g).waitPh = none →
    let p := (s.ctx g).nextPc
    (∀ stub, stubOf x.dtab p = some stub → ∃ t, exec (.contextDrain g) s = .next t ∧ (t.ctx g).pc = stub ∧
      (t.ctx g).hm = true ∧ (t.ctx g).drain = true ∧ (t.ctx g).epc = p ∧ (t.ctx g).status = .ready ∧
      (t.ctx g).estat = ((s.ctx g).estat &&& 0xFF) ||| BitVec.ofNat 64 (0x10 * 2 ^ 8 + 15 * 2 ^ 16) ∧
      (∀ r, (t.ctx g).reg r = (s.ctx g).reg r) ∧ ∀ h, h ≠ g → t.ctx h = s.ctx h) ∧
    (stubOf x.dtab p = none → exec (.contextDrain g) s = .next (s.fallBack g p))) ∧
  (∀ (gid j cl : Nat) (x : Gang) (s : State), s.gang? gid = some x → x.block[j]? = some cl → x.phase = .draining →
    (x.saved.get? j) = none → x.rec_.flags % 2 = 0 →
    let gs := (List.range x.rec_.crewSize).map (ctxOfMember cl)
    (∀ g ∈ gs, (s.ctx g).drained = true ∧ s.quiet g = true) → s.settled gs ((List.range 4).map (cl * 4 + ·)) [cl] = true →
    s.collSeqs gs = [] →
    let u := ((List.range 4).foldl (fun t k => t.l1FlushAll (cl * 4 + k) (.dev, cl * 16)) (s.flushCombs cl)).saveCrew x j cl
    exec (.crewSave gid j) s = .next (match u.gang? gid with
      | some y => u.allSaved y
      | none => u)) ∧
  (∀ (gid : Nat) (x : Gang) (b : List Nat) (s : State), s.mayPlace gid .saved = some (x, b) → x.image = [] →
    ∃ t y, exec (.gangRestore gid) s = .next (((t.setGang y).setCmd x.queue (ofGang gid) fun c => { c with started := true }).journal
      x.queue x.rec_.jseq 2 0 y.place 0 |>.noteHead x.queue) ∧ y.phase = .running ∧ y.block = b ∧ y.id = x.id ∧
      t = x.saved.foldl (fun t e => t.restoreCrew x (x.moves b) e.1 (b.getD e.1 0) e.2) (s.grant x)) ∧
  (∀ (vf : Nat) (s : State), s.mg.ready = true → ∃ t, exec (.functionLevelReset vf) s = .next t ∧
    ∀ q ∈ s.vfQueues vf, t.queue q = Queue.init) ∧
  ∀ (core : Nat) (s : State), s.gangOf (core * 4) = none → core < 256 →
    exec (.uncorrectableHardwareError core) s = .next { s with mg := { s.mg with
      cfence := s.mg.cfence ||| (1#64 <<< (core / 4)), cfenceFw := s.mg.cfenceFw ||| (1#64 <<< (core / 4)) } }

/-! ### The device in its system -/

/-- R217, R274, R284, R290, R319 to R323, R365 to R372, R375, R376, R380, R381, R386, R387: bring-up passes its stages to READY
or fails; a reset or a loss of power leaves contexts, memory and key slots empty and keeps the one-time index; the clock is
throttled by 100 MHz a time; a thermal trip halts the module; an 8-byte write of the management space reaches its register with the
bits that exist, DSTAT none (the places of registers within the power block and that of PTROOT are the model's, log 81), and a
request that the port does not support completes as Unsupported Request (where the block of capabilities behind BAR0 ends, and the
bit of AER's status, are the model's, log 119); a slot table is in force from the next frame; a counter that wraps holds its core for a clock and
samples its bundle, and its breakdown follows. -/
def Obligations.DeviceEventsComplete : Prop :=
  (∀ s : State, ∃ t u, exec .powerOnReset s = .next t ∧ exec .powerLoss s = .next u ∧ t.mg.stage = 1 ∧ u.mg.stage = 0 ∧
    t.mg.ready = false ∧ u.mg.ready = false ∧ t.trust.xmss = s.trust.xmss ∧ u.trust.xmss = s.trust.xmss ∧ t.ctxs = [] ∧
    t.hbm = [] ∧ t.far = [] ∧ t.slices = [] ∧ t.trust.slots = [] ∧ u.ctxs = [] ∧ u.hbm = [] ∧ u.trust.slots = []) ∧
  (∀ (mask : BitVec 64) (s : State), s.mg.ready = false → s.mg.fail = false → 1 ≤ s.mg.stage → s.mg.stage ≤ 6 →
    (∃ t, exec (.bringupStageDone true mask) s = .next t ∧ t.mg.stage = s.mg.stage + 1 ∧ t.mg.fail = false ∧
      (t.mg.ready = true ↔ s.mg.stage = 6) ∧ (s.mg.stage = 5 → t.mg.cfence = mask) ∧
      (s.mg.stage = 4 → ∀ l < 16, (t.link l).up = mask.getLsbD l) ∧
      (s.mg.stage = 6 → t.mg.cfence = s.mg.cfenceFw ∧ t.mg.ptroot = 0 ∧ t.mg.ageb = 4194304 ∧ t.mg.clkMHz = 1600)) ∧
    (s.mg.stage ≠ 4 → ∃ t, exec (.bringupStageDone false mask) s = .next t ∧ t.mg.fail = true ∧ t.mg.stage = s.mg.stage)) ∧
  (∀ s : State,
    (s.mg.ready = true → 800 < s.mg.clkMHz → ∃ t, exec .throttle s = .next t ∧ t.mg.clkMHz = s.mg.clkMHz - 100 ∧
      t.mg.throt = decide (s.mg.clkMHz - 100 < 1600)) ∧
    (s.mg.ready = true → s.mg.clkMHz < 1600 → ∃ t, exec .throttleRelease s = .next t ∧ t.mg.clkMHz = s.mg.clkMHz + 100 ∧
      t.mg.throt = decide (s.mg.clkMHz + 100 < 1600)) ∧
    (∃ t, exec .thermalTrip s = .next t ∧ t.mg.stage = 8 ∧ t.mg.fail = true ∧ t.ctxs = s.ctxs ∧ t.hostMem = s.hostMem) ∧
    (s.clock % 65536 = 0 → exec .slotTableTurn s = .next { s with mg := { s.mg with slots := s.mg.slotsNew } })) ∧
  (∀ (v : Word) (s : State), s.mg.ready = true →
    exec (.cfenceWrite v) s = .next { s with mg := { s.mg with cfence := s.mg.cfenceFw ||| v } } ∧
    exec (.registerWrite none 0x110000 8 v) s = .next { s with mg := { s.mg with cfence := s.mg.cfenceFw ||| v } } ∧
    exec (.registerWrite none 0x40000 8 v) s = .next { s with mg := { s.mg with ptroot := v &&& 0x800001FFFFFFF000 } } ∧
    exec (.registerWrite none 0x40008 8 v) s = .next { s with mg := { s.mg with tinvBase := v &&& 0xFFFFFFFFF } } ∧
    exec (.registerWrite none 0x20500 8 v) s = .next { s with mg := { s.mg with
      ageb := max 65536 (min 1073741824 v.toNat) } } ∧
    exec (.registerWrite none 0x50000 8 v) s = .next { s with mg := { s.mg with dumpBase := v &&& 0x000FFFFFFFFF0000 } } ∧
    (400 ≤ v.toNat → v.toNat ≤ 1800 →
      exec (.registerWrite none 0x1000 8 v) s = .next { s with mg := { s.mg with pcap := v.toNat } }) ∧
    exec (.registerWrite none 0x40010 8 v) s = exec (.tinv v) s ∧ exec (.registerWrite none 0x50010 8 v) s = exec (.preempt v) s ∧
    exec (.registerWrite none 0 8 v) s = .next s ∧ exec (.registerWrite none 0x50018 8 v) s = .next s ∧
    (∀ q < 64, exec (.registerWrite none (0x10000 + 128 * q + 24) 8 v) s = exec (.qtailDoorbell q v) s) ∧
    (∀ cl < 64, ∀ r < 8, ∃ t, exec (.registerWrite none (0x80000 + 256 * cl + 8 * r) 8 v) s = .next t ∧
      vget (t.cl cl).dbg.bp r 0 = v &&& 0x8000FFFFFFFFFFFF)) ∧
  (∀ (off n : Nat) (v : Word) (fn : Option Nat) (s : State), let vf := ∀ f, fn = some f → s.vfOn f = true
    let bar := match fn with
      | none => 0x200000
      | some _ => 0x10000
    (s.mg.ready = false → exec (.cfenceWrite v) s = .next s ∧
      (vf → off + n ≤ bar → exec (.registerWrite fn off n v) s = .next s)) ∧
    (¬vf ∨ bar + 0x1000 < off + n → ∃ t, exec (.registerWrite fn off n v) s = .next t ∧ (t.pfn fn).aerStat.getLsbD 20 = true ∧
      t.outbox = s.outbox ++ [.unsupported fn off n] ∧ { t.mg with pcie := s.mg.pcie } = s.mg ∧ t.ctxs = s.ctxs)) ∧
  (∀ (e : CntEv) (n w : Nat) (s : State), n < 4 → (vget (s.cl (clusterOf e.g)).dbg.cnt n 0).toNat = w →
    w / 2 ^ 32 % 16 = e.ev → w.testBit (48 + memberOf e.g) = true →
    let t := s.countOne e n
    ((vget (t.cl (clusterOf e.g)).dbg.cnt n 0).toNat = w / 2 ^ 32 * 2 ^ 32 + (w + 1) % 2 ^ 32) ∧
    (w % 2 ^ 32 = 2 ^ 32 - 1 → (t.core (coreOf e.g)).frozen = s.clock + 2 ∧ t.agenda = .cntSample (clusterOf e.g) n :: s.agenda ∧
      (t.cl (clusterOf e.g)).dbg.hits = (s.cl (clusterOf e.g)).dbg.hits ++
        [⟨n, e.g, e.addr, e.step, s.eventOrd e, s.refClock⟩])) ∧
  (∀ (cl n : Nat) (h : Hit) (r : List Hit) (s : State), takeFirst (fun h => h.cnt == n) (s.cl cl).dbg.hits = some (h, r) →
    ∃ t, exec (.cntSample cl n) s = .next t ∧ (∀ g, SameRegisters (t.ctx g) (s.ctx g)) ∧
      t = (s.setCl cl { s.cl cl with dbg := { (s.cl cl).dbg with hits := r } }).owlAt h.time h.g 3 n h.ord
        (leBytes 4 h.addr.toNat ++ leBytes 8 h.step ++ leBytes 4 0)) ∧
  ∀ (cl n : Nat) (h : Sample) (r : List Sample) (total : BitVec 32) (st : List (BitVec 16)) (s : State),
    takeFirst (fun h => h.cnt == n) (s.cl cl).dbg.sample = some (h, r) →
    (∀ o ∈ (s.ctx h.g).pend, o.landed = true) → (∀ l ∈ (s.ctx h.g).ldfs, l.at_ = .answered) →
    st.length = 8 → (st.map (·.toNat)).foldl (· + ·) 0 ≤ total.toNat →
    (bits (s.cl cl).dbg.retBase 51 6 = 0 → exec (.sampleBreakdown cl n total st) s = .next ((s.setCl cl { s.cl cl with
      dbg := { (s.cl cl).dbg with sample := r } }).owl h.g 4 n total.toNat (st.flatMap fun x => leBytes 2 x.toNat))) ∧
    (bits (s.cl cl).dbg.retBase 51 6 ≠ 0 → ∃ t, exec (.sampleBreakdown cl n total st) s = .next t ∧
      (t.ctx h.g).retSeq = (s.ctx h.g).retSeq + 1)

/-- R324, R330, R333 to R335, R381 to R385, R388: a flit in order on a formed link that authenticates is acknowledged and
delivered, one that does not takes its link down, a damaged one is answered by a NAK, any other is dropped (log 79); a link retrains after 8
replays of a flit, and keeps at most 512 flits; FORM takes the roster, and a link is up afterwards that was up before and whose far
end is the roster's; each signature, of a key's nonce, of a link formed or of evidence, commits the next one-time index first; a
delivered key fills its world's slot and derives its keys; releasing a world frees its slots; evidence waits for every member; the
sideband answers a sensor with its value, and takes an update of the firmware only while no gang is placed. -/
def Obligations.LinkAndTrustEventsComplete : Prop :=
  (∀ (l : Nat) (f : List Byte) (s : State), let x := s.link l
    let good := (crc32c (f.take 252)).toNat = fld f 252 4
    let inOrder := fld f 4 2 % 4096 = (x.rxSeq + 1).toNat
    let k := keyBytes x.rxKey
    let nonce := flitNonce x.rxId x.rxCount
    let authentic := gcmTag k nonce (f.take 8) (sub f 8 224) = sub f 232 16
    (x.up = false ∨ x.stopped = true ∨ s.trust.members = [] ∨ f.length ≠ 256 → exec (.flitReceive l f) s = .next s) ∧
    (x.up = true → x.stopped = false → s.trust.members ≠ [] → f.length = 256 →
      (¬good → exec (.flitReceive l f) s = .next (s.sendNak l)) ∧ (good → ¬inOrder → exec (.flitReceive l f) s = .next s) ∧
      (good → inOrder → ¬authentic → exec (.flitReceive l f) s = .next (s.linkDown l)) ∧
      (good → inOrder → authentic → exec (.flitReceive l f) s = .next
        (((s.setLink l { x with rxSeq := x.rxSeq + 1, rxCount := x.rxCount + 1 }).acked l (fld f 6 2)).deliver l (f.take 8)
          (gcmStream k nonce (sub f 8 224))))) ∧
    (x.up = true → x.training = false → (∃ n ∈ x.replays, 8 ≤ n) →
      exec (.linkRetrain l) s = .next (s.setLink l { x with training := true })) ∧
    (x.training = true →
      exec (.linkRetrainDone l true) s = .next ((s.setLink l { x with training := false, replays := x.unacked.map fun _ => 0 }).resend l |>.sendWaiting l) ∧
      exec (.linkRetrainDone l false) s = .next (s.linkDown l)) ∧
    (x.unacked.length ≤ 512 → ((s.sendNak l).link l).unacked.length ≤ 512 ∧
      ∀ head payload, ((s.sendFlit l head payload).link l).unacked.length ≤ 512)) ∧
  (∀ (ps : List (Option (BitVec 256 × BitVec 256))) (s : State),
    (s.mg.ready = true → (∀ x ∈ s.gangs, x.placed = false) → ∃ t, exec (.form ps) s = .next t ∧
      t.trust.myIdx = Config.rosterIndex s.trust.roster ∧
      t.trust.members = (List.range (min (Config.rosterCount s.trust.roster) 256)).map (Config.rosterDevid s.trust.roster) ∧
      t.trust.slots = s.trust.slots ∧ t.ctxs = s.ctxs ∧
      let forms := fun l => (s.link l).up && match ps.getD l none, Config.rosterFar s.trust.roster t.trust.myIdx l with
        | some p, some f => decide (Config.rosterDevid s.trust.roster f = p.1)
        | _, _ => false
      (s.trust.xmss + 16 ≤ 2 ^ 20 → t.trust.xmss = s.trust.xmss + (List.range 16).countP forms ∧
        ∀ l < 16, (t.link l).up = forms l)) ∧
    (s.gangs.any (·.placed) = true → exec (.form ps) s = .next s)) ∧
  (∀ (nonce : BitVec 256) (s : State), s.mg.ready = true →
    (s.trust.xmss < 2 ^ 20 → ∃ t, exec (.keyNonceRequest nonce) s = .next t ∧ t.trust.xmss = s.trust.xmss + 1 ∧
      t.trust.keyDraw = some s.rnd ∧ t.rnd = s.rnd + 1 ∧
      ∃ a os, t.outbox = s.outbox ++ .mailbox .ok a :: os ∧ a.length = 1568 + 2820) ∧
    (2 ^ 20 ≤ s.trust.xmss → ∃ t, exec (.keyNonceRequest nonce) s = .next t ∧ t.trust = { s.trust with mbox := [] } ∧
      ∃ os, t.outbox = s.outbox ++ .mailbox .exhausted [] :: os)) ∧
  (∀ (block : List Byte) (d : Nat) (k : BitVec 256) (s : State), s.mg.ready = true →
    let w := BitVec.ofNat 8 (fld block 1616 1)
    (s.trust.keyDraw = none → exec (.keyDelivery block) s = .next (s.mail .refused [])) ∧
    (s.trust.keyDraw = some d → unwrapKey d block = none → ∃ t, exec (.keyDelivery block) s = .next t ∧ t.trust.keyDraw = none ∧
      t.trust.slots = s.trust.slots) ∧
    (s.trust.keyDraw = some d → unwrapKey d block = some k → s.slotOf w = none → w ≠ 0 → s.trust.slots.length < 64 →
      ∃ t y, exec (.keyDelivery block) s = .next t ∧ t.trust.keyDraw = none ∧ t.trust.slots = s.trust.slots ++ [y] ∧
        y.world = w ∧ y.tenant = fld block 1617 1 ∧ y.kt = some k ∧ y.content = some (shake64 (0x02 :: keyBytes k)) ∧
        y.transit = some (shake64 (0x03 :: keyBytes k)))) ∧
  (∀ (w : Byte) (s : State), s.mg.ready = true → w ≠ 0 → (∀ x ∈ s.gangs, x.rec_.world ≠ w.toNat) →
    ∃ t, exec (.worldRelease w) s = .next t ∧ (∀ k, k ∈ t.trust.slots ↔ k ∈ s.trust.slots ∧ k.world ≠ w)) ∧
  (∀ (w : Byte) (n : BitVec 256) (as : List (Nat × List Byte)) (m : Nat) (x : Gather) (s : State),
    (s.mg.ready = true → s.trust.members ≠ [] → exec (.evidenceRequest w n as) s = .next (s.setGather ⟨w, n,
      (s.trust.myIdx, s.evidence w n) :: as.filter fun a => decide (a.1 ≠ s.trust.myIdx) &&
        decide (a.1 < s.trust.members.length) && decide (a.2.length = 168)⟩)) ∧
    (s.trust.gather = some x → (∀ r ∈ x.records, r.1 ≠ m) → m < s.trust.members.length →
      exec (.evidenceTimeout m) s = .next (s.setGather { x with records := x.records ++ [(m, absentRecord m)] })) ∧
    ((∃ i < s.trust.members.length, ∀ r ∈ x.records, r.1 ≠ i) →
      s.setGather x = { s with trust := { s.trust with gather := some x } }) ∧
    ((∀ i < s.trust.members.length, ∃ r ∈ x.records, r.1 = i) → let t := s.setGather x
      t.trust.gather = none ∧
      (s.trust.xmss < 2 ^ 20 → t.trust.xmss = s.trust.xmss + 1 ∧ ∃ root digest rest os, t.outbox = s.outbox ++
        .mailbox .ok (root ++ leBytes 2820 (Config.xmssSign s.trust.xmss digest).toNat ++ rest) :: os) ∧
      (2 ^ 20 ≤ s.trust.xmss → t.trust.xmss = s.trust.xmss ∧ ∃ os, t.outbox = s.outbox ++ .mailbox .exhausted [] :: os))) ∧
  ∀ (msg : List Byte) (s : State),
    let answers := fun (t : State) (a : List Byte) => exec (.sidebandMessage msg) s = .next { t with
      outbox := t.outbox ++ [.sideband a] }
    (∀ n, Config.sidebandReq msg = .sensor n → answers s (Config.sensorAnswer msg (s.sensor n))) ∧
    s.sensor .dstat = s.dstat ∧ s.sensor .clknow = BitVec.ofNat 64 s.mg.clkMHz ∧
    (∀ image, Config.sidebandReq msg = .update image →
      ((∃ x ∈ s.gangs, x.placed = true) ∨ Config.firmwareGood image = false → answers s (Config.updateAnswer msg false)) ∧
      ((∀ x ∈ s.gangs, x.placed = false) → Config.firmwareGood image = true →
        answers { s with trust := { s.trust with fwNext := some (Config.firmwareMeasure image) } }
          (Config.updateAnswer msg true))) ∧
    (Config.sidebandReq msg = .other → answers s (Config.sidebandAnswer s.fresh msg))

/-- R41, R48 to R58: a word that the decoder accepts is the encoding of a well-formed instruction, so that no reserved bit is
passed over and no two words stand for one instruction. -/
def Obligations.DecodedWordsAreTheirEncodings : Prop :=
  ∀ (k : Slot) (w : Syl) (i : Instr), classOf (opOf w) = some k.cls → decodeSyl k w = .ok i →
    i.wf = true ∧ encode i = some w
end

