-- ==== Sys2Proof/Laws/Key.lean ====
section
/-! SUPPORT. The fields of the management state that `Legal` speaks of, and the lemmas that carry them through folds. -/

namespace Sys2Proof.Machine
open Sys2Proof

/-- Stage, READY, FAIL, THROT, PCAP, the clock, AGEB and the one-time index of R333. -/
structure Key where
  stage : Nat
  ready : Bool
  fail : Bool
  throt : Bool
  pcap : Nat
  clkMHz : Nat
  ageb : Nat
  xmss : Nat
  deriving DecidableEq, Repr

/-- Those fields of a state. -/
def State.key (s : State) : Key :=
  ⟨s.mg.stage, s.mg.ready, s.mg.fail, s.mg.throt, s.mg.pcap, s.mg.clkMHz, s.mg.ageb, s.trust.xmss⟩

@[simp] theorem State.key_mk (a b c d e f g h i j k m t l n o lo p q r u v w x y z cu is) :
    (State.mk a b c d e f g h i j k m t l n o lo p q r u v w x y z cu is).key =
      ⟨m.stage, m.ready, m.fail, m.throt, m.pcap, m.clkMHz, m.ageb, t.xmss⟩ := rfl

@[simp] theorem State.key_fold (s : State) :
    (Key.mk s.mg.stage s.mg.ready s.mg.fail s.mg.throt s.mg.pcap s.mg.clkMHz s.mg.ageb s.trust.xmss) = s.key := rfl

/-- Those of the state that an outcome goes on with. -/
def okey : Outcome → Option Key
  | .next s => some s.key
  | .fault _ => none
  | .refused _ => none

@[simp] theorem okey_next (s : State) : okey (.next s) = some s.key := rfl

/-- Those of the state after a try. -/
def tkey : Tried → Key
  | .acted s => s.key
  | .waits s => s.key
@[simp] theorem tkey_acted (s : State) : tkey (.acted s) = s.key := rfl
@[simp] theorem tkey_waits (s : State) : tkey (.waits s) = s.key := rfl

theorem foldl_key {α : Type} (f : State → α → State) (h : ∀ t x, (f t x).key = t.key) (l : List α) (s : State) :
    (l.foldl f s).key = s.key := by
  induction l generalizing s with
  | nil => rfl
  | cons a r ih => simp only [List.foldl_cons, ih, h]

theorem foldl_key1 {α β : Type} (f : State × β → α → State × β) (h : ∀ t x, (f t x).1.key = t.1.key) (l : List α)
    (s : State × β) : (l.foldl f s).1.key = s.1.key := by
  induction l generalizing s with
  | nil => rfl
  | cons a r ih => simp only [List.foldl_cons, ih, h]

end Sys2Proof.Machine
end

