-- ==== Sys2Proof/Laws/KeyUnits.lean ====
section
/-! SUPPORT. Nothing but the events of `Laws.Legal` changes the management fields of `Key`: one lemma for each operation. -/

namespace Sys2Proof.Machine
open Sys2Proof

@[simp] theorem State.setCtx_key (x0 : State) (x1 : Nat) (x2 : Ctx) :
    (State.setCtx x0 x1 x2).key = x0.key := by
  unfold State.setCtx
  simp

@[simp] theorem State.setMe_key (x0 : State) (x1 : Ctx) :
    (State.setMe x0 x1).key = x0.key := by
  unfold State.setMe
  simp

@[simp] theorem State.setCore_key (x0 : State) (x1 : Nat) (x2 : Core) :
    (State.setCore x0 x1 x2).key = x0.key := by
  unfold State.setCore
  simp

@[simp] theorem State.setCl_key (x0 : State) (x1 : Nat) (x2 : Cluster) :
    (State.setCl x0 x1 x2).key = x0.key := by
  unfold State.setCl
  simp

@[simp] theorem State.setSlice_key (x0 : State) (x1 : Nat) (x2 : Slice) :
    (State.setSlice x0 x1 x2).key = x0.key := by
  unfold State.setSlice
  simp

@[simp] theorem State.setQueue_key (x0 : State) (x1 : Nat) (x2 : Queue) :
    (State.setQueue x0 x1 x2).key = x0.key := by
  unfold State.setQueue
  simp

@[simp] theorem State.setGang_key (x0 : State) (x1 : Gang) :
    (State.setGang x0 x1).key = x0.key := by
  unfold State.setGang
  simp

@[simp] theorem State.send_key (x0 : State) (x1 : Out) :
    (State.send x0 x1).key = x0.key := by
  unfold State.send
  simp

@[simp] theorem State.orFlags_key (x0 : State) (x1 : Nat) (x2 : Byte) :
    (State.orFlags x0 x1 x2).key = x0.key := by
  unfold State.orFlags
  grind [State.key, okey, tkey, State.setCtx_key]

@[simp] theorem State.noteWalk_key (x0 : State) (x1 : Nat) :
    (State.noteWalk x0 x1).key = x0.key := by
  unfold State.noteWalk
  simp

@[simp] theorem State.memWrite_key (x0 : State) (x1 : Pte) (x2 : Nat) (x3 : List Byte) :
    (State.memWrite x0 x1 x2 x3).key = x0.key := by
  unfold State.memWrite
  grind [State.key, okey, tkey]

@[simp] theorem State.raiseHint_key (x0 : State) (x1 : Nat) (x2 : BEvent) :
    (State.raiseHint x0 x1 x2).key = x0.key := by
  unfold State.raiseHint
  grind [State.key, okey, tkey, State.setSlice_key]

@[simp] theorem State.wake_key (x0 : State) (x1 : Nat) :
    (State.wake x0 x1).key = x0.key := by
  unfold State.wake
  simp

@[simp] theorem State.writeBack_key (x0 : State) (x1 : Nat) (x2 : Line) (x3 : Nat) (x4 : Nat) :
    (State.writeBack x0 x1 x2 x3 x4).key = x0.key := by
  induction x4 generalizing x0 x3 with
  | zero => rfl
  | succ n ih =>
    unfold State.writeBack
    rw [ih]
    split
    · simp only []
      split <;> simp
    · rfl

@[simp] theorem State.evict_key (x0 : State) (x1 : Nat) (x2 : Nat) :
    (State.evict x0 x1 x2).key = x0.key := by
  unfold State.evict
  grind [State.key, okey, tkey, State.wake_key, State.raiseHint_key, State.setSlice_key, State.writeBack_key]

@[simp] theorem State.makeRoom_key (x0 : State) (x1 : Nat) (x2 : Nat) (x3 : Machine.Acc) (x4 : BitVec 2) (x5 : Bool) :
    (State.makeRoom x0 x1 x2 x3 x4 x5).1.key = x0.key := by
  unfold State.makeRoom
  grind [State.key, okey, tkey, State.evict_key]

@[simp] theorem State.newLine_key (x0 : State) (x1 : Nat) (x2 : Nat) (x3 : Machine.Acc) (x4 : BitVec 2) :
    (State.newLine x0 x1 x2 x3 x4).key = x0.key := by
  unfold State.newLine
  simp

@[simp] theorem State.fillSector_key (x0 : State) (x1 : Nat) (x2 : Nat) (x3 : Pte) (x4 : Machine.Acc) :
    (State.fillSector x0 x1 x2 x3 x4).key = x0.key := by
  unfold State.fillSector
  grind [State.key, okey, tkey, State.raiseHint_key, State.setSlice_key]

@[simp] theorem State.heal_key (x0 : State) (x1 : Nat) (x2 : Machine.Acc) :
    (State.heal x0 x1 x2).key = x0.key := by
  unfold State.heal
  grind [State.key, okey, tkey, State.fillSector_key, State.noteWalk_key]

@[simp] theorem State.fetch_key (x0 : State) (x1 : Nat) (x2 : Machine.Acc) (x3 : Bool) (x4 : Bool) (x5 : Bool) :
    (State.fetch x0 x1 x2 x3 x4 x5).1.key = x0.key := by
  unfold State.fetch
  grind [State.key, okey, tkey, State.newLine_key, State.raiseHint_key, State.makeRoom_key, State.fillSector_key,
    State.noteWalk_key]

@[simp] theorem State.arrive_key (x0 : State) (x1 : Nat) (x2 : Fill) :
    (State.arrive x0 x1 x2).key = x0.key := by
  unfold State.arrive
  grind [State.key, okey, tkey, State.fetch_key, State.setSlice_key]

@[simp] theorem State.awaitFill_key (x0 : State) (x1 : Nat) :
    (State.awaitFill x0 x1).key = x0.key := by
  unfold State.awaitFill
  grind [State.key, okey, tkey, State.arrive_key]

@[simp] theorem State.bring_key (x0 : State) (x1 : Nat) (x2 : Machine.Acc) (x3 : Bool) (x4 : Bool) (x5 : Bool) :
    (State.bring x0 x1 x2 x3 x4 x5).1.key = x0.key := by
  unfold State.bring
  grind [State.key, okey, tkey, State.awaitFill_key, State.heal_key, State.fetch_key]

@[simp] theorem State.place_key (x0 : State) (x1 : Nat) (x2 : Machine.Acc) (x3 : Bool) :
    (State.place x0 x1 x2 x3).1.key = x0.key := by
  unfold State.place
  grind [State.key, okey, tkey, State.newLine_key, State.awaitFill_key, State.raiseHint_key, State.makeRoom_key,
    State.setSlice_key, State.noteWalk_key]

@[simp] theorem State.touch_key (x0 : State) (x1 : Nat) :
    (State.touch x0 x1).key = x0.key := by
  unfold State.touch
  grind [State.key, okey, tkey, State.setSlice_key]

@[simp] theorem State.homeRead_key (x0 : State) (x1 : Nat) (x2 : Nat) (x3 : Machine.Acc) (x4 : Bool) (x5 : optParam Bool
  Bool.false) :
    (State.homeRead x0 x1 x2 x3 x4 x5).1.key = x0.key := by
  unfold State.homeRead
  grind [State.key, okey, tkey, State.touch_key, State.bring_key]

@[simp] theorem State.l1Update_key (x0 : State) (x1 : Nat) (x2 : Nat) (x3 : List Byte) (x4 : Byte) :
    (State.l1Update x0 x1 x2 x3 x4).key = x0.key := by
  unfold State.l1Update
  grind [State.key, okey, tkey, State.setCore_key]

@[simp] theorem State.answer_key (x0 : State) (x1 : Nat) (x2 : Nat) (x3 : Word) (x4 : Nat) :
    (State.answer x0 x1 x2 x3 x4).key = x0.key := by
  unfold State.answer
  simp

@[simp] theorem State.answerDeferred_key (x0 : State) (x1 : Nat) (x2 : Nat) (x3 : Nat) (x4 : List Defer) :
    (State.answerDeferred x0 x1 x2 x3 x4).key = x0.key := by
  fun_induction State.answerDeferred x0 x1 x2 x3 x4 <;> first
    | (simp_all; done)
    | (simp_all; done)
    | grind [State.key, okey, tkey, State.answer_key, State.l1Update_key, State.setSlice_key]

@[simp] theorem State.putBlock_key (x0 : State) (x1 : Nat) (x2 : Byte) (x3 : List (Nat × Byte)) :
    (State.putBlock x0 x1 x2 x3).key = x0.key := by
  unfold State.putBlock
  grind [State.key, okey, tkey, State.setSlice_key]

@[simp] theorem State.putBlockMem_key (x0 : State) (x1 : Nat) (x2 : Byte) (x3 : List (Nat × Byte)) :
    (State.putBlockMem x0 x1 x2 x3).key = x0.key := by
  unfold State.putBlockMem
  grind [State.key, okey, tkey, State.memWrite_key]

@[simp] theorem State.bringAll_key (x0 : State) (x1 : Machine.Acc) (x2 : Bool) (x3 : List (Nat × Byte)) (x4 : List Nat) :
    (State.bringAll x0 x1 x2 x3 x4).1.key = x0.key := by
  fun_induction State.bringAll x0 x1 x2 x3 x4 <;> first
    | (simp_all [Prod.ext_iff]; done)
    | (simp_all; done)
    | grind [State.key, okey, tkey, State.place_key, State.bring_key]

@[simp] theorem State.afterWrite_key (x0 : State) (x1 : Nat) (x2 : Nat) (x3 : Machine.Acc) :
    (State.afterWrite x0 x1 x2 x3).key = x0.key := by
  unfold State.afterWrite
  grind [State.key, okey, tkey, State.answerDeferred_key, State.wake_key, State.setSlice_key]

@[simp] theorem State.performTxn_key (x0 : State) (x1 : Machine.Acc) (x2 : List (Nat × Byte)) (x3 : Bool) (x4 : Nat) :
    (State.performTxn x0 x1 x2 x3 x4).1.key = x0.key := by
  have h := State.bringAll_key x0 x1 x3 x2 (sectorsOf x2)
  unfold State.performTxn
  split
  · rfl
  · split <;> rename_i e <;> rw [e] at h <;> simp only [] at h ⊢ <;> try exact h
    split <;> simp [foldl_key, h]

@[simp] theorem State.writeTxn_key (x0 : State) (x1 : Acc) (x2 : List (Nat × Byte)) (x3 : Bool) (x4 : Nat) (x5 : LateEnd) :
    (State.writeTxn x0 x1 x2 x3 x4 x5).1.key = x0.key := by
  unfold State.writeTxn
  grind [State.key, okey, tkey, State.performTxn_key]

@[simp] theorem State.versionOf_key (x0 : State) (x1 : Nat) (x2 : Machine.Acc) :
    (State.versionOf x0 x1 x2).1.key = x0.key := by
  unfold State.versionOf
  grind [State.key, okey, tkey, State.bring_key]

@[simp] theorem State.homeBytes_key (x0 : State) (x1 : Machine.Acc) (x2 : Nat) (x3 : Nat) (x4 : Nat) :
    (State.homeBytes x0 x1 x2 x3 x4).1.key = x0.key := by
  induction x2 generalizing x0 x3 x4 with
  | zero => rfl
  | succ n ih =>
    unfold State.homeBytes
    simp only []
    repeat' split
    all_goals grind [State.homeRead_key]

@[simp] theorem State.homeMany_key (x0 : State) (x1 : Machine.Acc) (x2 : Nat) (x3 : Nat) :
    (State.homeMany x0 x1 x2 x3).1.key = x0.key := by
  unfold State.homeMany
  simp

@[simp] theorem State.sectorWrites_key (x0 : State) (x1 : Acc) (x2 : LateEnd) (x3 : Nat) (x4 : Nat) (x5 : List Byte) :
    (State.sectorWrites x0 x1 x2 x3 x4 x5).1.key = x0.key := by
  induction x3 generalizing x0 x4 x5 with
  | zero => rfl
  | succ n ih =>
    unfold State.sectorWrites
    simp only []
    repeat' split
    all_goals grind [State.writeTxn_key]

@[simp] theorem State.setAsync_key (x0 : State) (x1 : Nat) (x2 : Nat) :
    (State.setAsync x0 x1 x2).key = x0.key := by
  unfold State.setAsync
  grind [State.key, okey, tkey, State.setCtx_key]

@[simp] theorem State.l1Send_key (x0 : State) (x1 : Nat) (x2 : Nat) (x3 : BitVec 256) (x4 : Scope × Nat) :
    (State.l1Send x0 x1 x2 x3 x4).key = x0.key := by
  unfold State.l1Send
  grind [State.key, okey, tkey, State.setCore_key, State.writeTxn_key, State.setAsync_key]

@[simp] theorem State.l1WriteBack_key (x0 : State) (x1 : Nat) (x2 : Nat) (x3 : Scope × Nat) :
    (State.l1WriteBack x0 x1 x2 x3).key = x0.key := by
  unfold State.l1WriteBack
  simp

@[simp] theorem State.l1Inval_key (x0 : State) (x1 : Nat) (x2 : Nat) (x3 : Scope × Nat) :
    (State.l1Inval x0 x1 x2 x3).key = x0.key := by
  unfold State.l1Inval
  grind [State.key, okey, tkey, State.setCore_key, State.l1WriteBack_key]

@[simp] theorem State.l1Evict_key (x0 : State) (x1 : Nat) (x2 : Nat) :
    (State.l1Evict x0 x1 x2).key = x0.key := by
  unfold State.l1Evict
  grind [State.key, okey, tkey, State.setCore_key, State.l1WriteBack_key]

@[simp] theorem State.l1Room_key (x0 : State) (x1 : Nat) (x2 : Nat) :
    (State.l1Room x0 x1 x2).1.key = x0.key := by
  unfold State.l1Room
  grind [State.key, okey, tkey, State.l1Evict_key]

@[simp] theorem State.checkFill_key (x0 : State) (x1 : Nat) (x2 : Nat) :
    (State.checkFill x0 x1 x2).1.key = x0.key := by
  unfold State.checkFill
  grind [State.key, okey, tkey, State.setSlice_key]

@[simp] theorem State.l1Load_key (x0 : State) (x1 : Nat) (x2 : Nat) (x3 : Nat) (x4 : Nat) (x5 : Acc) :
    (State.l1Load x0 x1 x2 x3 x4 x5).1.key = x0.key := by
  unfold State.l1Load
  grind [State.key, okey, tkey, State.setCore_key, State.homeRead_key, State.l1Room_key]

@[simp] theorem State.l1Store_key (x0 : State) (x1 : Nat) (x2 : Nat) (x3 : Nat) (x4 : List Byte) (x5 : Acc) (x6 : Bool) :
    (State.l1Store x0 x1 x2 x3 x4 x5 x6).1.key = x0.key := by
  unfold State.l1Store
  grind [State.key, okey, tkey, State.setCore_key, State.writeTxn_key, State.setAsync_key, State.l1Room_key]

@[simp] theorem State.dropBuffered_key (x0 : State) (x1 : Nat) :
    (State.dropBuffered x0 x1).key = x0.key := by
  unfold State.dropBuffered
  simp

@[simp] theorem State.commitLine_key (x0 : State) (x1 : Nat) (x2 : Nat) (x3 : Nat) :
    (State.commitLine x0 x1 x2 x3).key = x0.key := by
  unfold State.commitLine
  grind [State.key, okey, tkey, State.setCore_key, State.writeTxn_key, State.setAsync_key, State.l1Send_key]

@[simp] theorem State.sendFirst_key (x0 : State) (x1 : Nat) (x2 : Nat) (x3 : Byte) (x4 : Nat) :
    (State.sendFirst x0 x1 x2 x3 x4).key = x0.key := by
  unfold State.sendFirst
  simp

@[simp] theorem State.l1SendRange_key (x0 : State) (x1 : Nat) (x2 : Nat) (x3 : Nat) (x4 : Scope × Nat) :
    (State.l1SendRange x0 x1 x2 x3 x4).key = x0.key := by
  unfold State.l1SendRange
  (repeat' split) <;> simp [foldl_key]

@[simp] theorem State.l1InvalRange_key (x0 : State) (x1 : Nat) (x2 : Nat) (x3 : Nat) (x4 : Scope × Nat) :
    (State.l1InvalRange x0 x1 x2 x3 x4).key = x0.key := by
  unfold State.l1InvalRange
  (repeat' split) <;> simp [foldl_key]

@[simp] theorem State.l1FlushAll_key (x0 : State) (x1 : Nat) (x2 : Scope × Nat) :
    (State.l1FlushAll x0 x1 x2).key = x0.key := by
  unfold State.l1FlushAll
  (repeat' split) <;> simp [foldl_key]

@[simp] theorem State.releaseMarks_key (x0 : State) (x1 : Nat) :
    (State.releaseMarks x0 x1).key = x0.key := by
  unfold State.releaseMarks
  simp

@[simp] theorem State.setPfn_key (x0 : State) (x1 : Option Nat) (x2 : PcieFn) :
    (State.setPfn x0 x1 x2).key = x0.key := by
  unfold State.setPfn
  simp

@[simp] theorem State.raise_key (x0 : State) (x1 : Option Nat) (x2 : Nat) :
    (State.raise x0 x1 x2).key = x0.key := by
  unfold State.raise
  grind [State.key, okey, tkey, State.setPfn_key, State.send_key]

@[simp] theorem State.journalMsg_key (x0 : State) (x1 : Nat) :
    (State.journalMsg x0 x1).key = x0.key := by
  unfold State.journalMsg
  grind [State.key, okey, tkey, State.raise_key]

@[simp] theorem State.ringWrite_key (x0 : State) (x1 : Nat) (x2 : Word) (x3 : Nat) (x4 : List Byte) :
    (State.ringWrite x0 x1 x2 x3 x4).1.key = x0.key := by
  unfold State.ringWrite
  grind [State.key, okey, tkey, State.writeTxn_key, State.send_key]

@[simp] theorem State.jput_key (x0 : State) (x1 : Nat) (x2 : List Byte) :
    (State.jput x0 x1 x2).key = x0.key := by
  unfold State.jput
  grind [State.key, okey, tkey, State.setQueue_key, State.journalMsg_key, State.ringWrite_key]

@[simp] theorem State.journal_key (x0 : State) (x1 : Nat) (x2 : Word) (x3 : Nat) (x4 : Nat) (x5 : Nat) (x6 : Word) :
    (State.journal x0 x1 x2 x3 x4 x5 x6).key = x0.key := by
  unfold State.journal
  grind [State.key, okey, tkey, State.setQueue_key, State.place_key, State.jput_key]

@[simp] theorem State.notice_key (x0 : State) (x1 : Nat) (x2 : Nat) (x3 : Word) :
    (State.notice x0 x1 x2 x3).key = x0.key := by
  unfold State.notice
  grind [State.key, okey, tkey, State.setQueue_key, State.journal_key]

@[simp] theorem State.lateDone_key (x0 : State) (x1 : Nat) (x2 : LateEnd) (x3 : Res Unit) :
    (State.lateDone x0 x1 x2 x3).key = x0.key := by
  unfold State.lateDone
  grind [State.key, okey, tkey, State.setAsync_key, State.notice_key]

@[simp] theorem State.retryLate_key (x0 : State) (x1 : LateTxn) :
    (State.retryLate x0 x1).key = x0.key := by
  unfold State.retryLate
  grind [State.key, okey, tkey, State.homeRead_key, State.performTxn_key, State.setAsync_key, State.lateDone_key]

@[simp] theorem State.retryJournal_key (x0 : State) (x1 : Nat) (x2 : Nat) :
    (State.retryJournal x0 x1 x2).key = x0.key := by
  induction x2 generalizing x0 with
  | zero => rfl
  | succ n ih =>
    unfold State.retryJournal
    split
    · rfl
    · split
      · rfl
      · rw [ih]; simp

@[simp] theorem State.retryAll_key (x0 : State) :
    (State.retryAll x0).key = x0.key := by
  unfold State.retryAll
  (repeat' split) <;> simp [foldl_key]

@[simp] theorem State.sendPending_key (x0 : State) (x1 : Option Nat) :
    (State.sendPending x0 x1).key = x0.key := by
  unfold State.sendPending
  simp only []
  (repeat' split) <;> first
    | (simp_all [foldl_key, apply_ite State.key]; done)
    | (simp_all [Prod.ext_iff, foldl_key]; (repeat' split) <;> simp; done)

@[simp] theorem State.pfMsg_key (x0 : State) (x1 : Nat) :
    (State.pfMsg x0 x1).key = x0.key := by
  unfold State.pfMsg
  simp

@[simp] theorem State.noticeAll_key (x0 : State) (x1 : Nat) (x2 : Word) :
    (State.noticeAll x0 x1 x2).key = x0.key := by
  unfold State.noticeAll
  (repeat' split) <;> simp [foldl_key]

@[simp] theorem State.owlPut_key (x0 : State) (x1 : Nat) (x2 : List Byte) :
    (State.owlPut x0 x1 x2).key = x0.key := by
  unfold State.owlPut
  grind [State.key, okey, tkey, State.setCl_key, State.writeTxn_key]

@[simp] theorem State.owlLost_key (x0 : State) (x1 : Nat) (x2 : Nat) :
    (State.owlLost x0 x1 x2).key = x0.key := by
  unfold State.owlLost
  extract_lets
  split
  · rfl
  · exact (State.setCl_key _ _ _).trans (State.owlPut_key _ _ _)

@[simp] theorem State.owlAt_key (x0 : State) (x1 : Nat) (x2 : Nat) (x3 : Nat) (x4 : Nat) (x5 : Nat) (x6 : List Byte) :
    (State.owlAt x0 x1 x2 x3 x4 x5 x6).key = x0.key := by
  unfold State.owlAt
  extract_lets
  split
  · rfl
  · split
    · exact (State.setCl_key _ _ _).trans (State.owlLost_key _ _ _)
    · exact (State.owlPut_key _ _ _).trans (State.owlLost_key _ _ _)

@[simp] theorem State.owl_key (x0 : State) (x1 : Nat) (x2 : Nat) (x3 : Nat) (x4 : Nat) (x5 : List Byte) :
    (State.owl x0 x1 x2 x3 x4 x5).key = x0.key := by
  unfold State.owl
  simp

@[simp] theorem State.scopeRecord_key (x0 : State) (x1 : Nat) (x2 : Nat × Nat × Nat) :
    (State.scopeRecord x0 x1 x2).key = x0.key := by
  unfold State.scopeRecord
  simp

@[simp] theorem State.wrapped_key (x0 : State) (x1 : CntEv) (x2 : Nat) :
    (State.wrapped x0 x1 x2).key = x0.key := by
  unfold State.wrapped
  simp

@[simp] theorem State.countOne_key (x0 : State) (x1 : CntEv) (x2 : Nat) :
    (State.countOne x0 x1 x2).key = x0.key := by
  unfold State.countOne
  grind [State.key, okey, tkey, State.setCl_key, State.wrapped_key]

@[simp] theorem State.countEvent_key (x0 : State) (x1 : CntEv) :
    (State.countEvent x0 x1).key = x0.key := by
  unfold State.countEvent
  (repeat' split) <;> simp [foldl_key]

@[simp] theorem State.haltPool_key (x0 : State) (x1 : Nat) (x2 : Nat) (x3 : Nat) (x4 : Nat) (x5 : Nat) :
    (State.haltPool x0 x1 x2 x3 x4 x5).key = x0.key := by
  unfold State.haltPool
  grind [State.key, okey, tkey, State.setGang_key, State.writeTxn_key, State.notice_key]

@[simp] theorem State.taskFail_key (x0 : State) (x1 : Nat) (x2 : Bool) :
    (State.taskFail x0 x1 x2).key = x0.key := by
  unfold State.taskFail
  simp only []
  (repeat' split) <;> first
    | (simp [State.dropBuffered_key, State.setGang_key, State.haltPool_key, State.setCtx_key]; done)
    | grind [State.key, okey, tkey, State.dropBuffered_key, State.setGang_key, State.haltPool_key, State.setCtx_key]

@[simp] theorem State.sendRemote_key (x0 : State) (x1 : Nat) (x2 : Nat) (x3 : Window) (x4 : List Byte) :
    (State.sendRemote x0 x1 x2 x3 x4).key = x0.key := by
  unfold State.sendRemote
  simp

@[simp] theorem State.taintRanges_key (x0 : State) (x1 : Nat) (x2 : Nat) (x3 : Nat) :
    (State.taintRanges x0 x1 x2 x3).key = x0.key := by
  unfold State.taintRanges
  simp

@[simp] theorem State.bankWrite_key (x0 : State) (x1 : Nat) (x2 : Nat) (x3 : List Byte) :
    (State.bankWrite x0 x1 x2 x3).key = x0.key := by
  unfold State.bankWrite
  simp

@[simp] theorem State.breakPhasers_key (x0 : State) (x1 : Nat) (x2 : Nat) (x3 : Nat) :
    (State.breakPhasers x0 x1 x2 x3).key = x0.key := by
  unfold State.breakPhasers
  grind [State.key, okey, tkey, State.setCl_key]

@[simp] theorem State.bankStore_key (x0 : State) (x1 : Nat) (x2 : Nat) (x3 : Nat) (x4 : List Byte) :
    (State.bankStore x0 x1 x2 x3 x4).key = x0.key := by
  unfold State.bankStore
  grind [State.key, okey, tkey, State.bankWrite_key, State.breakPhasers_key, State.taintRanges_key]

@[simp] theorem State.setLdf_key (x0 : State) (x1 : Nat) (x2 : Nat) (x3 : Ldf → Ldf) :
    (State.setLdf x0 x1 x2 x3).key = x0.key := by
  unfold State.setLdf
  simp

@[simp] theorem State.performLdf_key (x0 : State) (x1 : Nat) (x2 : Nat) :
    (State.performLdf x0 x1 x2).key = x0.key := by
  unfold State.performLdf
  grind [State.key, okey, tkey, State.setLdf_key, State.setAsync_key, State.l1Update_key, State.homeRead_key,
    State.setSlice_key, State.answer_key, State.sendFirst_key]

@[simp] theorem State.performLdfs_key (x0 : State) (x1 : Nat) (x2 : Ldf → Bool) :
    (State.performLdfs x0 x1 x2).key = x0.key := by
  unfold State.performLdfs
  (repeat' split) <;> simp [foldl_key]

@[simp] theorem State.sendSpans_key (x0 : State) (x1 : Nat) (x2 : Scope) (x3 : List (Nat × Nat)) :
    (State.sendSpans x0 x1 x2 x3).key = x0.key := by
  unfold State.sendSpans
  (repeat' split) <;> simp [foldl_key]

@[simp] theorem State.dropSpans_key (x0 : State) (x1 : Nat) (x2 : List (Nat × Nat)) :
    (State.dropSpans x0 x1 x2).key = x0.key := by
  unfold State.dropSpans
  (repeat' split) <;> simp [foldl_key]

@[simp] theorem State.release_key (x0 : State) (x1 : Nat) (x2 : ObjId) :
    (State.release x0 x1 x2).key = x0.key := by
  unfold State.release
  simp only []
  (repeat' split) <;> first
    | (simp_all [foldl_key, apply_ite State.key]; done)
    | (simp_all [Prod.ext_iff, foldl_key]; (repeat' split) <;> simp; done)

@[simp] theorem State.acquire_key (x0 : State) (x1 : Nat) (x2 : ObjId) :
    (State.acquire x0 x1 x2).key = x0.key := by
  unfold State.acquire
  simp only []
  (repeat' split) <;> first
    | (simp_all [foldl_key, apply_ite State.key]; done)
    | (simp_all [Prod.ext_iff, foldl_key]; (repeat' split) <;> simp; done)

@[simp] theorem State.before_key (x0 : State) (x1 : Nat) (x2 : Place) (x3 : Bool) :
    (State.before x0 x1 x2 x3).key = x0.key := by
  unfold State.before
  grind [State.key, okey, tkey, State.release_key]

@[simp] theorem State.after_key (x0 : State) (x1 : Nat) (x2 : Place) (x3 : Bool) :
    (State.after x0 x1 x2 x3).key = x0.key := by
  unfold State.after
  grind [State.key, okey, tkey, State.acquire_key]

@[simp] theorem State.noteReport_key (x0 : State) (x1 : Nat) (x2 : Nat) (x3 : Option (Scope × Nat)) :
    (State.noteReport x0 x1 x2 x3).key = x0.key := by
  unfold State.noteReport
  grind [State.key, okey, tkey, State.scopeRecord_key, State.setCtx_key]

@[simp] theorem State.failed_key {α : Type} (x1 : State) (x2 : Nat) (x3 : Res α) :
    (State.failed x1 x2 x3).key = x1.key := by
  unfold State.failed
  grind [State.key, okey, tkey, State.setAsync_key]

@[simp] theorem State.ahead_key (x0 : State) (x1 : Nat) (x2 : Nat) (x3 : Byte) :
    (State.ahead x0 x1 x2 x3).key = x0.key := by
  unfold State.ahead
  simp

@[simp] theorem State.overlapped_key (x0 : State) (x1 : Nat) (x2 : Nat) (x3 : Nat) :
    (State.overlapped x0 x1 x2 x3).key = x0.key := by
  unfold State.overlapped
  simp

@[simp] theorem State.homeLoad_key (x0 : State) (x1 : Nat) (x2 : Nat) (x3 : Nat) (x4 : Machine.Acc) (x5 : Bool) (x6 :
  optParam Bool Bool.false) :
    (State.homeLoad x0 x1 x2 x3 x4 x5 x6).1.key = x0.key := by
  unfold State.homeLoad
  grind [State.key, okey, tkey, State.ahead_key, State.l1Update_key, State.homeRead_key]

@[simp] theorem State.loadAt_key (x0 : State) (x1 : Nat) (x2 : Place) (x3 : Nat) (x4 : Bool) :
    (State.loadAt x0 x1 x2 x3 x4).1.key = x0.key := by
  unfold State.loadAt
  grind [State.key, okey, tkey, State.overlapped_key, State.checkFill_key, State.homeLoad_key, State.failed_key,
    State.noteReport_key, State.l1Load_key]

@[simp] theorem State.homeStore_key (x0 : State) (x1 : Nat) (x2 : Nat) (x3 : List Byte) (x4 : Acc) (x5 : Bool) :
    (State.homeStore x0 x1 x2 x3 x4 x5).key = x0.key := by
  unfold State.homeStore
  grind [State.key, okey, tkey, State.l1Update_key, State.writeTxn_key, State.setAsync_key, State.ahead_key]

@[simp] theorem State.storeAt_key (x0 : State) (x1 : Nat) (x2 : Place) (x3 : List Byte) (x4 : Bool) (x5 : Bool) :
    (State.storeAt x0 x1 x2 x3 x4 x5).key = x0.key := by
  unfold State.storeAt
  grind [State.key, okey, tkey, State.l1Store_key, State.taskFail_key, State.sendRemote_key, State.bankStore_key,
    State.overlapped_key, State.homeStore_key]

@[simp] theorem State.sendOp_key (x0 : State) (x1 : Nat) (x2 : Nat) (x3 : Byte) (x4 : Syl) (x5 : Word) (x6 : Word) :
    (State.sendOp x0 x1 x2 x3 x4 x5 x6).key = x0.key := by
  unfold State.sendOp
  grind [State.key, okey, tkey, State.send_key]

@[simp] theorem State.flushComb_key (x0 : State) (x1 : Nat) (x2 : Nat) :
    (State.flushComb x0 x1 x2).key = x0.key := by
  unfold State.flushComb
  grind [State.key, okey, tkey, State.setCl_key, State.retryLate_key, State.sendOp_key]

@[simp] theorem State.flushCombs_key (x0 : State) (x1 : Nat) :
    (State.flushCombs x0 x1).key = x0.key := by
  unfold State.flushCombs
  (repeat' split) <;> simp [foldl_key]

@[simp] theorem State.fenceAt_key (x0 : State) (x1 : Nat) (x2 : Scope) :
    (State.fenceAt x0 x1 x2).key = x0.key := by
  unfold State.fenceAt
  grind [State.key, okey, tkey, State.flushCombs_key, State.performLdfs_key, State.l1FlushAll_key, State.releaseMarks_key]

@[simp] theorem State.number_key (x0 : State) (x1 : Nat) (x2 : Nat) :
    (State.number x0 x1 x2).key = x0.key := by
  unfold State.number
  simp

@[simp] theorem State.complete_key (x0 : State) (x1 : Nat) (x2 : Nat) (x3 : Word) :
    (State.complete x0 x1 x2 x3).key = x0.key := by
  unfold State.complete
  simp

@[simp] theorem State.refuseCmd_key (x0 : State) (x1 : Nat) (x2 : Nat) (x3 : Word) :
    (State.refuseCmd x0 x1 x2 x3).key = x0.key := by
  unfold State.refuseCmd
  simp

@[simp] theorem State.emit_key (x0 : State) (x1 : Op) :
    (State.emit x0 x1).key = x0.key := by
  unfold State.emit
  grind [State.key, okey, tkey, State.setMe_key]

@[simp] theorem State.emitHeld_key (x0 : State) (x1 : Op) (x2 : MemOp) :
    (State.emitHeld x0 x1 x2).key = x0.key := by
  unfold State.emitHeld
  grind [State.key, okey, tkey, State.setMe_key, State.release_key]

@[simp] theorem State.fault_key (x0 : State) (x1 : SylFault) :
    (State.fault x0 x1).key = x0.key := by
  unfold State.fault
  simp

@[simp] theorem State.emitA_key (x0 : State) (x1 : Reg) (x2 : Word) (x3 : Nat) (x4 : RecForm) (x5 : Word) (x6 : Word) :
    (State.emitA x0 x1 x2 x3 x4 x5 x6).key = x0.key := by
  unfold State.emitA
  grind [State.key, okey, tkey, State.fault_key, State.emit_key]

@[simp] theorem State.atEnd_key (x0 : State) (x1 : EndEff) :
    (State.atEnd x0 x1).key = x0.key := by
  unfold State.atEnd
  simp

@[simp] theorem State.landOne_key (x0 : State) (x1 : Nat) (x2 : Nat) :
    (State.landOne x0 x1 x2).key = x0.key := by
  unfold State.landOne
  grind [State.key, okey, tkey, State.setCtx_key, State.orFlags_key]

@[simp] theorem State.land_key (x0 : State) (x1 : Nat) (x2 : Nat) :
    (State.land x0 x1 x2).key = x0.key := by
  unfold State.land
  repeat' split
  · rfl
  · rfl
  · rw [State.landOne_key, foldl_key]
    intro t j
    repeat' split
    all_goals simp
  · simp

@[simp] theorem State.landAll_key (x0 : State) (x1 : Nat) (x2 : Op → Bool) :
    (State.landAll x0 x1 x2).key = x0.key := by
  unfold State.landAll
  rw [foldl_key]
  intro t j
  repeat' split
  all_goals simp

@[simp] theorem State.dropTentative_key (x0 : State) (x1 : Nat) :
    (State.dropTentative x0 x1).key = x0.key := by
  unfold State.dropTentative
  simp

@[simp] theorem State.abandonSamples_key (x0 : State) (x1 : Nat) (x2 : List Written) :
    (State.abandonSamples x0 x1 x2).key = x0.key := by
  unfold State.abandonSamples
  grind [State.key, okey, tkey, State.setCl_key]

@[simp] theorem State.phKeep_key (x0 : State) (x1 : Nat) (x2 : Nat) (x3 : PhRec) :
    (State.phKeep x0 x1 x2 x3).key = x0.key := by
  unfold State.phKeep
  grind [State.key, okey, tkey, State.setCl_key]

@[simp] theorem State.phPut_key (x0 : State) (x1 : Nat) (x2 : Nat) (x3 : PhRec) :
    (State.phPut x0 x1 x2 x3).key = x0.key := by
  unfold State.phPut
  simp

@[simp] theorem State.phTouch_key (x0 : State) (x1 : Nat) (x2 : Nat) :
    (State.phTouch x0 x1 x2).key = x0.key := by
  unfold State.phTouch
  simp

@[simp] theorem State.noteWait_key (x0 : State) (x1 : Nat) (x2 : (Nat × Nat) × Word) :
    (State.noteWait x0 x1 x2).key = x0.key := by
  unfold State.noteWait
  grind [State.key, okey, tkey, State.setCtx_key, State.phTouch_key]

@[simp] theorem State.phswWait_key (x0 : State) (x1 : Nat) :
    (State.phswWait x0 x1).1.key = x0.key := by
  unfold State.phswWait
  grind [State.key, okey, tkey, State.acquire_key, State.noteWait_key, State.setCtx_key, State.phTouch_key]

@[simp] theorem State.phswOver_key (x0 : State) :
    (State.phswOver x0).key = x0.key := by
  unfold State.phswOver
  grind [State.key, okey, tkey, State.phswWait_key]

@[simp] theorem State.gatherRecords_key (x0 : State) (x1 : List SylFault) :
    (State.gatherRecords x0 x1).1.key = x0.key := by
  unfold State.gatherRecords
  grind [State.key, okey, tkey, State.setCtx_key, State.setCore_key, State.landAll_key, State.dropTentative_key,
    State.abandonSamples_key, State.phswOver_key]

theorem State.putRecord_key (x0 : State) (x1 : Nat) (x2 : Word) (x3 : Written) :
    ∀ t, (State.putRecord x0 x1 x2 x3) = some t → t.key = x0.key := by
  unfold State.putRecord
  grind [State.key, okey, tkey, State.storeAt_key]

theorem State.putRecords_key (x0 : State) (x1 : Nat) (x2 : Word) (x3 : List Written) :
    ∀ t, (State.putRecords x0 x1 x2 x3) = some t → t.key = x0.key := by
  induction x3 generalizing x0 x2 with
  | nil => simp [State.putRecords]
  | cons w r ih =>
    intro t h
    unfold State.putRecords at h
    split at h
    · contradiction
    · rename_i s1 hs
      rw [ih _ _ _ h, State.putRecord_key _ _ _ _ _ hs]

@[simp] theorem State.fatal_key (x0 : State) (x1 : StopReq) (x2 : List Written) :
    (State.fatal x0 x1 x2).key = x0.key := by
  unfold State.fatal
  simp

@[simp] theorem State.enterHandler_key (x0 : State) (x1 : StopReq) (x2 : List Written) :
    (State.enterHandler x0 x1 x2).key = x0.key := by
  unfold State.enterHandler
  grind [State.key, okey, tkey, State.setMe_key]

@[simp] theorem State.owlStop_key (x0 : State) (x1 : Nat) :
    (State.owlStop x0 x1).key = x0.key := by
  unfold State.owlStop
  simp

@[simp] theorem State.takeStop_key (x0 : State) (x1 : StopReq) (x2 : List Written) :
    (State.takeStop x0 x1 x2).key = x0.key := by
  unfold State.takeStop
  grind [State.key, okey, tkey, State.owlStop_key, State.fatal_key, State.enterHandler_key, State.putRecords_key]

@[simp] theorem State.stop_key (x0 : State) (x1 : StopReq) (x2 : List SylFault) :
    (State.stop x0 x1 x2).key = x0.key := by
  unfold State.stop
  grind [State.key, okey, tkey, State.gatherRecords_key, State.takeStop_key]

theorem State.readRecords_key (x0 : State) (x1 : Nat) (x2 : Nat) (x3 : Word) :
    ∀ t, (State.readRecords x0 x1 x2 x3) = some t → t.1.key = x0.key := by
  induction x2 generalizing x0 x3 with
  | zero => simp [State.readRecords]
  | succ n ih =>
    intro t h
    unfold State.readRecords at h
    simp only [] at h
    repeat' split at h
    all_goals grind [State.loadAt_key]

@[simp] theorem State.restore_key (x0 : State) :
    (State.restore x0).key = x0.key := by
  unfold State.restore
  have h := fun n rq t => State.readRecords_key (x0.landAll x0.cur fun _ => true) x0.cur n rq t
  simp only []
  split
  · simp
  · rename_i s2 rs e
    have k : s2.key = x0.key := by
      split at e
      · cases e
        simp
      · exact (h _ _ _ e).trans (by simp)
    split <;> simp [k]

@[simp] theorem State.resume_key (x0 : State) :
    (State.resume x0).key = x0.key := by
  unfold State.resume
  grind [State.key, okey, tkey, State.setMe_key, State.restore_key]

@[simp] theorem State.intOp_key (x0 : State) (x1 : Reg) (x2 : Reg) (x3 : Src) (x4 : Nat) (x5 : Word → Word → Word) :
    (State.intOp x0 x1 x2 x3 x4 x5).key = x0.key := by
  unfold State.intOp
  simp

@[simp] theorem execAdd_key (x0 : Reg) (x1 : Reg) (x2 : Src) (x3 : ITy) (x4 : State) :
    okey (execAdd x0 x1 x2 x3 x4) = some x4.key := by
  unfold execAdd
  simp

@[simp] theorem execSub_key (x0 : Reg) (x1 : Reg) (x2 : Src) (x3 : ITy) (x4 : State) :
    okey (execSub x0 x1 x2 x3 x4) = some x4.key := by
  unfold execSub
  simp

@[simp] theorem execMul_key (x0 : Reg) (x1 : Reg) (x2 : Src) (x3 : ITy) (x4 : State) :
    okey (execMul x0 x1 x2 x3 x4) = some x4.key := by
  unfold execMul
  simp

@[simp] theorem execMulh_key (x0 : Reg) (x1 : Reg) (x2 : Src) (x3 : ITy) (x4 : State) :
    okey (execMulh x0 x1 x2 x3 x4) = some x4.key := by
  unfold execMulh
  simp

@[simp] theorem execDiv_key (x0 : Reg) (x1 : Reg) (x2 : Src) (x3 : ITy) (x4 : State) :
    okey (execDiv x0 x1 x2 x3 x4) = some x4.key := by
  unfold execDiv
  simp

@[simp] theorem execRem_key (x0 : Reg) (x1 : Reg) (x2 : Src) (x3 : ITy) (x4 : State) :
    okey (execRem x0 x1 x2 x3 x4) = some x4.key := by
  unfold execRem
  simp

@[simp] theorem execAnd_key (x0 : Reg) (x1 : Reg) (x2 : Src) (x3 : ITy) (x4 : State) :
    okey (execAnd x0 x1 x2 x3 x4) = some x4.key := by
  unfold execAnd
  simp

@[simp] theorem execOr_key (x0 : Reg) (x1 : Reg) (x2 : Src) (x3 : ITy) (x4 : State) :
    okey (execOr x0 x1 x2 x3 x4) = some x4.key := by
  unfold execOr
  simp

@[simp] theorem execXor_key (x0 : Reg) (x1 : Reg) (x2 : Src) (x3 : ITy) (x4 : State) :
    okey (execXor x0 x1 x2 x3 x4) = some x4.key := by
  unfold execXor
  simp

@[simp] theorem execAndn_key (x0 : Reg) (x1 : Reg) (x2 : Src) (x3 : ITy) (x4 : State) :
    okey (execAndn x0 x1 x2 x3 x4) = some x4.key := by
  unfold execAndn
  simp

@[simp] theorem execShl_key (x0 : Reg) (x1 : Reg) (x2 : Src) (x3 : ITy) (x4 : State) :
    okey (execShl x0 x1 x2 x3 x4) = some x4.key := by
  unfold execShl
  simp

@[simp] theorem execShr_key (x0 : Reg) (x1 : Reg) (x2 : Src) (x3 : ITy) (x4 : State) :
    okey (execShr x0 x1 x2 x3 x4) = some x4.key := by
  unfold execShr
  simp

@[simp] theorem execSar_key (x0 : Reg) (x1 : Reg) (x2 : Src) (x3 : ITy) (x4 : State) :
    okey (execSar x0 x1 x2 x3 x4) = some x4.key := by
  unfold execSar
  simp

@[simp] theorem State.phSignal_key (x0 : State) (x1 : Nat) (x2 : PhReg) :
    (State.phSignal x0 x1 x2).key = x0.key := by
  unfold State.phSignal
  simp

@[simp] theorem execMin_key (x0 : Reg) (x1 : Reg) (x2 : Src) (x3 : ITy) (x4 : State) :
    okey (execMin x0 x1 x2 x3 x4) = some x4.key := by
  unfold execMin
  simp

@[simp] theorem execMax_key (x0 : Reg) (x1 : Reg) (x2 : Src) (x3 : ITy) (x4 : State) :
    okey (execMax x0 x1 x2 x3 x4) = some x4.key := by
  unfold execMax
  simp

@[simp] theorem State.phDrop_key (x0 : State) (x1 : Nat) (x2 : PhReg) :
    (State.phDrop x0 x1 x2).key = x0.key := by
  unfold State.phDrop
  grind [State.key, okey, tkey, State.phPut_key, State.setCl_key, State.setCtx_key]

@[simp] theorem State.immOp_key (x0 : State) (x1 : Reg) (x2 : Reg) (x3 : Word) (x4 : Word → Word → Word) :
    (State.immOp x0 x1 x2 x3 x4).key = x0.key := by
  unfold State.immOp
  simp

@[simp] theorem execAddRi_key (x0 : Reg) (x1 : Reg) (x2 : BitVec 12) (x3 : State) :
    okey (execAddRi x0 x1 x2 x3) = some x3.key := by
  unfold execAddRi
  simp

@[simp] theorem execAndRi_key (x0 : Reg) (x1 : Reg) (x2 : BitVec 12) (x3 : State) :
    okey (execAndRi x0 x1 x2 x3) = some x3.key := by
  unfold execAndRi
  simp

@[simp] theorem State.phDropAll_key (x0 : State) (x1 : Nat) :
    (State.phDropAll x0 x1).key = x0.key := by
  unfold State.phDropAll
  (repeat' split) <;> simp [foldl_key]

@[simp] theorem execOrRi_key (x0 : Reg) (x1 : Reg) (x2 : BitVec 12) (x3 : State) :
    okey (execOrRi x0 x1 x2 x3) = some x3.key := by
  unfold execOrRi
  simp

@[simp] theorem State.phRegister_key (x0 : State) (x1 : Nat) (x2 : Nat × Nat) :
    (State.phRegister x0 x1 x2).key = x0.key := by
  unfold State.phRegister
  grind [State.key, okey, tkey, State.phPut_key, State.setCl_key, State.setCtx_key]

end Sys2Proof.Machine
end

