-- ==== Sys2Proof/Laws/KeyOps.lean ====
section
/-! SUPPORT. Nothing but the events of `Laws.Legal` changes the management fields of `Key`: one lemma for each operation. -/

namespace Sys2Proof.Machine
open Sys2Proof

@[simp] theorem execXorRi_key (x0 : Reg) (x1 : Reg) (x2 : BitVec 12) (x3 : State) :
    okey (execXorRi x0 x1 x2 x3) = some x3.key := by
  unfold execXorRi
  simp

@[simp] theorem execShlRi_key (x0 : Reg) (x1 : Reg) (x2 : BitVec 6) (x3 : State) :
    okey (execShlRi x0 x1 x2 x3) = some x3.key := by
  unfold execShlRi
  simp

@[simp] theorem execShrRi_key (x0 : Reg) (x1 : Reg) (x2 : BitVec 6) (x3 : State) :
    okey (execShrRi x0 x1 x2 x3) = some x3.key := by
  unfold execShrRi
  simp

@[simp] theorem State.fOp2_key (x0 : State) (x1 : Reg) (x2 : Reg) (x3 : Src) (x4 : FTy) (x5 : Ieee → Nat → Nat → Nat ×
  Byte) :
    (State.fOp2 x0 x1 x2 x3 x4 x5).key = x0.key := by
  unfold State.fOp2
  simp

@[simp] theorem execSarRi_key (x0 : Reg) (x1 : Reg) (x2 : BitVec 6) (x3 : State) :
    okey (execSarRi x0 x1 x2 x3) = some x3.key := by
  unfold execSarRi
  simp

@[simp] theorem execMovh_key (x0 : Reg) (x1 : Reg) (x2 : BitVec 12) (x3 : State) :
    okey (execMovh x0 x1 x2 x3) = some x3.key := by
  unfold execMovh
  simp

@[simp] theorem execFadd_key (x0 : Reg) (x1 : Reg) (x2 : Src) (x3 : FTy) (x4 : Rm) (x5 : State) :
    okey (execFadd x0 x1 x2 x3 x4 x5) = some x5.key := by
  unfold execFadd
  simp

@[simp] theorem execFsub_key (x0 : Reg) (x1 : Reg) (x2 : Src) (x3 : FTy) (x4 : Rm) (x5 : State) :
    okey (execFsub x0 x1 x2 x3 x4 x5) = some x5.key := by
  unfold execFsub
  simp

@[simp] theorem execExt_key (x0 : Reg) (x1 : Reg) (x2 : BitVec 6) (x3 : BitVec 6) (x4 : State) :
    okey (execExt x0 x1 x2 x3 x4) = some x4.key := by
  unfold execExt
  simp

@[simp] theorem execFmul_key (x0 : Reg) (x1 : Reg) (x2 : Src) (x3 : FTy) (x4 : Rm) (x5 : State) :
    okey (execFmul x0 x1 x2 x3 x4 x5) = some x5.key := by
  unfold execFmul
  simp

@[simp] theorem State.emitValue_key (x0 : State) (x1 : Reg) (x2 : Word) :
    (State.emitValue x0 x1 x2).key = x0.key := by
  unfold State.emitValue
  simp

@[simp] theorem execFfma_key (x0 : Reg) (x1 : Reg) (x2 : Src) (x3 : FTy) (x4 : Rm) (x5 : State) :
    okey (execFfma x0 x1 x2 x3 x4 x5) = some x5.key := by
  unfold execFfma
  simp

@[simp] theorem execFmin_key (x0 : Reg) (x1 : Reg) (x2 : Src) (x3 : FTy) (x4 : State) :
    okey (execFmin x0 x1 x2 x3 x4) = some x4.key := by
  unfold execFmin
  simp

@[simp] theorem execIns_key (x0 : Reg) (x1 : Reg) (x2 : BitVec 6) (x3 : BitVec 6) (x4 : State) :
    okey (execIns x0 x1 x2 x3 x4) = some x4.key := by
  unfold execIns
  simp

@[simp] theorem execFmax_key (x0 : Reg) (x1 : Reg) (x2 : Src) (x3 : FTy) (x4 : State) :
    okey (execFmax x0 x1 x2 x3 x4) = some x4.key := by
  unfold execFmax
  simp

@[simp] theorem execSel_key (x0 : Reg) (x1 : Reg) (x2 : Src) (x3 : Reg) (x4 : State) :
    okey (execSel x0 x1 x2 x3 x4) = some x4.key := by
  unfold execSel
  simp

@[simp] theorem execFsgn_key (x0 : Reg) (x1 : Reg) (x2 : Src) (x3 : FTy) (x4 : SgnOp) (x5 : State) :
    okey (execFsgn x0 x1 x2 x3 x4 x5) = some x5.key := by
  unfold execFsgn
  simp

@[simp] theorem execFcmp_key (x0 : Reg) (x1 : Reg) (x2 : Src) (x3 : FTy) (x4 : FCond) (x5 : State) :
    okey (execFcmp x0 x1 x2 x3 x4 x5) = some x5.key := by
  unfold execFcmp
  simp

@[simp] theorem State.oneOp_key (x0 : State) (x1 : Reg) (x2 : Reg) (x3 : Nat) (x4 : Word → Word) :
    (State.oneOp x0 x1 x2 x3 x4).key = x0.key := by
  unfold State.oneOp
  simp

@[simp] theorem State.fFun_key (x0 : State) (x1 : Reg) (x2 : Reg) (x3 : FFun) (x4 : Rm) :
    (State.fFun x0 x1 x2 x3 x4).key = x0.key := by
  unfold State.fFun
  simp

@[simp] theorem execClz_key (x0 : Reg) (x1 : Reg) (x2 : ITy) (x3 : State) :
    okey (execClz x0 x1 x2 x3) = some x3.key := by
  unfold execClz
  simp

@[simp] theorem execPopc_key (x0 : Reg) (x1 : Reg) (x2 : ITy) (x3 : State) :
    okey (execPopc x0 x1 x2 x3) = some x3.key := by
  unfold execPopc
  simp

@[simp] theorem execFrcp_key (x0 : Reg) (x1 : Reg) (x2 : Rm) (x3 : State) :
    okey (execFrcp x0 x1 x2 x3) = some x3.key := by
  unfold execFrcp
  simp

@[simp] theorem execFrsq_key (x0 : Reg) (x1 : Reg) (x2 : Rm) (x3 : State) :
    okey (execFrsq x0 x1 x2 x3) = some x3.key := by
  unfold execFrsq
  simp

@[simp] theorem execIcvt_key (x0 : Reg) (x1 : Reg) (x2 : ITy) (x3 : ITy) (x4 : State) :
    okey (execIcvt x0 x1 x2 x3 x4) = some x4.key := by
  unfold execIcvt
  simp

@[simp] theorem execFexp2_key (x0 : Reg) (x1 : Reg) (x2 : Rm) (x3 : State) :
    okey (execFexp2 x0 x1 x2 x3) = some x3.key := by
  unfold execFexp2
  simp

@[simp] theorem execMov_key (x0 : Reg) (x1 : Src) (x2 : ITy) (x3 : State) :
    okey (execMov x0 x1 x2 x3) = some x3.key := by
  unfold execMov
  simp

@[simp] theorem execFlog2_key (x0 : Reg) (x1 : Reg) (x2 : Rm) (x3 : State) :
    okey (execFlog2 x0 x1 x2 x3) = some x3.key := by
  unfold execFlog2
  simp

@[simp] theorem execFcvt_key (x0 : Reg) (x1 : Reg) (x2 : Bool) (x3 : FTy) (x4 : FTy) (x5 : Rm) (x6 : State) :
    okey (execFcvt x0 x1 x2 x3 x4 x5 x6) = some x6.key := by
  unfold execFcvt
  grind [State.key, okey, tkey, State.atEnd_key, State.emit_key]

@[simp] theorem execLea_key (x0 : Reg) (x1 : Reg) (x2 : Src) (x3 : Space) (x4 : BitVec 2) (x5 : State) :
    okey (execLea x0 x1 x2 x3 x4 x5) = some x5.key := by
  unfold execLea
  simp

@[simp] theorem execFcvti_key (x0 : Reg) (x1 : Reg) (x2 : ITy) (x3 : FTy) (x4 : Rm) (x5 : State) :
    okey (execFcvti x0 x1 x2 x3 x4 x5) = some x5.key := by
  unfold execFcvti
  simp

@[simp] theorem execIcvtf_key (x0 : Reg) (x1 : Reg) (x2 : ITy) (x3 : FTy) (x4 : Rm) (x5 : State) :
    okey (execIcvtf x0 x1 x2 x3 x4 x5) = some x5.key := by
  unfold execIcvtf
  simp

@[simp] theorem execCmp_key (x0 : Reg) (x1 : Reg) (x2 : Src) (x3 : ITy) (x4 : Cond) (x5 : State) :
    okey (execCmp x0 x1 x2 x3 x4 x5) = some x5.key := by
  unfold execCmp
  simp

@[simp] theorem State.predOp2_key (x0 : State) (x1 : Reg) (x2 : Reg) (x3 : Reg) (x4 : Byte → Byte → Byte) :
    (State.predOp2 x0 x1 x2 x3 x4).key = x0.key := by
  unfold State.predOp2
  simp

@[simp] theorem State.predOp_key (x0 : State) (x1 : Reg) (x2 : Reg) (x3 : Nat) (x4 : Byte → Byte) :
    (State.predOp x0 x1 x2 x3 x4).key = x0.key := by
  unfold State.predOp
  simp

@[simp] theorem execPand_key (x0 : Reg) (x1 : Reg) (x2 : Reg) (x3 : State) :
    okey (execPand x0 x1 x2 x3) = some x3.key := by
  unfold execPand
  simp

@[simp] theorem execPor_key (x0 : Reg) (x1 : Reg) (x2 : Reg) (x3 : State) :
    okey (execPor x0 x1 x2 x3) = some x3.key := by
  unfold execPor
  simp

@[simp] theorem State.vOp_key (x0 : State) (x1 : Nat) (x2 : Wr) (x3 : Byte) :
    (State.vOp x0 x1 x2 x3).key = x0.key := by
  unfold State.vOp
  simp

@[simp] theorem State.vMap_key (x0 : State) (x1 : Reg) (x2 : Reg) (x3 : Src) (x4 : FTy) (x5 : Ieee → Nat → Nat → Nat ×
  Byte) :
    (State.vMap x0 x1 x2 x3 x4 x5).key = x0.key := by
  unfold State.vMap
  simp

@[simp] theorem execPxor_key (x0 : Reg) (x1 : Reg) (x2 : Reg) (x3 : State) :
    okey (execPxor x0 x1 x2 x3) = some x3.key := by
  unfold execPxor
  simp

@[simp] theorem execPnot_key (x0 : Reg) (x1 : Reg) (x2 : State) :
    okey (execPnot x0 x1 x2) = some x2.key := by
  unfold execPnot
  simp

@[simp] theorem execPmov_key (x0 : Reg) (x1 : Reg) (x2 : State) :
    okey (execPmov x0 x1 x2) = some x2.key := by
  unfold execPmov
  simp

@[simp] theorem execVadd_key (x0 : Reg) (x1 : Reg) (x2 : Src) (x3 : FTy) (x4 : Rm) (x5 : State) :
    okey (execVadd x0 x1 x2 x3 x4 x5) = some x5.key := by
  unfold execVadd
  simp

@[simp] theorem execPany_key (x0 : Reg) (x1 : Reg) (x2 : State) :
    okey (execPany x0 x1 x2) = some x2.key := by
  unfold execPany
  simp

@[simp] theorem execVmul_key (x0 : Reg) (x1 : Reg) (x2 : Src) (x3 : FTy) (x4 : Rm) (x5 : State) :
    okey (execVmul x0 x1 x2 x3 x4 x5) = some x5.key := by
  unfold execVmul
  simp

@[simp] theorem execPall_key (x0 : Reg) (x1 : Reg) (x2 : State) :
    okey (execPall x0 x1 x2) = some x2.key := by
  unfold execPall
  simp

@[simp] theorem execVfma_key (x0 : Reg) (x1 : Reg) (x2 : Src) (x3 : FTy) (x4 : Rm) (x5 : State) :
    okey (execVfma x0 x1 x2 x3 x4 x5) = some x5.key := by
  unfold execVfma
  simp

@[simp] theorem execPpack_key (x0 : Reg) (x1 : Reg) (x2 : State) :
    okey (execPpack x0 x1 x2) = some x2.key := by
  unfold execPpack
  simp

@[simp] theorem execPunpk_key (x0 : Reg) (x1 : Reg) (x2 : State) :
    okey (execPunpk x0 x1 x2) = some x2.key := by
  unfold execPunpk
  simp

@[simp] theorem execVand_key (x0 : Reg) (x1 : Reg) (x2 : Src) (x3 : State) :
    okey (execVand x0 x1 x2 x3) = some x3.key := by
  unfold execVand
  simp

@[simp] theorem execVor_key (x0 : Reg) (x1 : Reg) (x2 : Src) (x3 : State) :
    okey (execVor x0 x1 x2 x3) = some x3.key := by
  unfold execVor
  simp

@[simp] theorem execVshf_key (x0 : Reg) (x1 : Reg) (x2 : Src) (x3 : State) :
    okey (execVshf x0 x1 x2 x3) = some x3.key := by
  unfold execVshf
  simp

@[simp] theorem execVbcast_key (x0 : Reg) (x1 : Reg) (x2 : State) :
    okey (execVbcast x0 x1 x2) = some x2.key := by
  unfold execVbcast
  simp

@[simp] theorem execVsel_key (x0 : Reg) (x1 : Reg) (x2 : Src) (x3 : Reg) (x4 : State) :
    okey (execVsel x0 x1 x2 x3 x4) = some x4.key := by
  unfold execVsel
  simp

@[simp] theorem execMfc_key (x0 : Reg) (x1 : CReg) (x2 : State) :
    okey (execMfc x0 x1 x2) = some x2.key := by
  unfold execMfc
  simp

@[simp] theorem execVlane_key (x0 : Reg) (x1 : Reg) (x2 : Src) (x3 : State) :
    okey (execVlane x0 x1 x2 x3) = some x3.key := by
  unfold execVlane
  simp

@[simp] theorem execVins_key (x0 : Reg) (x1 : Reg) (x2 : Src) (x3 : State) :
    okey (execVins x0 x1 x2 x3) = some x3.key := by
  unfold execVins
  simp

@[simp] theorem execMtc_key (x0 : Reg) (x1 : CReg) (x2 : State) :
    okey (execMtc x0 x1 x2) = some x2.key := by
  unfold execMtc
  grind [State.key, okey, tkey, State.fault_key, State.atEnd_key]

@[simp] theorem execWinset_key (x0 : Reg) (x1 : Reg) (x2 : Src) (x3 : Bool) (x4 : State) :
    okey (execWinset x0 x1 x2 x3 x4) = some x4.key := by
  unfold execWinset
  simp

@[simp] theorem State.vReduce_key (x0 : State) (x1 : Reg) (x2 : Reg) (x3 : FTy) (x4 : Ieee → Nat → Nat → Nat × Byte) :
    (State.vReduce x0 x1 x2 x3 x4).key = x0.key := by
  unfold State.vReduce
  simp

@[simp] theorem execVredadd_key (x0 : Reg) (x1 : Reg) (x2 : FTy) (x3 : Rm) (x4 : State) :
    okey (execVredadd x0 x1 x2 x3 x4) = some x4.key := by
  unfold execVredadd
  simp

@[simp] theorem execVredmax_key (x0 : Reg) (x1 : Reg) (x2 : FTy) (x3 : State) :
    okey (execVredmax x0 x1 x2 x3) = some x3.key := by
  unfold execVredmax
  simp

@[simp] theorem execVpack_key (x0 : Reg) (x1 : Reg) (x2 : Src) (x3 : FTy) (x4 : Rm) (x5 : State) :
    okey (execVpack x0 x1 x2 x3 x4 x5) = some x5.key := by
  unfold execVpack
  simp

@[simp] theorem execVunpk_key (x0 : Reg) (x1 : Reg) (x2 : FTy) (x3 : BitVec 2) (x4 : State) :
    okey (execVunpk x0 x1 x2 x3 x4) = some x4.key := by
  unfold execVunpk
  simp

@[simp] theorem State.issueCmd_key (x0 : State) (x1 : Nat) (x2 : SyncCmd) (x3 : State → Bool) (x4 : State → Word → State)
    (h : ∀ t n, (x4 t n).key = t.key) : (State.issueCmd x0 x1 x2 x3 x4).key = x0.key := by
  unfold State.issueCmd
  simp only []
  split <;> simp [h]

@[simp] theorem State.refuse_key (x0 : State) (x1 : Nat) :
    (State.refuse x0 x1).key = x0.key := by
  unfold State.refuse
  simp

@[simp] theorem State.memFault_key (x0 : State) (x1 : Nat) (x2 : Word) (x3 : Word) (x4 : Vec) (x5 : Nat) (x6 : List RegN)
  :
    (State.memFault x0 x1 x2 x3 x4 x5 x6).key = x0.key := by
  unfold State.memFault
  simp

@[simp] theorem State.runPhreg_key (x0 : State) (x1 : Nat) (x2 : Word) (x3 : Nat) (x4 : Nat) :
    (State.runPhreg x0 x1 x2 x3 x4).key = x0.key := by
  unfold State.runPhreg
  grind [State.key, okey, tkey, State.refuseCmd_key, State.complete_key, State.phRegister_key]

@[simp] theorem State.wordVer_key (x0 : State) (x1 : Nat) (x2 : Place) (x3 : Bool) :
    (State.wordVer x0 x1 x2 x3).1.key = x0.key := by
  unfold State.wordVer
  grind [State.key, okey, tkey, State.homeLoad_key, State.failed_key]

@[simp] theorem State.runPhdrop_key (x0 : State) (x1 : Nat) (x2 : Word) (x3 : Nat) (x4 : Nat) :
    (State.runPhdrop x0 x1 x2 x3 x4).key = x0.key := by
  unfold State.runPhdrop
  grind [State.key, okey, tkey, State.phDrop_key, State.complete_key]

@[simp] theorem State.runPhsig_key (x0 : State) (x1 : Nat) (x2 : Word) (x3 : Nat) (x4 : Nat) :
    (State.runPhsig x0 x1 x2 x3 x4).key = x0.key := by
  unfold State.runPhsig
  grind [State.key, okey, tkey, State.complete_key, State.phSignal_key]

@[simp] theorem State.runPhwait_key (x0 : State) (x1 : Nat) (x2 : Word) (x3 : Nat) (x4 : Nat) :
    (State.runPhwait x0 x1 x2 x3 x4).key = x0.key := by
  unfold State.runPhwait
  simp

@[simp] theorem execPhreg_key (x0 : Reg) (x1 : State) :
    okey (execPhreg x0 x1) = some x1.key := by
  unfold execPhreg
  grind [State.key, okey, tkey, State.issueCmd_key, State.refuse_key, State.runPhreg_key]

@[simp] theorem execPhdrop_key (x0 : Reg) (x1 : State) :
    okey (execPhdrop x0 x1) = some x1.key := by
  unfold execPhdrop
  grind [State.key, okey, tkey, State.refuse_key, State.runPhdrop_key, State.issueCmd_key]

@[simp] theorem State.sig_key (x0 : State) (x1 : PhReg) :
    (State.sig x0 x1).key = x0.key := by
  unfold State.sig
  simp

@[simp] theorem State.atomBank_key (x0 : State) (x1 : Nat) (x2 : Nat) (x3 : Nat) (x4 : Nat) (x5 : Bool) (x6 : Word) (x7 :
  Word) :
    (State.atomBank x0 x1 x2 x3 x4 x5 x6 x7).1.key = x0.key := by
  unfold State.atomBank
  grind [State.key, okey, tkey, State.bankStore_key]

@[simp] theorem execPhsig_key (x0 : Reg) (x1 : State) :
    okey (execPhsig x0 x1) = some x1.key := by
  unfold execPhsig
  grind [State.key, okey, tkey, State.sig_key, State.refuse_key]

@[simp] theorem State.atomHome_key (x0 : State) (x1 : Nat) (x2 : Nat) (x3 : Machine.Acc) (x4 : Nat) (x5 : Bool) (x6 :
  Bool) (x7 : Word) (x8 : Word) :
    (State.atomHome x0 x1 x2 x3 x4 x5 x6 x7 x8).1.key = x0.key := by
  unfold State.atomHome
  grind [State.key, okey, tkey, State.homeStore_key, State.homeLoad_key, State.setAsync_key]

@[simp] theorem execPhwait_key (x0 : Reg) (x1 : Src) (x2 : State) :
    okey (execPhwait x0 x1 x2) = some x2.key := by
  unfold execPhwait
  grind [State.key, okey, tkey, State.runPhwait_key, State.refuse_key, State.issueCmd_key]

@[simp] theorem State.combTake_key (x0 : State) (x1 : Nat) (x2 : Nat) (x3 : Word) :
    (State.combTake x0 x1 x2 x3).1.key = x0.key := by
  unfold State.combTake
  grind [State.key, okey, tkey, State.setCl_key]

@[simp] theorem execPhsw_key (x0 : Reg) (x1 : State) :
    okey (execPhsw x0 x1) = some x1.key := by
  unfold execPhsw
  grind [State.key, okey, tkey, State.sig_key, State.refuse_key, State.setMe_key]

@[simp] theorem State.combFull_key (x0 : State) (x1 : Nat) (x2 : Nat) :
    (State.combFull x0 x1 x2).key = x0.key := by
  unfold State.combFull
  grind [State.key, okey, tkey, State.flushComb_key]

@[simp] theorem State.atomComb_key (x0 : State) (x1 : Nat) (x2 : Place) (x3 : Nat) (x4 : Bool) (x5 : Word) :
    (State.atomComb x0 x1 x2 x3 x4 x5).1.key = x0.key := by
  unfold State.atomComb
  grind [State.key, okey, tkey, State.combFull_key, State.flushComb_key, State.setCl_key, State.combTake_key,
    State.homeLoad_key, State.failed_key]

@[simp] theorem State.dropOutputs_key (x0 : State) (x1 : Nat) (x2 : Nat) (x3 : Word) :
    (State.dropOutputs x0 x1 x2 x3).key = x0.key := by
  unfold State.dropOutputs
  (repeat' split) <;> simp [foldl_key]

@[simp] theorem State.runTlwait_key (x0 : State) (x1 : Nat) (x2 : Nat) (x3 : Word) :
    (State.runTlwait x0 x1 x2 x3).key = x0.key := by
  unfold State.runTlwait
  grind [State.key, okey, tkey, State.acquire_key, State.dropOutputs_key]

@[simp] theorem execTlwait_key (x0 : BitVec 4) (x1 : Reg) (x2 : Src) (x3 : State) :
    okey (execTlwait x0 x1 x2 x3) = some x3.key := by
  unfold execTlwait
  grind [State.key, okey, tkey, State.emitHeld_key, State.runTlwait_key]

@[simp] theorem execTlread_key (x0 : BitVec 4) (x1 : Reg) (x2 : State) :
    okey (execTlread x0 x1 x2) = some x2.key := by
  unfold execTlread
  simp

@[simp] theorem State.casv_key (x0 : State) (x1 : Nat) (x2 : MemOp) :
    (State.casv x0 x1 x2).1.key = x0.key := by
  unfold State.casv
  grind [State.key, okey, tkey, State.place_key, State.sendOp_key, State.homeStore_key, State.wordVer_key]

@[simp] theorem State.atomAt_key (x0 : State) (x1 : Nat) (x2 : MemOp) (x3 : Nat) (x4 : Bool) :
    (State.atomAt x0 x1 x2 x3 x4).1.key = x0.key := by
  unfold State.atomAt
  grind [State.key, okey, tkey, State.place_key, State.sendOp_key, State.ahead_key, State.atomBank_key,
    State.atomHome_key, State.atomComb_key]

@[simp] theorem Fill9.before_key (x0 : Fill9) (x1 : Fill9) :
    (Fill9.before x0 x1).s.key = x0.s.key := by
  unfold Fill9.before
  grind [State.key, okey, tkey]

@[simp] theorem State.versionAt_key (x0 : State) (x1 : Nat) (x2 : Place) :
    (State.versionAt x0 x1 x2).1.key = x0.key := by
  unfold State.versionAt
  grind [State.key, okey, tkey, State.versionOf_key, State.setAsync_key, State.ahead_key]

@[simp] theorem State.perform_key (x0 : State) (x1 : Nat) (x2 : MemOp) :
    (State.perform x0 x1 x2).1.key = x0.key := by
  unfold State.perform
  grind [State.key, okey, tkey, State.noteWalk_key, State.place_key, State.sendOp_key, State.before_key,
    State.after_key, State.loadAt_key, State.homeStore_key, State.storeAt_key, State.fenceAt_key, Fill9.before_key,
    State.wordVer_key, State.versionAt_key, State.casv_key, State.atomAt_key]

@[simp] theorem execBind_key (x0 : Reg) (x1 : Src) (x2 : State) :
    okey (execBind x0 x1 x2) = some x2.key := by
  unfold execBind
  grind [State.key, okey, tkey, State.fault_key, State.setMe_key, State.orFlags_key]

@[simp] theorem execUnbind_key (x0 : Reg) (x1 : Src) (x2 : State) :
    okey (execUnbind x0 x1 x2) = some x2.key := by
  unfold execUnbind
  grind [State.key, okey, tkey, State.setMe_key]

@[simp] theorem State.joinReissued_key (x0 : State) (x1 : VPair) :
    (State.joinReissued x0 x1).key = x0.key := by
  unfold State.joinReissued
  grind [State.key, okey, tkey, State.setMe_key]

@[simp] theorem State.issueMem_key (x0 : State) (x1 : Op) (x2 : MemOp) :
    (State.issueMem x0 x1 x2).key = x0.key := by
  unfold State.issueMem
  grind [State.key, okey, tkey, State.emit_key, State.emitHeld_key, State.perform_key, State.joinReissued_key]

@[simp] theorem State.readControl_key (x0 : State) (x1 : Nat) (x2 : Nat) (x3 : Nat × Nat) (x4 : Nat) (x5 : Nat) (x6 :
  Machine.Acc) :
    (State.readControl x0 x1 x2 x3 x4 x5 x6).1.key = x0.key := by
  unfold State.readControl
  grind [State.key, okey, tkey, State.homeMany_key]

@[simp] theorem State.load_key (x0 : State) (x1 : Reg) (x2 : Reg) (x3 : Byte) (x4 : Ord) (x5 : Option ITy) :
    (State.load x0 x1 x2 x3 x4 x5).key = x0.key := by
  unfold State.load
  grind [State.key, okey, tkey, State.memFault_key, State.issueMem_key]

@[simp] theorem State.dropCopies_key (x0 : State) (x1 : Nat) (x2 : Nat) :
    (State.dropCopies x0 x1 x2).key = x0.key := by
  unfold State.dropCopies
  simp

@[simp] theorem State.runCbsync_key (x0 : State) (x1 : Nat) (x2 : List (Nat × Nat)) :
    (State.runCbsync x0 x1 x2).key = x0.key := by
  unfold State.runCbsync
  (repeat' split) <;> simp [foldl_key]

@[simp] theorem State.loadTy_key (x0 : State) (x1 : Reg) (x2 : Reg) (x3 : Byte) (x4 : Ord) (x5 : ITy) :
    (State.loadTy x0 x1 x2 x3 x4 x5).key = x0.key := by
  unfold State.loadTy
  simp

@[simp] theorem execCbsync_key (x0 : Reg) (x1 : Src) (x2 : State) :
    okey (execCbsync x0 x1 x2) = some x2.key := by
  unfold execCbsync
  grind [State.key, okey, tkey, State.runCbsync_key, State.fault_key, State.emitHeld_key]

@[simp] theorem execLdI8_key (x0 : Reg) (x1 : Reg) (x2 : Byte) (x3 : Ord) (x4 : State) :
    okey (execLdI8 x0 x1 x2 x3 x4) = some x4.key := by
  unfold execLdI8
  simp

@[simp] theorem execLdI16_key (x0 : Reg) (x1 : Reg) (x2 : Byte) (x3 : Ord) (x4 : State) :
    okey (execLdI16 x0 x1 x2 x3 x4) = some x4.key := by
  unfold execLdI16
  simp

@[simp] theorem execLdI32_key (x0 : Reg) (x1 : Reg) (x2 : Byte) (x3 : Ord) (x4 : State) :
    okey (execLdI32 x0 x1 x2 x3 x4) = some x4.key := by
  unfold execLdI32
  simp

@[simp] theorem execLdI64_key (x0 : Reg) (x1 : Reg) (x2 : Byte) (x3 : Ord) (x4 : State) :
    okey (execLdI64 x0 x1 x2 x3 x4) = some x4.key := by
  unfold execLdI64
  simp

@[simp] theorem execLdN8_key (x0 : Reg) (x1 : Reg) (x2 : Byte) (x3 : Ord) (x4 : State) :
    okey (execLdN8 x0 x1 x2 x3 x4) = some x4.key := by
  unfold execLdN8
  simp

@[simp] theorem execLdN16_key (x0 : Reg) (x1 : Reg) (x2 : Byte) (x3 : Ord) (x4 : State) :
    okey (execLdN16 x0 x1 x2 x3 x4) = some x4.key := by
  unfold execLdN16
  simp

@[simp] theorem execLdN32_key (x0 : Reg) (x1 : Reg) (x2 : Byte) (x3 : Ord) (x4 : State) :
    okey (execLdN32 x0 x1 x2 x3 x4) = some x4.key := by
  unfold execLdN32
  simp

@[simp] theorem execLdvec_key (x0 : Reg) (x1 : Reg) (x2 : Byte) (x3 : Ord) (x4 : State) :
    okey (execLdvec x0 x1 x2 x3 x4) = some x4.key := by
  unfold execLdvec
  simp

@[simp] theorem State.store_key (x0 : State) (x1 : Reg) (x2 : Byte) (x3 : Ord) (x4 : Nat) (x5 : Word) (x6 : Vec) :
    (State.store x0 x1 x2 x3 x4 x5 x6).key = x0.key := by
  unfold State.store
  grind [State.key, okey, tkey, State.memFault_key, State.issueMem_key]

@[simp] theorem State.storeN_key (x0 : State) (x1 : Reg) (x2 : Reg) (x3 : Byte) (x4 : Ord) (x5 : Nat) :
    (State.storeN x0 x1 x2 x3 x4 x5).key = x0.key := by
  unfold State.storeN
  simp

@[simp] theorem execSt8_key (x0 : Reg) (x1 : Reg) (x2 : Byte) (x3 : Ord) (x4 : State) :
    okey (execSt8 x0 x1 x2 x3 x4) = some x4.key := by
  unfold execSt8
  simp

@[simp] theorem execSt16_key (x0 : Reg) (x1 : Reg) (x2 : Byte) (x3 : Ord) (x4 : State) :
    okey (execSt16 x0 x1 x2 x3 x4) = some x4.key := by
  unfold execSt16
  simp

@[simp] theorem execSt32_key (x0 : Reg) (x1 : Reg) (x2 : Byte) (x3 : Ord) (x4 : State) :
    okey (execSt32 x0 x1 x2 x3 x4) = some x4.key := by
  unfold execSt32
  simp

@[simp] theorem execSt64_key (x0 : Reg) (x1 : Reg) (x2 : Byte) (x3 : Ord) (x4 : State) :
    okey (execSt64 x0 x1 x2 x3 x4) = some x4.key := by
  unfold execSt64
  simp

@[simp] theorem State.takeTask_key (x0 : State) (x1 : Nat) :
    (State.takeTask x0 x1).1.key = x0.key := by
  unfold State.takeTask
  (repeat' split) <;> simp

@[simp] theorem execStvec_key (x0 : Reg) (x1 : Reg) (x2 : Byte) (x3 : Ord) (x4 : State) :
    okey (execStvec x0 x1 x2 x3 x4) = some x4.key := by
  unfold execStvec
  simp

@[simp] theorem execLdv_key (x0 : Reg) (x1 : Reg) (x2 : Byte) (x3 : Ord) (x4 : State) :
    okey (execLdv x0 x1 x2 x3 x4) = some x4.key := by
  unfold execLdv
  grind [State.key, okey, tkey, State.memFault_key, State.issueMem_key]

@[simp] theorem execVget_key (x0 : Reg) (x1 : Reg) (x2 : Byte) (x3 : State) :
    okey (execVget x0 x1 x2 x3) = some x3.key := by
  unfold execVget
  grind [State.key, okey, tkey, State.memFault_key, State.issueMem_key]

@[simp] theorem execTkget_key (x0 : Reg) (x1 : State) :
    okey (execTkget x0 x1) = some x1.key := by
  unfold execTkget
  grind [State.key, okey, tkey, State.complete_key, State.emit_key, State.landOne_key, State.issueCmd_key,
    State.takeTask_key]

@[simp] theorem execValset_key (x0 : Reg) (x1 : State) :
    okey (execValset x0 x1) = some x1.key := by
  unfold execValset
  grind [State.key, okey, tkey, State.setMe_key, State.emit_key]

@[simp] theorem State.commitTask_key (x0 : State) (x1 : Nat) :
    (State.commitTask x0 x1).key = x0.key := by
  unfold State.commitTask
  (repeat' split) <;> simp [foldl_key]

@[simp] theorem execVclr_key (x0 : State) :
    okey (execVclr x0) = some x0.key := by
  unfold execVclr
  simp

@[simp] theorem State.decrement_key (x0 : State) (x1 : Gang) (x2 : Pool) (x3 : Nat) (x4 : Nat) :
    (State.decrement x0 x1 x2 x3 x4).1.key = x0.key := by
  unfold State.decrement
  grind [State.key, okey, tkey, State.homeRead_key, State.writeTxn_key]

@[simp] theorem execCasv_key (x0 : Reg) (x1 : Reg) (x2 : Byte) (x3 : Ord) (x4 : State) :
    okey (execCasv x0 x1 x2 x3 x4) = some x4.key := by
  unfold execCasv
  grind [State.key, okey, tkey, State.memFault_key, State.issueMem_key]

@[simp] theorem State.atom_key (x0 : State) (x1 : Reg) (x2 : Reg) (x3 : Byte) (x4 : Ord) (x5 : Nat) (x6 : Bool) :
    (State.atom x0 x1 x2 x3 x4 x5 x6).key = x0.key := by
  unfold State.atom
  grind [State.key, okey, tkey, State.memFault_key, State.issueMem_key]

@[simp] theorem State.makeReady_key (x0 : State) (x1 : Nat) (x2 : Nat) :
    (State.makeReady x0 x1 x2).key = x0.key := by
  unfold State.makeReady
  grind [State.key, okey, tkey, State.setGang_key]

@[simp] theorem execAtomAdd_key (x0 : Reg) (x1 : Reg) (x2 : Byte) (x3 : Ord) (x4 : State) :
    okey (execAtomAdd x0 x1 x2 x3 x4) = some x4.key := by
  unfold execAtomAdd
  simp

@[simp] theorem execAtomMin_key (x0 : Reg) (x1 : Reg) (x2 : Byte) (x3 : Ord) (x4 : State) :
    okey (execAtomMin x0 x1 x2 x3 x4) = some x4.key := by
  unfold execAtomMin
  simp

@[simp] theorem State.decrements_key (x0 : State) (x1 : Gang) (x2 : Pool) (x3 : Nat) (x4 : Nat) (x5 : List Nat) :
    (State.decrements x0 x1 x2 x3 x4 x5).key = x0.key := by
  induction x5 generalizing x0 with
  | nil => rfl
  | cons i r ih =>
    have h := State.decrement_key x0 x1 x2 x3 i
    unfold State.decrements
    repeat' split
    all_goals simp_all

@[simp] theorem execAtomMax_key (x0 : Reg) (x1 : Reg) (x2 : Byte) (x3 : Ord) (x4 : State) :
    okey (execAtomMax x0 x1 x2 x3 x4) = some x4.key := by
  unfold execAtomMax
  simp

@[simp] theorem execAtomAnd_key (x0 : Reg) (x1 : Reg) (x2 : Byte) (x3 : Ord) (x4 : State) :
    okey (execAtomAnd x0 x1 x2 x3 x4) = some x4.key := by
  unfold execAtomAnd
  simp

@[simp] theorem execAtomOr_key (x0 : Reg) (x1 : Reg) (x2 : Byte) (x3 : Ord) (x4 : State) :
    okey (execAtomOr x0 x1 x2 x3 x4) = some x4.key := by
  unfold execAtomOr
  simp

@[simp] theorem execAtomXor_key (x0 : Reg) (x1 : Reg) (x2 : Byte) (x3 : Ord) (x4 : State) :
    okey (execAtomXor x0 x1 x2 x3 x4) = some x4.key := by
  unfold execAtomXor
  simp

@[simp] theorem execAtomXchg_key (x0 : Reg) (x1 : Reg) (x2 : Byte) (x3 : Ord) (x4 : State) :
    okey (execAtomXchg x0 x1 x2 x3 x4) = some x4.key := by
  unfold execAtomXchg
  simp

@[simp] theorem State.successors_key (x0 : State) (x1 : Gang) (x2 : Pool) (x3 : Nat) (x4 : Nat) :
    (State.successors x0 x1 x2 x3 x4).1.key = x0.key := by
  unfold State.successors
  grind [State.key, okey, tkey, State.readControl_key]

@[simp] theorem execAtomCas_key (x0 : Reg) (x1 : Reg) (x2 : Byte) (x3 : Ord) (x4 : State) :
    okey (execAtomCas x0 x1 x2 x3 x4) = some x4.key := by
  unfold execAtomCas
  simp

@[simp] theorem execAtomAddI32_key (x0 : Reg) (x1 : Reg) (x2 : Byte) (x3 : Ord) (x4 : State) :
    okey (execAtomAddI32 x0 x1 x2 x3 x4) = some x4.key := by
  unfold execAtomAddI32
  simp

@[simp] theorem execAtomMinI32_key (x0 : Reg) (x1 : Reg) (x2 : Byte) (x3 : Ord) (x4 : State) :
    okey (execAtomMinI32 x0 x1 x2 x3 x4) = some x4.key := by
  unfold execAtomMinI32
  simp

@[simp] theorem execAtomMaxI32_key (x0 : Reg) (x1 : Reg) (x2 : Byte) (x3 : Ord) (x4 : State) :
    okey (execAtomMaxI32 x0 x1 x2 x3 x4) = some x4.key := by
  unfold execAtomMaxI32
  simp

@[simp] theorem execAtomAndI32_key (x0 : Reg) (x1 : Reg) (x2 : Byte) (x3 : Ord) (x4 : State) :
    okey (execAtomAndI32 x0 x1 x2 x3 x4) = some x4.key := by
  unfold execAtomAndI32
  simp

@[simp] theorem execAtomOrI32_key (x0 : Reg) (x1 : Reg) (x2 : Byte) (x3 : Ord) (x4 : State) :
    okey (execAtomOrI32 x0 x1 x2 x3 x4) = some x4.key := by
  unfold execAtomOrI32
  simp

@[simp] theorem execAtomXorI32_key (x0 : Reg) (x1 : Reg) (x2 : Byte) (x3 : Ord) (x4 : State) :
    okey (execAtomXorI32 x0 x1 x2 x3 x4) = some x4.key := by
  unfold execAtomXorI32
  simp

@[simp] theorem State.runTkdone_key (x0 : State) (x1 : Nat) (x2 : Word) :
    (State.runTkdone x0 x1 x2).key = x0.key := by
  unfold State.runTkdone
  simp only []
  (repeat' split) <;> simp

@[simp] theorem execAtomXchgI32_key (x0 : Reg) (x1 : Reg) (x2 : Byte) (x3 : Ord) (x4 : State) :
    okey (execAtomXchgI32 x0 x1 x2 x3 x4) = some x4.key := by
  unfold execAtomXchgI32
  simp

@[simp] theorem execAtomCasI32_key (x0 : Reg) (x1 : Reg) (x2 : Byte) (x3 : Ord) (x4 : State) :
    okey (execAtomCasI32 x0 x1 x2 x3 x4) = some x4.key := by
  unfold execAtomCasI32
  simp

@[simp] theorem execTkdone_key (x0 : State) :
    okey (execTkdone x0) = some x0.key := by
  unfold execTkdone
  grind [State.key, okey, tkey, State.issueCmd_key, State.refuse_key, State.runTkdone_key]

@[simp] theorem State.sendLdf_key (x0 : State) (x1 : Reg) (x2 : Word) (x3 : Place) (x4 : Bool) :
    (State.sendLdf x0 x1 x2 x3 x4).key = x0.key := by
  unfold State.sendLdf
  simp

@[simp] theorem execLdf_key (x0 : Reg) (x1 : Reg) (x2 : Byte) (x3 : State) :
    okey (execLdf x0 x1 x2 x3) = some x3.key := by
  unfold execLdf
  grind [State.key, okey, tkey, State.memFault_key, State.setMe_key, State.sendLdf_key]

@[simp] theorem execFwait_key (x0 : Reg) (x1 : State) :
    okey (execFwait x0 x1) = some x1.key := by
  unfold execFwait
  simp

@[simp] theorem execStf_key (x0 : Reg) (x1 : Reg) (x2 : Byte) (x3 : State) :
    okey (execStf x0 x1 x2 x3) = some x3.key := by
  unfold execStf
  grind [State.key, okey, tkey, State.memFault_key, State.issueMem_key]

@[simp] theorem execRel_key (x0 : Reg) (x1 : Reg) (x2 : Byte) (x3 : State) :
    okey (execRel x0 x1 x2 x3) = some x3.key := by
  unfold execRel
  grind [State.key, okey, tkey, State.memFault_key, State.issueMem_key]

@[simp] theorem execFence_key (x0 : Scope) (x1 : State) :
    okey (execFence x0 x1) = some x1.key := by
  unfold execFence
  simp

@[simp] theorem State.mwaitDone_key (x0 : State) (x1 : Nat) (x2 : Window) :
    (State.mwaitDone x0 x1 x2).key = x0.key := by
  unfold State.mwaitDone
  grind [State.key, okey, tkey, State.ahead_key, State.setMe_key, State.setAsync_key, State.noteWalk_key]

end Sys2Proof.Machine
end

