-- ==== Sys2Proof/Laws/KeyIssue.lean ====
section
/-! SUPPORT. Nothing but the events of `Laws.Legal` changes the management fields of `Key`: one lemma for each operation. -/

namespace Sys2Proof.Machine
open Sys2Proof

@[simp] theorem execMwait_key (x0 : Reg) (x1 : Reg) (x2 : Byte) (x3 : State) :
    okey (execMwait x0 x1 x2 x3) = some x3.key := by
  unfold execMwait
  grind [State.key, okey, tkey, State.mwaitDone_key, State.memFault_key, State.setMe_key]

@[simp] theorem execProbe_key (x0 : Reg) (x1 : Reg) (x2 : Byte) (x3 : State) :
    okey (execProbe x0 x1 x2 x3) = some x3.key := by
  unfold execProbe
  grind [State.key, okey, tkey, State.noteWalk_key, State.memFault_key, State.issueMem_key]

@[simp] theorem execPft_key (x0 : Reg) (x1 : Reg) (x2 : Byte) (x3 : State) :
    okey (execPft x0 x1 x2 x3) = some x3.key := by
  unfold execPft
  grind [State.key, okey, tkey, State.homeRead_key, State.l1Load_key, State.ahead_key]

@[simp] theorem execErw_key (x0 : BitVec 4) (x1 : Reg) (x2 : Src) (x3 : Reg) (x4 : State) :
    okey (execErw x0 x1 x2 x3 x4) = some x4.key := by
  unfold execErw
  simp

@[simp] theorem execErd_key (x0 : BitVec 4) (x1 : Reg) (x2 : Reg) (x3 : State) :
    okey (execErd x0 x1 x2 x3) = some x3.key := by
  unfold execErd
  simp

@[simp] theorem State.setBt_key (x0 : State) (x1 : BitVec 2) (x2 : Word) :
    (State.setBt x0 x1 x2).key = x0.key := by
  unfold State.setBt
  simp

@[simp] theorem execPt_key (x0 : BitVec 2) (x1 : BitVec 22) (x2 : State) :
    okey (execPt x0 x1 x2) = some x2.key := by
  unfold execPt
  simp

@[simp] theorem execPtr_key (x0 : BitVec 2) (x1 : Reg) (x2 : State) :
    okey (execPtr x0 x1 x2) = some x2.key := by
  unfold execPtr
  simp

@[simp] theorem State.enter_key (x0 : State) (x1 : Cmd) :
    (State.enter x0 x1).key = x0.key := by
  unfold State.enter
  simp

@[simp] theorem State.arm_key (x0 : State) (x1 : Xfer) :
    (State.arm x0 x1).key = x0.key := by
  unfold State.arm
  grind [State.key, okey, tkey, State.setMe_key]

@[simp] theorem State.enqueue_key (x0 : State) (x1 : Cmd) :
    (State.enqueue x0 x1).key = x0.key := by
  unfold State.enqueue
  simp

@[simp] theorem State.submit_key (x0 : State) (x1 : Cmd) (x2 : Bool) (x3 : List (Word × Nat)) (x4 : List (Word × Nat)) :
    (State.submit x0 x1 x2 x3 x4).key = x0.key := by
  unfold State.submit
  grind [State.key, okey, tkey, State.enqueue_key, State.refuse_key]

@[simp] theorem execBr_key (x0 : BitVec 2) (x1 : Bool) (x2 : Bool) (x3 : Reg) (x4 : State) :
    okey (execBr x0 x1 x2 x3 x4) = some x4.key := by
  unfold execBr
  simp

@[simp] theorem State.linkOp_key (x0 : State) (x1 : Word) :
    (State.linkOp x0 x1).key = x0.key := by
  unfold State.linkOp
  simp

@[simp] theorem execCall_key (x0 : BitVec 2) (x1 : State) :
    okey (execCall x0 x1) = some x1.key := by
  unfold execCall
  simp

@[simp] theorem State.calltFault_key (x0 : State) (x1 : Xfer) (x2 : Word) (x3 : Nat) :
    (State.calltFault x0 x1 x2 x3).key = x0.key := by
  unfold State.calltFault
  simp

@[simp] theorem State.calltRead_key (x0 : State) (x1 : Nat) (x2 : Nat) (x3 : Window) :
    (State.calltRead x0 x1 x2 x3).1.key = x0.key := by
  unfold State.calltRead
  simp

@[simp] theorem execMlease_key (x0 : State) :
    okey (execMlease x0) = some x0.key := by
  unfold execMlease
  simp

@[simp] theorem execCallt_key (x0 : Reg) (x1 : BitVec 12) (x2 : State) :
    okey (execCallt x0 x1 x2) = some x2.key := by
  unfold execCallt
  grind [State.key, okey, tkey, State.emitHeld_key, State.linkOp_key, State.arm_key, State.setMe_key,
    State.calltFault_key, State.calltRead_key, State.emit_key]

@[simp] theorem State.runMfree_key (x0 : State) (x1 : Cmd) (x2 : Word) :
    (State.runMfree x0 x1 x2).key = x0.key := by
  unfold State.runMfree
  grind [State.key, okey, tkey, State.complete_key, State.enter_key]

@[simp] theorem execMfree_key (x0 : State) :
    okey (execMfree x0) = some x0.key := by
  unfold execMfree
  simp

@[simp] theorem execMma_key (x0 : FTy) (x1 : FTy) (x2 : State) :
    okey (execMma x0 x1 x2) = some x2.key := by
  unfold execMma
  simp

@[simp] theorem execMmas_key (x0 : FTy) (x1 : FTy) (x2 : State) :
    okey (execMmas x0 x1 x2) = some x2.key := by
  unfold execMmas
  simp

@[simp] theorem State.runMgath_key (x0 : State) (x1 : Cmd) (x2 : Word) :
    (State.runMgath x0 x1 x2).key = x0.key := by
  unfold State.runMgath
  grind [State.key, okey, tkey, State.refuseCmd_key, State.enter_key]

@[simp] theorem execRet_key (x0 : State) :
    okey (execRet x0) = some x0.key := by
  unfold execRet
  simp

@[simp] theorem execBswap_key (x0 : BitVec 2) (x1 : State) :
    okey (execBswap x0 x1) = some x1.key := by
  unfold execBswap
  simp

@[simp] theorem execLoop_key (x0 : BitVec 4) (x1 : BitVec 3) (x2 : State) :
    okey (execLoop x0 x1 x2) = some x2.key := by
  unfold execLoop
  grind [State.key, okey, tkey, State.setMe_key]

@[simp] theorem execMgath_key (x0 : FTy) (x1 : State) :
    okey (execMgath x0 x1) = some x1.key := by
  unfold execMgath
  grind [State.key, okey, tkey, State.issueCmd_key, State.refuse_key, State.submit_key, State.runMgath_key]

@[simp] theorem execAccrd_key (x0 : FTy) (x1 : State) :
    okey (execAccrd x0 x1) = some x1.key := by
  unfold execAccrd
  simp

@[simp] theorem execAccwr_key (x0 : FTy) (x1 : State) :
    okey (execAccwr x0 x1) = some x1.key := by
  unfold execAccwr
  simp

@[simp] theorem execAccz_key (x0 : State) :
    okey (execAccz x0) = some x0.key := by
  unfold execAccz
  simp

@[simp] theorem execIfence_key (x0 : State) :
    okey (execIfence x0) = some x0.key := by
  unfold execIfence
  grind [State.key, okey, tkey, State.setCore_key]

@[simp] theorem execTrap_key (x0 : BitVec 12) (x1 : State) :
    okey (execTrap x0 x1) = some x1.key := by
  unfold execTrap
  simp

@[simp] theorem execResume_key (x0 : State) :
    okey (execResume x0) = some x0.key := by
  unfold execResume
  simp

@[simp] theorem execYield_key (x0 : State) :
    okey (execYield x0) = some x0.key := by
  unfold execYield
  simp

@[simp] theorem execExit_key (x0 : State) :
    okey (execExit x0) = some x0.key := by
  unfold execExit
  simp

@[simp] theorem execNop_key (x0 : Bool) (x1 : Bool) (x2 : Reg) (x3 : BitVec 4) (x4 : BitVec 12) (x5 : State) :
    okey (execNop x0 x1 x2 x3 x4 x5) = some x5.key := by
  unfold execNop
  simp

@[simp] theorem execVecop_key (x0 : VOp) (x1 : State) :
    okey (execVecop x0 x1) = some x1.key := by
  unfold execVecop
  grind [State.key, okey, tkey, State.enqueue_key, State.refuse_key, State.setMe_key]

@[simp] theorem State.markStarted_key (x0 : State) (x1 : Nat) (x2 : Nat) :
    (State.markStarted x0 x1 x2).key = x0.key := by
  unfold State.markStarted
  simp

@[simp] theorem State.leave_key (x0 : State) (x1 : Cmd) :
    (State.leave x0 x1).key = x0.key := by
  unfold State.leave
  simp

@[simp] theorem State.finishCmd_key (x0 : State) (x1 : Cmd) (x2 : Byte) :
    (State.finishCmd x0 x1 x2).key = x0.key := by
  unfold State.finishCmd
  simp

@[simp] theorem State.recount_key (x0 : State) (x1 : Nat) :
    (State.recount x0 x1).key = x0.key := by
  unfold State.recount
  simp

@[simp] theorem State.giveLease_key (x0 : State) (x1 : Nat) (x2 : Option Nat) :
    (State.giveLease x0 x1 x2).key = x0.key := by
  unfold State.giveLease
  cases x2 <;> simp

@[simp] theorem State.passLease_key (x0 : State) (x1 : Nat) :
    (State.passLease x0 x1).key = x0.key := by
  unfold State.passLease
  grind [State.key, okey, tkey, State.giveLease_key]

@[simp] theorem State.request_key (x0 : State) (x1 : Nat) :
    (State.request x0 x1).key = x0.key := by
  unfold State.request
  grind [State.key, okey, tkey, State.setCl_key]

@[simp] theorem State.leaveLease_key (x0 : State) (x1 : Nat) :
    (State.leaveLease x0 x1).key = x0.key := by
  unfold State.leaveLease
  grind [State.key, okey, tkey, State.passLease_key]

@[simp] theorem State.accept_key (x0 : State) (x1 : Nat) (x2 : Nat) (x3 : Cmd) :
    (State.accept x0 x1 x2 x3).key = x0.key := by
  unfold State.accept
  grind [State.key, okey, tkey, State.markStarted_key, State.leaveLease_key, State.passLease_key, State.finishCmd_key,
    State.setCl_key]

@[simp] theorem execLeaseGrant_key (x0 : Nat) (x1 : State) :
    okey (execLeaseGrant x0 x1) = some x1.key := by
  unfold execLeaseGrant
  grind [State.key, okey, tkey, State.giveLease_key]

@[simp] theorem State.runLimit_key (x0 : State) (x1 : Nat) :
    (State.runLimit x0 x1).key = x0.key := by
  unfold State.runLimit
  grind [State.key, okey, tkey, State.setCl_key, State.giveLease_key]

@[simp] theorem execLeaseRunLimit_key (x0 : Nat) (x1 : State) :
    okey (execLeaseRunLimit x0 x1) = some x1.key := by
  unfold execLeaseRunLimit
  simp

@[simp] theorem execLeaseIdlePass_key (x0 : Nat) (x1 : State) :
    okey (execLeaseIdlePass x0 x1) = some x1.key := by
  unfold execLeaseIdlePass
  grind [State.key, okey, tkey, State.giveLease_key]

@[simp] theorem State.joinColl_key (x0 : State) (x1 : Nat) (x2 : Cmd) :
    (State.joinColl x0 x1 x2).key = x0.key := by
  unfold State.joinColl
  simp

@[simp] theorem execTdtDispatch_key (x0 : Nat) (x1 : Nat) (x2 : State) :
    okey (execTdtDispatch x0 x1 x2) = some x2.key := by
  unfold execTdtDispatch
  grind [State.key, okey, tkey, State.runLimit_key, State.request_key, State.accept_key, State.joinColl_key,
    State.markStarted_key, State.setCl_key]

@[simp] theorem State.outMem_key (x0 : State) (x1 : Cmd) (x2 : Mem) :
    (State.outMem x0 x1 x2).key = x0.key := by
  unfold State.outMem
  simp

@[simp] theorem State.setAcc_key (x0 : State) (x1 : Nat) (x2 : Tab Syl) :
    (State.setAcc x0 x1 x2).key = x0.key := by
  unfold State.setAcc
  simp

@[simp] theorem State.runMatrix_key (x0 : State) (x1 : Cmd) :
    (State.runMatrix x0 x1).key = x0.key := by
  unfold State.runMatrix
  grind [State.key, okey, tkey, State.setAcc_key, State.finishCmd_key, State.setCtx_key, State.setCl_key,
    State.outMem_key]

@[simp] theorem State.runVec_key (x0 : State) (x1 : Cmd) (x2 : VOp) :
    (State.runVec x0 x1 x2).key = x0.key := by
  unfold State.runVec
  grind [State.key, okey, tkey, State.finishCmd_key, State.outMem_key]

@[simp] theorem execEngineCommandComplete_key (x0 : Nat) (x1 : Bool) (x2 : State) :
    okey (execEngineCommandComplete x0 x1 x2) = some x2.key := by
  unfold execEngineCommandComplete
  simp only []
  repeat' split
  all_goals simp

@[simp] theorem State.sendInputs_key (x0 : State) (x1 : Nat) (x2 : List (Nat × Nat)) :
    (State.sendInputs x0 x1 x2).key = x0.key := by
  unfold State.sendInputs
  (repeat' split) <;> simp [foldl_key]

@[simp] theorem State.readElem_key (x0 : State) (x1 : Cmd) (x2 : Place) (x3 : Nat) (x4 : Nat) :
    (State.readElem x0 x1 x2 x3 x4).1.key = x0.key := by
  unfold State.readElem
  grind [State.key, okey, tkey, State.homeMany_key, State.setAsync_key]

@[simp] theorem State.noteOutputs_key (x0 : State) (x1 : Cmd) (x2 : List (Nat × Nat)) :
    (State.noteOutputs x0 x1 x2).key = x0.key := by
  unfold State.noteOutputs
  simp

@[simp] theorem State.writeElems_key (x0 : State) (x1 : Cmd) (x2 : List ElemWrite) (x3 : List (Nat × Nat)) :
    (State.writeElems x0 x1 x2 x3).key = x0.key := by
  unfold State.writeElems
  rw [State.noteOutputs_key, foldl_key _ (by simp), foldl_key, foldl_key]
  · intro t x
    repeat' split
    all_goals simp
  · intro t x
    have k := State.writeTxn_key t (t.cmdAcc x1 x.2) (sectorCells x2 x.1 x.2.world) false 0 .ctx
    split <;> rename_i e <;> rw [e] at k <;> simp [← k]

@[simp] theorem State.runCopy_key (x0 : State) (x1 : Cmd) (x2 : Word) :
    (State.runCopy x0 x1 x2).key = x0.key := by
  unfold State.runCopy
  simp

@[simp] theorem State.submitCopy_key (x0 : State) (x1 : Cmd) (x2 : Bool) :
    (State.submitCopy x0 x1 x2).key = x0.key := by
  unfold State.submitCopy
  grind [State.key, okey, tkey, State.runCopy_key, State.refuse_key, State.issueCmd_key]

@[simp] theorem execCpy_key (x0 : State) :
    okey (execCpy x0) = some x0.key := by
  unfold execCpy
  simp

@[simp] theorem execCpyd_key (x0 : State) :
    okey (execCpyd x0) = some x0.key := by
  unfold execCpyd
  simp

@[simp] theorem execCopyStart_key (x0 : Nat) (x1 : Nat) (x2 : State) :
    okey (execCopyStart x0 x1 x2) = some x2.key := by
  unfold execCopyStart
  simp only []
  (repeat' split) <;> first
    | (simp [foldl_key, State.setCl_key, State.markStarted_key]; done)
    | (rw [foldl_key] <;> simp; done)
    | (rw [foldl_key1] <;> simp; done)
    | grind [State.key, okey, tkey, State.setCl_key, State.markStarted_key]

@[simp] theorem State.unboard_key (x0 : State) (x1 : Cmd) :
    (State.unboard x0 x1).key = x0.key := by
  unfold State.unboard
  (repeat' split) <;> simp [foldl_key]

@[simp] theorem State.copyReads_key (x0 : State) (x1 : Cmd) (x2 : Nat) (x3 : Nat) :
    (State.copyReads x0 x1 x2 x3).1.key = x0.key := by
  induction x2 generalizing x0 x3 with
  | zero => rfl
  | succ n ih =>
    unfold State.copyReads
    simp only []
    repeat' split
    all_goals simp_all

@[simp] theorem execCopyComplete_key (x0 : Nat) (x1 : Nat) (x2 : State) :
    okey (execCopyComplete x0 x1 x2) = some x2.key := by
  unfold execCopyComplete
  grind [State.key, okey, tkey, State.writeElems_key, State.unboard_key, State.copyReads_key, State.finishCmd_key]

@[simp] theorem execIfill_key (x0 : State) :
    okey (execIfill x0) = some x0.key := by
  unfold execIfill
  grind [State.key, okey, tkey, State.issueCmd_key, State.refuse_key, State.enter_key, State.submit_key]

@[simp] theorem State.fillWord_key (x0 : State) (x1 : Cmd) (x2 : Bool) (x3 : Word) :
    (State.fillWord x0 x1 x2 x3).1.key = x0.key := by
  unfold State.fillWord
  simp only []
  (repeat' split) <;> first | (simp; done) | grind [State.key, okey, tkey, State.homeRead_key, State.readControl_key]

@[simp] theorem litRun_key (x0 : Cmd) (x1 : Nat) (x2 : Word) (x3 : Nat) (x4 : Fill9) :
    (litRun x0 x1 x2 x3 x4).s.key = x4.s.key := by
  induction x1 generalizing x2 x3 x4 with
  | zero => unfold litRun; split <;> rfl
  | succ n ih =>
    have h := State.fillWord_key x4.s x0 false x2
    unfold litRun
    simp only []
    repeat' split
    all_goals simp_all

@[simp] theorem State.fillWords_key (x0 : State) (x1 : Cmd) (x2 : Bool) (x3 : Nat) (x4 : Word) :
    (State.fillWords x0 x1 x2 x3 x4).1.key = x0.key := by
  induction x3 generalizing x0 x4 with
  | zero => rfl
  | succ n ih =>
    unfold State.fillWords
    repeat' split
    all_goals grind [State.fillWord_key]

@[simp] theorem State.findTemplate_key (x0 : State) (x1 : Cmd) (x2 : Nat) (x3 : Word) :
    (State.findTemplate x0 x1 x2 x3).1.key = x0.key := by
  induction x2 generalizing x0 x3 with
  | zero =>
    unfold State.findTemplate
    repeat' split
    all_goals grind [State.fillWord_key]
  | succ n ih =>
    unfold State.findTemplate
    simp only []
    repeat' split
    all_goals grind [State.fillWord_key]

@[simp] theorem useTemplate_key (x0 : Cmd) (x1 : Nat) (x2 : Word) (x3 : Fill9) :
    (useTemplate x0 x1 x2 x3).1.s.key = x3.s.key := by
  unfold useTemplate
  grind [State.key, okey, tkey, State.findTemplate_key, State.fillWords_key]

@[simp] theorem runUnits_key (x0 : Cmd) (x1 : Nat) (x2 : Word) (x3 : Fill9) :
    (runUnits x0 x1 x2 x3).s.key = x3.s.key := by
  fun_induction runUnits x0 x1 x2 x3 <;> first
    | (simp_all [Prod.ext_iff]; done)
    | (simp_all [Fill9.before_key, litRun_key]; done)
    | grind [State.key, okey, tkey, Fill9.before_key, litRun_key, State.fillWord_key, useTemplate_key]

@[simp] theorem execIfillComplete_key (x0 : Nat) (x1 : State) :
    okey (execIfillComplete x0 x1) = some x1.key := by
  unfold execIfillComplete
  grind [State.key, okey, tkey, State.finishCmd_key, State.setCore_key, runUnits_key, State.setCtx_key]

@[simp] theorem State.runBmsg_key (x0 : State) (x1 : Cmd) (x2 : Word) :
    (State.runBmsg x0 x1 x2).key = x0.key := by
  unfold State.runBmsg
  grind [State.key, okey, tkey, State.refuseCmd_key, State.sendFirst_key, State.setSlice_key]

@[simp] theorem execBmsg_key (x0 : State) :
    okey (execBmsg x0) = some x0.key := by
  unfold execBmsg
  grind [State.key, okey, tkey, State.refuse_key, State.runBmsg_key, State.issueCmd_key]

@[simp] theorem execQld_key (x0 : BitVec 4) (x1 : Reg) (x2 : BitVec 12) (x3 : State) :
    okey (execQld x0 x1 x2 x3) = some x3.key := by
  unfold execQld
  grind [State.key, okey, tkey, State.memFault_key, State.emit_key]

@[simp] theorem execQmov_key (x0 : BitVec 4) (x1 : Reg) (x2 : State) :
    okey (execQmov x0 x1 x2) = some x2.key := by
  unfold execQmov
  simp

@[simp] theorem execQset_key (x0 : BitVec 4) (x1 : Byte) (x2 : State) :
    okey (execQset x0 x1 x2) = some x2.key := by
  unfold execQset
  simp

@[simp] theorem execFmtset_key (x0 : BitVec 4) (x1 : Reg) (x2 : State) :
    okey (execFmtset x0 x1 x2) = some x2.key := by
  unfold execFmtset
  simp

@[simp] theorem State.groupBytes_key (x0 : State) (x1 : Cmd) (x2 : Nat) (x3 : Nat) (x4 : Nat) :
    (State.groupBytes x0 x1 x2 x3 x4).1.key = x0.key := by
  unfold State.groupBytes
  grind [State.key, okey, tkey, State.setAsync_key, State.readControl_key]

@[simp] theorem State.readGroup_key (x0 : State) (x1 : Cmd) :
    (State.readGroup x0 x1).1.key = x0.key := by
  unfold State.readGroup
  grind [State.key, okey, tkey, State.groupBytes_key]

@[simp] theorem State.grouped_key (x0 : State) (x1 : Cmd) :
    (State.grouped x0 x1).1.key = x0.key := by
  unfold State.grouped
  grind [State.key, okey, tkey, State.readGroup_key]

@[simp] theorem State.runColl_key (x0 : State) (x1 : Cmd) (x2 : Word) :
    (State.runColl x0 x1 x2).key = x0.key := by
  unfold State.runColl
  grind [State.key, okey, tkey, State.refuseCmd_key, State.enter_key, State.sendInputs_key, State.grouped_key]

@[simp] theorem execColl_key (x0 : FTy) (x1 : COp) (x2 : State) :
    okey (execColl x0 x1 x2) = some x2.key := by
  unfold execColl
  grind [State.key, okey, tkey, State.issueCmd_key, State.refuse_key, State.submit_key, State.grouped_key,
    State.runColl_key]

@[simp] theorem State.tileMem_key (x0 : State) (x1 : Cmd) (x2 : Word × Nat) :
    (State.tileMem x0 x1 x2).1.key = x0.key := by
  unfold State.tileMem
  grind [State.key, okey, tkey, State.readElem_key]

@[simp] theorem State.collPart_key (x0 : State) (x1 : CollWait) :
    (State.collPart x0 x1).1.key = x0.key := by
  unfold State.collPart
  grind [State.key, okey, tkey, State.tileMem_key]

@[simp] theorem State.collParts_key (x0 : State) (x1 : List CollWait) :
    (State.collParts x0 x1).1.key = x0.key := by
  induction x1 generalizing x0 with
  | nil => rfl
  | cons i r ih =>
    unfold State.collParts
    simp only []
    repeat' split
    all_goals simp_all

@[simp] theorem State.collPut_key (x0 : State) (x1 : Cmd) (x2 : List Nat) :
    (State.collPut x0 x1 x2).key = x0.key := by
  unfold State.collPut
  grind [State.key, okey, tkey, State.writeElems_key, State.outMem_key, State.readElem_key]

@[simp] theorem State.endColl_key (x0 : State) (x1 : Cmd) (x2 : Nat) (x3 : Byte) :
    (State.endColl x0 x1 x2 x3).key = x0.key := by
  unfold State.endColl
  simp

@[simp] theorem State.collGive_key (x0 : State) (x1 : List CollPart) (x2 : CollWait) :
    (State.collGive x0 x1 x2).key = x0.key := by
  unfold State.collGive
  grind [State.key, okey, tkey, State.endColl_key, State.collPut_key]

@[simp] theorem State.collLose_key (x0 : State) (x1 : CollWait) :
    (State.collLose x0 x1).key = x0.key := by
  unfold State.collLose
  grind [State.key, okey, tkey, State.endColl_key, State.collPut_key]

@[simp] theorem State.collFailed_key (x0 : State) (x1 : CollWait) (x2 : Nat) :
    (State.collFailed x0 x1 x2).key = x0.key := by
  unfold State.collFailed
  grind [State.key, okey, tkey, State.endColl_key, State.collLose_key]

@[simp] theorem State.failSeq_key (x0 : State) (x1 : Word) (x2 : Nat) (x3 : List Nat) (x4 : List Cmd) :
    (State.failSeq x0 x1 x2 x3 x4).key = x0.key := by
  unfold State.failSeq
  simp only []
  (repeat' split) <;> first
    | (simp [foldl_key, State.collFailed_key]; done)
    | (rw [foldl_key] <;> simp; done)
    | (rw [foldl_key1] <;> simp; done)
    | grind [State.key, okey, tkey, State.collFailed_key]

@[simp] theorem State.lateColl_key (x0 : State) (x1 : CollEnd) :
    (State.lateColl x0 x1).key = x0.key := by
  unfold State.lateColl
  (repeat' split) <;> simp [foldl_key]

@[simp] theorem execCollComplete_key (x0 : Word) (x1 : List RemoteRank) (x2 : State) :
    okey (execCollComplete x0 x1 x2) = some x2.key := by
  unfold execCollComplete
  simp only []
  (repeat' split) <;> first
    | (simp [foldl_key, State.collGive_key, State.lateColl_key, State.collParts_key, State.failSeq_key]; done)
    | (rw [foldl_key] <;> simp; done)
    | (rw [foldl_key1] <;> simp; done)
    | grind [State.key, okey, tkey, State.collGive_key, State.lateColl_key, State.collParts_key, State.failSeq_key]

@[simp] theorem State.armMonitor_key (x0 : State) (x1 : Nat) (x2 : Window) (x3 : Nat) :
    (State.armMonitor x0 x1 x2 x3).key = x0.key := by
  unfold State.armMonitor
  grind [State.key, okey, tkey, State.setMe_key, State.noteWalk_key, State.setAsync_key, State.ahead_key]

@[simp] theorem State.onBlock_key (x0 : State) (x1 : Instr) :
    (State.onBlock x0 x1).key = x0.key := by
  cases x1
  case mwait d a off =>
    show (match x0.mwaitAt a off, x0.me.monitor with
      | some x, none => x0.armMonitor x.1 x.2 (bits (x0.srcS d 2) 31 0)
      | _, _ => x0).key = _
    split <;> simp
  case fwait a =>
    show (match x0.me.fwaitEnd a x0.iss.step with
      | some t => x0.setMe { x0.me with backoff := some t }
      | none => x0).key = _
    split <;> simp
  case yield => exact State.setMe_key _ _
  case phwait a b =>
    show (match x0.phPhase (x0.opA a) b with
      | some w => if x0.phPending w then x0.noteWait x0.cur w else x0
      | none => x0).key = _
    split
    · split <;> simp
    · rfl
  all_goals first
    | rfl
    | (show (if x0.holds x0.cur || _ then x0 else x0.request x0.cur).key = _
       split <;> simp)

@[simp] theorem State.holdBundle_key (x0 : State) (x1 : Nat) (x2 : Nat) (x3 : List Byte) :
    (State.holdBundle x0 x1 x2 x3).key = x0.key := by
  unfold State.holdBundle
  grind [State.key, okey, tkey, State.setCore_key]

@[simp] theorem State.safePoint_key (x0 : State) (x1 : Nat) (x2 : Nat) (x3 : Bool) (x4 : Bool) (x5 : Nat) :
    (State.safePoint x0 x1 x2 x3 x4 x5).key = x0.key := by
  unfold State.safePoint
  grind [State.key, okey, tkey, State.owl_key, State.setCtx_key]

@[simp] theorem State.swapHalves_key (x0 : State) (x1 : Nat) (x2 : Xfer) :
    (State.swapHalves x0 x1 x2).key = x0.key := by
  unfold State.swapHalves
  simp

@[simp] theorem State.goTo_key (x0 : State) (x1 : Nat) (x2 : Word) :
    (State.goTo x0 x1 x2).key = x0.key := by
  unfold State.goTo
  simp

@[simp] theorem State.countTent_key (x0 : State) (x1 : Nat) (x2 : Tent) :
    (State.countTent x0 x1 x2).key = x0.key := by
  unfold State.countTent
  simp

@[simp] theorem State.countTents_key (x0 : State) (x1 : Nat) (x2 : List Tent) :
    (State.countTents x0 x1 x2).1.key = x0.key := by
  induction x2 generalizing x0 with
  | nil => rfl
  | cons i r ih =>
    unfold State.countTents
    simp only []
    repeat' split
    all_goals simp_all

@[simp] theorem State.followArm_key (x0 : State) (x1 : Nat) (x2 : Xfer) :
    (State.followArm x0 x1 x2).key = x0.key := by
  unfold State.followArm
  grind [State.key, okey, tkey, State.setCtx_key]

@[simp] theorem State.settle_key (x0 : State) (x1 : Nat) :
    (State.settle x0 x1).1.key = x0.key := by
  unfold State.settle
  grind [State.key, okey, tkey, State.setCtx_key, State.swapHalves_key, State.followArm_key, State.countTents_key,
    State.setCore_key, State.dropTentative_key, State.goTo_key]

@[simp] theorem State.applyEnd_key (x0 : State) (x1 : Nat) (x2 : EndEff) :
    (State.applyEnd x0 x1 x2).key = x0.key := by
  unfold State.applyEnd
  grind [State.key, okey, tkey, State.orFlags_key, State.setCtx_key]

@[simp] theorem State.applyEnds_key (x0 : State) :
    (State.applyEnds x0).key = x0.key := by
  unfold State.applyEnds
  (repeat' split) <;> simp [foldl_key]

@[simp] theorem State.endSched_key (x0 : State) (x1 : Nat) :
    (State.endSched x0 x1).key = x0.key := by
  unfold State.endSched
  grind [State.key, okey, tkey, State.flushCombs_key, State.taskFail_key, State.phDropAll_key, State.setCtx_key,
    State.leaveLease_key]

@[simp] theorem State.vacate_key (x0 : State) (x1 : Nat) :
    (State.vacate x0 x1).key = x0.key := by
  unfold State.vacate
  grind [State.key, okey, tkey, State.setCore_key]

@[simp] theorem State.drained_key (x0 : State) (x1 : Nat) :
    (State.drained x0 x1).key = x0.key := by
  unfold State.drained
  simp

@[simp] theorem State.endNow_key (x0 : State) (x1 : Nat) :
    (State.endNow x0 x1).key = x0.key := by
  unfold State.endNow
  grind [State.key, okey, tkey, State.endSched_key, State.setCtx_key, State.drained_key]

@[simp] theorem State.flushReports_key (x0 : State) (x1 : Nat) :
    (State.flushReports x0 x1).key = x0.key := by
  unfold State.flushReports
  (repeat' split) <;> simp [foldl_key]

@[simp] theorem State.exitCtx_key (x0 : State) (x1 : Nat) :
    (State.exitCtx x0 x1).key = x0.key := by
  unfold State.exitCtx
  grind [State.key, okey, tkey, State.setCtx_key, State.setCore_key, State.performLdfs_key, State.vacate_key,
    State.endNow_key, State.flushReports_key]

@[simp] theorem State.afterStop_key (x0 : State) (x1 : Option StopReq) (x2 : Bool) :
    (State.afterStop x0 x1 x2).key = x0.key := by
  unfold State.afterStop
  grind [State.key, okey, tkey, State.flushReports_key, State.stop_key, State.setCtx_key]

@[simp] theorem State.finishBundle_key (x0 : State) :
    (State.finishBundle x0).key = x0.key := by
  unfold State.finishBundle
  grind [State.key, okey, tkey, State.settle_key, State.afterStop_key, State.exitCtx_key, State.safePoint_key,
    State.applyEnds_key, State.setMe_key]

@[simp] theorem State.resumed_key (x0 : State) :
    (State.resumed x0).key = x0.key := by
  unfold State.resumed
  simp

@[simp] theorem State.suspend_key (x0 : State) :
    (State.suspend x0).key = x0.key := by
  unfold State.suspend
  grind [State.key, okey, tkey, State.setMe_key, State.vacate_key]

@[simp] theorem State.finishResume_key (x0 : State) :
    (State.finishResume x0).key = x0.key := by
  unfold State.finishResume
  grind [State.key, okey, tkey, State.takeStop_key, State.applyEnds_key, State.suspend_key, State.setMe_key,
    State.flushReports_key, State.resumed_key]

@[simp] theorem State.finishRelease_key (x0 : State) :
    (State.finishRelease x0).key = x0.key := by
  unfold State.finishRelease
  grind [State.key, okey, tkey, State.applyEnds_key, State.flushReports_key, State.stop_key]

@[simp] theorem State.finish_key (x0 : State) :
    (State.finish x0).key = x0.key := by
  unfold State.finish
  grind [State.key, okey, tkey, State.finishResume_key, State.finishBundle_key, State.finishRelease_key]

@[simp] theorem State.rebuffer_key (x0 : State) (x1 : Todo) (x2 : Written) :
    (State.rebuffer x0 x1 x2).key = x0.key := by
  unfold State.rebuffer
  simp

@[simp] theorem State.atSlot_key (x0 : State) (x1 : Todo) :
    (State.atSlot x0 x1).key = x0.key := by
  unfold State.atSlot
  simp

theorem State.beginItem_key (x0 : Nat) (x1 : State) :
    ∀ t, (State.beginItem x0 x1) = some t → t.2.key = x1.key := by
  induction x0 generalizing x1 with
  | zero => simp [State.beginItem]
  | succ n ih =>
    intro t h
    unfold State.beginItem at h
    simp only [] at h
    repeat' split at h
    all_goals first | contradiction | (have := ih _ _ h; simpa using this) | (cases h; simp)

@[simp] theorem State.putBack_key (x0 : State) (x1 : Instr) :
    (State.putBack x0 x1).key = x0.key := by
  unfold State.putBack
  simp

@[simp] theorem State.endItem_key (x0 : State) (x1 : Instr) :
    (State.endItem x0 x1).key = x0.key := by
  unfold State.endItem
  grind [State.key, okey, tkey, State.putBack_key]

@[simp] theorem State.runSubmit_key (x0 : State) (x1 : Cmd) (x2 : Word) :
    (State.runSubmit x0 x1 x2).key = x0.key := by
  unfold State.runSubmit
  grind [State.key, okey, tkey, State.runMgath_key, State.runMfree_key, State.runCopy_key, State.runColl_key,
    State.enter_key]

@[simp] theorem State.badgerReply_key (x0 : State) (x1 : BEvent) (x2 : Word) (x3 : Nat) :
    (State.badgerReply x0 x1 x2 x3).key = x0.key := by
  unfold State.badgerReply
  grind [State.key, okey, tkey, State.writeTxn_key]

@[simp] theorem State.seize_key (x0 : State) (x1 : Nat) :
    (State.seize x0 x1).key = x0.key := by
  unfold State.seize
  simp

@[simp] theorem State.badgerDrop_key (x0 : State) (x1 : BEvent) :
    (State.badgerDrop x0 x1).key = x0.key := by
  unfold State.badgerDrop
  grind [State.key, okey, tkey, State.badgerReply_key]

@[simp] theorem State.block_key (x0 : State) (x1 : Nat) (x2 : Bool) :
    tkey (State.block x0 x1 x2) = x0.key := by
  unfold State.block
  grind [State.key, okey, tkey, State.countEvent_key, State.setCore_key, State.setCtx_key]

@[simp] theorem State.blockYield_key (x0 : State) (x1 : Nat) :
    tkey (State.blockYield x0 x1) = x0.key := by
  unfold State.blockYield
  grind [State.key, okey, tkey, State.setCtx_key, State.block_key]

@[simp] theorem State.runSync_key (x0 : State) (x1 : Nat) (x2 : Nat) (x3 : Word) (x4 : SyncCmd) :
    (State.runSync x0 x1 x2 x3 x4).1.key = x0.key := by
  unfold State.runSync
  grind [State.key, okey, tkey, State.release_key, State.complete_key, State.runPhreg_key, State.runPhdrop_key,
    State.runPhsig_key, State.runPhwait_key, State.runTlwait_key, State.runCbsync_key, State.takeTask_key,
    State.runTkdone_key, State.submit_key, State.runBmsg_key, State.runSubmit_key]

@[simp] theorem State.stopNow_key (x0 : State) (x1 : StopReq) :
    tkey (State.stopNow x0 x1) = x0.key := by
  unfold State.stopNow
  simp

@[simp] theorem State.landDue_key (x0 : State) (x1 : Nat) (x2 : Nat) :
    (State.landDue x0 x1 x2).key = x0.key := by
  unfold State.landDue
  simp

@[simp] theorem State.installImage_key (x0 : State) (x1 : Nat) (x2 : List Byte) :
    (State.installImage x0 x1 x2).key = x0.key := by
  unfold State.installImage
  (repeat' split) <;> simp [foldl_key]

@[simp] theorem State.removeAt_key (x0 : State) (x1 : Nat) (x2 : Nat) :
    (State.removeAt x0 x1 x2).key = x0.key := by
  unfold State.removeAt
  (repeat' split) <;> simp [foldl_key]

@[simp] theorem State.performHeld_key (x0 : State) (x1 : Nat) (x2 : MemOp) :
    (State.performHeld x0 x1 x2).1.key = x0.key := by
  unfold State.performHeld
  grind [State.key, okey, tkey, State.runSync_key, State.perform_key, State.calltRead_key, State.setCtx_key]

@[simp] theorem State.removeImage_key (x0 : State) (x1 : Nat) :
    (State.removeImage x0 x1).key = x0.key := by
  unfold State.removeImage
  (repeat' split) <;> simp [foldl_key]

@[simp] theorem State.bindsFor_key (x0 : State) (x1 : Nat) (x2 : List (Option Bind)) :
    (State.bindsFor x0 x1 x2).key = x0.key := by
  unfold State.bindsFor
  grind [State.key, okey, tkey, State.setCtx_key]

@[simp] theorem State.retryMem_key (x0 : State) (x1 : Nat) (x2 : Nat) :
    (State.retryMem x0 x1 x2).key = x0.key := by
  unfold State.retryMem
  grind [State.key, okey, tkey, State.setCtx_key, State.landOne_key, State.performHeld_key, State.bindsFor_key]

@[simp] theorem State.endBmsg_key (x0 : State) (x1 : BEvent) (x2 : Word) :
    (State.endBmsg x0 x1 x2).key = x0.key := by
  unfold State.endBmsg
  simp

@[simp] theorem execBadgerMsgArrive_key (x0 : Nat) (x1 : State) :
    okey (execBadgerMsgArrive x0 x1) = some x1.key := by
  unfold execBadgerMsgArrive
  grind [State.key, okey, tkey, State.endBmsg_key, State.badgerDrop_key, State.setSlice_key]

@[simp] theorem State.retryCtx_key (x0 : State) (x1 : Nat) :
    (State.retryCtx x0 x1).key = x0.key := by
  unfold State.retryCtx
  simp only []
  (repeat' split) <;> first
    | (simp [foldl_key, State.retryMem_key, State.endNow_key]; done)
    | (rw [foldl_key] <;> simp; done)
    | (rw [foldl_key1] <;> simp; done)
    | grind [State.key, okey, tkey, State.retryMem_key, State.endNow_key]

@[simp] theorem State.retry_key (x0 : State) :
    (State.retry x0).key = x0.key := by
  unfold State.retry
  (repeat' split) <;> simp [foldl_key]

@[simp] theorem execBadgerHandlerStart_key (x0 : Nat) (x1 : State) :
    okey (execBadgerHandlerStart x0 x1) = some x1.key := by
  unfold execBadgerHandlerStart
  grind [State.key, okey, tkey, State.badgerDrop_key, State.setSlice_key]

@[simp] theorem State.stallArm_key (x0 : State) (x1 : Nat) :
    tkey (State.stallArm x0 x1) = x0.key := by
  unfold State.stallArm
  grind [State.key, okey, tkey, State.setCore_key, State.setCtx_key, State.block_key]

@[simp] theorem State.tentative_key (x0 : State) (x1 : Nat) (x2 : BundleIn) :
    tkey (State.tentative x0 x1 x2) = x0.key := by
  unfold State.tentative
  grind [State.key, okey, tkey, State.atSlot_key, State.setCore_key, State.setCtx_key, State.block_key]

end Sys2Proof.Machine
end

