-- ==== Sys2Proof/Laws/KeyDevice.lean ====
section
/-! SUPPORT. Nothing but the events of `Laws.Legal` changes the management fields of `Key`: one lemma for each operation. -/

namespace Sys2Proof.Machine
open Sys2Proof

@[simp] theorem State.setHandler_key (x0 : State) (x1 : Nat) (x2 : Handler) :
    (State.setHandler x0 x1 x2).key = x0.key := by
  unfold State.setHandler
  simp

@[simp] theorem State.endWait_key (x0 : State) (x1 : Nat) :
    (State.endWait x0 x1).key = x0.key := by
  unfold State.endWait
  grind [State.key, okey, tkey, State.setCtx_key, State.phTouch_key]

@[simp] theorem State.served__key (x0 : State) (x1 : Nat) (x2 : Handler) (x3 : Bool) :
    (State.served_ x0 x1 x2 x3).key = x0.key := by
  unfold State.served_
  simp

@[simp] theorem State.gaveRdata_key (x0 : State) (x1 : Nat) (x2 : Handler) (x3 : Nat) (x4 : Bool) (x5 : Word) :
    (State.gaveRdata x0 x1 x2 x3 x4 x5).key = x0.key := by
  unfold State.gaveRdata
  simp

@[simp] theorem State.issueBundle_key (x0 : State) (x1 : Nat) (x2 : BundleIn) (x3 : List Byte) :
    tkey (State.issueBundle x0 x1 x2 x3) = x0.key := by
  unfold State.issueBundle
  simp only []
  (repeat' split) <;> first
    | (simp [foldl_key, State.landDue_key, State.blockYield_key, State.atSlot_key, State.seize_key, State.holdBundle_key,
      State.countEvent_key, State.onBlock_key, State.setCtx_key, State.endWait_key, State.block_key]; done)
    | (rw [foldl_key] <;> simp; done)
    | (rw [foldl_key1] <;> simp; done)
    | grind [State.key, okey, tkey, State.landDue_key, State.blockYield_key, State.atSlot_key, State.seize_key,
      State.holdBundle_key, State.countEvent_key, State.onBlock_key, State.setCtx_key, State.endWait_key, State.block_key]

@[simp] theorem State.presentBundle_key (x0 : State) (x1 : Nat) :
    tkey (State.presentBundle x0 x1) = x0.key := by
  unfold State.presentBundle
  grind [State.key, okey, tkey, State.issueBundle_key, State.stopNow_key, State.stallArm_key, State.setCtx_key,
    State.tentative_key]

@[simp] theorem State.badgerStep_key (x0 : State) (x1 : Nat) :
    (State.badgerStep x0 x1).key = x0.key := by
  unfold State.badgerStep
  grind [State.key, okey, tkey, State.setSlice_key, State.setHandler_key]

@[simp] theorem State.badgerSteps_key (x0 : State) :
    (State.badgerSteps x0).key = x0.key := by
  unfold State.badgerSteps
  (repeat' split) <;> simp [foldl_key]

@[simp] theorem State.prefetch_key (x0 : State) (x1 : Handler) (x2 : Nat) :
    (State.prefetch x0 x1 x2).key = x0.key := by
  unfold State.prefetch
  grind [State.key, okey, tkey, State.setSlice_key]

@[simp] theorem execBadgerPfetch_key (x0 : Nat) (x1 : Word) (x2 : State) :
    okey (execBadgerPfetch x0 x1 x2) = some x2.key := by
  unfold execBadgerPfetch
  grind [State.key, okey, tkey, State.setHandler_key, State.prefetch_key]

@[simp] theorem execBadgerRdata_key (x0 : Nat) (x1 : Word) (x2 : State) :
    okey (execBadgerRdata x0 x1 x2) = some x2.key := by
  unfold execBadgerRdata
  simp only []
  (repeat' split) <;> first
    | (simp [State.touch_key, State.gaveRdata_key]; done)
    | grind [State.key, okey, tkey, State.touch_key, State.gaveRdata_key, State.bring_key]

@[simp] theorem State.park_key (x0 : State) (x1 : Nat) : tkey (State.park x0 x1) = x0.key := by
  unfold State.park
  simp only []
  split <;> simp

@[simp] theorem State.presentRedo_key (x0 : State) (x1 : Nat) (x2 : Redo) :
    tkey (State.presentRedo x0 x1 x2) = x0.key := by
  unfold State.presentRedo
  grind [State.key, okey, tkey, State.restore_key, State.phswWait_key, State.seize_key, State.setCtx_key, State.park_key]

@[simp] theorem State.presentNext_key (x0 : State) (x1 : Nat) :
    tkey (State.presentNext x0 x1) = x0.key := by
  unfold State.presentNext
  grind [State.key, okey, tkey, State.landDue_key, State.presentBundle_key, State.phswWait_key, State.stopNow_key,
    State.settle_key, State.setCtx_key, State.block_key]

@[simp] theorem execBadgerWdata_key (x0 : Nat) (x1 : Word) (x2 : Word) (x3 : State) :
    okey (execBadgerWdata x0 x1 x2 x3) = some x3.key := by
  unfold execBadgerWdata
  grind [State.key, okey, tkey, State.served__key, State.writeTxn_key]

@[simp] theorem State.present_key (x0 : State) (x1 : Nat) :
    tkey (State.present x0 x1) = x0.key := by
  unfold State.present
  simp only []
  (repeat' split) <;> simp

@[simp] theorem execBadgerDone_key (x0 : Nat) (x1 : Option Word) (x2 : State) :
    okey (execBadgerDone x0 x1 x2) = some x2.key := by
  unfold execBadgerDone
  grind [State.key, okey, tkey, State.badgerReply_key, State.setSlice_key]

@[simp] theorem State.abortHandler_key (x0 : State) (x1 : Nat) (x2 : Handler) :
    (State.abortHandler x0 x1 x2).key = x0.key := by
  unfold State.abortHandler
  grind [State.key, okey, tkey, State.badgerDrop_key, State.setSlice_key, State.notice_key]

@[simp] theorem State.tryOrder_key (x0 : State) (x1 : Nat) (x2 : List Nat) :
    (State.tryOrder x0 x1 x2).key = x0.key := by
  induction x2 generalizing x0 with
  | nil => rfl
  | cons i r ih =>
    have h := State.present_key x0 (x1 * 4 + i)
    unfold State.tryOrder
    simp only []
    repeat' split
    all_goals simp_all

@[simp] theorem execBadgerBudgetExpire_key (x0 : Nat) (x1 : State) :
    okey (execBadgerBudgetExpire x0 x1) = some x1.key := by
  unfold execBadgerBudgetExpire
  grind [State.key, okey, tkey, State.abortHandler_key]

@[simp] theorem execBadgerAbort_key (x0 : Nat) (x1 : State) :
    okey (execBadgerAbort x0 x1) = some x1.key := by
  unfold execBadgerAbort
  grind [State.key, okey, tkey, State.abortHandler_key]

@[simp] theorem execBundleIssue_key (x0 : Nat) (x1 : State) :
    okey (execBundleIssue x0 x1) = some x1.key := by
  unfold execBundleIssue
  grind [State.key, okey, tkey, State.tryOrder_key]

@[simp] theorem execResultLand_key (x0 : Nat) (x1 : Nat) (x2 : State) :
    okey (execResultLand x0 x1 x2) = some x2.key := by
  unfold execResultLand
  grind [State.key, okey, tkey, State.land_key]

@[simp] theorem execBranchResolve_key (x0 : Nat) (x1 : State) :
    okey (execBranchResolve x0 x1) = some x1.key := by
  unfold execBranchResolve
  grind [State.key, okey, tkey, State.stop_key, State.settle_key, State.flushReports_key]

@[simp] theorem execArmStallTimeout_key (x0 : Nat) (x1 : State) :
    okey (execArmStallTimeout x0 x1) = some x1.key := by
  unfold execArmStallTimeout
  grind [State.key, okey, tkey, State.setCtx_key, State.block_key]

@[simp] theorem State.releaseItem_key (x0 : State) (x1 : CbEntry) (x2 : Instr) :
    (State.releaseItem x0 x1 x2).key = x0.key := by
  unfold State.releaseItem
  simp

@[simp] theorem State.releaseFrom_key (x0 : State) (x1 : Nat) (x2 : List CbEntry) :
    (State.releaseFrom x0 x1 x2).key = x0.key := by
  induction x2 generalizing x0 with
  | nil => rfl
  | cons i r ih =>
    unfold State.releaseFrom
    simp only []
    repeat' split
    all_goals simp_all

@[simp] theorem execCommitBufferRelease_key (x0 : Nat) (x1 : State) :
    okey (execCommitBufferRelease x0 x1) = some x1.key := by
  unfold execCommitBufferRelease
  simp

@[simp] theorem State.readied_key (x0 : State) (x1 : Nat) :
    (State.readied x0 x1).key = x0.key := by
  unfold State.readied
  grind [State.key, okey, tkey, State.setCtx_key]

@[simp] theorem execMwaitTimeout_key (x0 : Nat) (x1 : State) :
    okey (execMwaitTimeout x0 x1) = some x1.key := by
  unfold execMwaitTimeout
  grind [State.key, okey, tkey, State.readied_key, State.setCtx_key]

@[simp] theorem execMwaitSpuriousWake_key (x0 : Nat) (x1 : State) :
    okey (execMwaitSpuriousWake x0 x1) = some x1.key := by
  unfold execMwaitSpuriousWake
  grind [State.key, okey, tkey, State.readied_key, State.setCtx_key]

@[simp] theorem execFwaitBackoffExpire_key (x0 : Nat) (x1 : State) :
    okey (execFwaitBackoffExpire x0 x1) = some x1.key := by
  unfold execFwaitBackoffExpire
  grind [State.key, okey, tkey, State.readied_key]

@[simp] theorem execSliceLineFill_key (x0 : Nat) (x1 : Nat) (x2 : State) :
    okey (execSliceLineFill x0 x1 x2) = some x2.key := by
  unfold execSliceLineFill
  grind [State.key, okey, tkey, State.arrive_key]

@[simp] theorem execCntSample_key (x0 : Nat) (x1 : Nat) (x2 : State) :
    okey (execCntSample x0 x1 x2) = some x2.key := by
  unfold execCntSample
  grind [State.key, okey, tkey, State.owlAt_key, State.setCl_key]

@[simp] theorem execWriteTransaction_key (x0 : Nat) (x1 : Nat) (x2 : State) :
    okey (execWriteTransaction x0 x1 x2) = some x2.key := by
  unfold execWriteTransaction
  grind [State.key, okey, tkey, State.l1Evict_key]

@[simp] theorem execLdfPerform_key (x0 : Nat) (x1 : Nat) (x2 : State) :
    okey (execLdfPerform x0 x1 x2) = some x2.key := by
  unfold execLdfPerform
  grind [State.key, okey, tkey, State.performLdfs_key]

@[simp] theorem execFutureAnswer_key (x0 : Nat) (x1 : Nat) (x2 : State) :
    okey (execFutureAnswer x0 x1 x2) = some x2.key := by
  unfold execFutureAnswer
  grind [State.key, okey, tkey, State.setCtx_key, State.after_key]

@[simp] theorem execSampleBreakdown_key (x0 : Nat) (x1 : Nat) (x2 : BitVec 32) (x3 : List (BitVec 16)) (x4 : State) :
    okey (execSampleBreakdown x0 x1 x2 x3 x4) = some x4.key := by
  unfold execSampleBreakdown
  grind [State.key, okey, tkey, State.setCtx_key, State.setCl_key, State.writeTxn_key, State.owl_key]

@[simp] theorem execQntFlushFull_key (x0 : Nat) (x1 : Nat) (x2 : State) :
    okey (execQntFlushFull x0 x1 x2) = some x2.key := by
  unfold execQntFlushFull
  grind [State.key, okey, tkey, State.flushComb_key]

@[simp] theorem execQntFlushTimeout_key (x0 : Nat) (x1 : Nat) (x2 : State) :
    okey (execQntFlushTimeout x0 x1 x2) = some x2.key := by
  unfold execQntFlushTimeout
  grind [State.key, okey, tkey, State.flushComb_key]

@[simp] theorem execHbmRefresh_key (x0 : Nat) (x1 : Nat) (x2 : State) :
    okey (execHbmRefresh x0 x1 x2) = some x2.key := by
  unfold execHbmRefresh
  grind [State.key, okey, tkey]

@[simp] theorem execHbmForcedRefresh_key (x0 : Nat) (x1 : Nat) (x2 : Nat) (x3 : State) :
    okey (execHbmForcedRefresh x0 x1 x2 x3) = some x3.key := by
  unfold execHbmForcedRefresh
  grind [State.key, okey, tkey]

@[simp] theorem execEccUncorrectable_key (x0 : Nat) (x1 : Bool) (x2 : State) :
    okey (execEccUncorrectable x0 x1 x2) = some x2.key := by
  unfold execEccUncorrectable
  grind [State.key, okey, tkey, State.setSlice_key]

@[simp] theorem execTinv_key (x0 : Word) (x1 : State) :
    okey (execTinv x0 x1) = some x1.key := by
  unfold execTinv
  grind [State.key, okey, tkey, State.pfMsg_key]

@[simp] theorem execTinvComplete_key (x0 : State) :
    okey (execTinvComplete x0) = some x0.key := by
  unfold execTinvComplete
  grind [State.key, okey, tkey, State.pfMsg_key]

@[simp] theorem State.expandText_key (x0 : State) (x1 : Word) (x2 : Word) :
    (State.expandText x0 x1 x2).1.key = x0.key := by
  unfold State.expandText
  grind [State.key, okey, tkey, runUnits_key]

@[simp] theorem State.objBytes_key (x0 : State) (x1 : Nat) (x2 : Nat) :
    (State.objBytes x0 x1 x2).1.key = x0.key := by
  unfold State.objBytes
  grind [State.key, okey, tkey, State.homeMany_key]

@[simp] theorem State.readSects_key (x0 : State) (x1 : Nat) (x2 : Nat) (x3 : List (List Byte)) :
    (State.readSects x0 x1 x2 x3).1.key = x0.key := by
  fun_induction State.readSects x0 x1 x2 x3 <;> first
    | (simp_all [Prod.ext_iff]; done)
    | (simp_all; done)
    | grind [State.key, okey, tkey, State.objBytes_key]

@[simp] theorem State.loadSealed_key (x0 : State) (x1 : Nat) (x2 : List Byte) (x3 : Option (BitVec 256)) :
    (State.loadSealed x0 x1 x2 x3).1.key = x0.key := by
  unfold State.loadSealed
  grind [State.key, okey, tkey, State.readSects_key, State.objBytes_key]

@[simp] theorem State.setSlot_key (x0 : State) (x1 : KeySlot) :
    (State.setSlot x0 x1).key = x0.key := by
  unfold State.setSlot
  simp

theorem State.putTable_key (x0 : State) (x1 : List Window) (x2 : Byte) (x3 : Nat) (x7 : LoadErr) (x4 : Nat) (x5 : Nat)
    (x6 : List Byte) : ∀ t, (State.putTable x0 x1 x2 x3 x7 x4 x5 x6) = .ok t → t.key = x0.key := by
  induction x4 generalizing x0 x5 x6 with
  | zero =>
    intro t h
    unfold State.putTable at h
    split at h <;> simp_all
  | succ n ih =>
    intro t h
    unfold State.putTable at h
    simp only [] at h
    repeat' split at h
    all_goals grind [State.writeTxn_key]

@[simp] theorem State.textOf_key (x0 : State) (x1 : LaunchRec) :
    (State.textOf x0 x1).1.key = x0.key := by
  unfold State.textOf
  grind [State.key, okey, tkey, State.expandText_key, State.objBytes_key, State.loadSealed_key]

@[simp] theorem State.loadText_key (x0 : State) (x1 : LaunchRec) (x2 : List Window) (x3 : Nat) :
    (State.loadText x0 x1 x2 x3).1.key = x0.key := by
  unfold State.loadText
  grind [State.key, okey, tkey, State.setSlot_key, State.putTable_key, State.textOf_key]

@[simp] theorem State.noteHead_key (x0 : State) (x1 : Nat) :
    (State.noteHead x0 x1).key = x0.key := by
  unfold State.noteHead
  grind [State.key, okey, tkey]

@[simp] theorem State.setCmd_key (x0 : State) (x1 : Nat) (x2 : QCmd → Bool) (x3 : QCmd → QCmd) :
    (State.setCmd x0 x1 x2 x3).key = x0.key := by
  unfold State.setCmd
  simp

@[simp] theorem State.dropCmd_key (x0 : State) (x1 : Nat) (x2 : QCmd → Bool) :
    (State.dropCmd x0 x1 x2).key = x0.key := by
  unfold State.dropCmd
  simp

@[simp] theorem State.forget_key (x0 : State) (x1 : Nat) :
    (State.forget x0 x1).key = x0.key := by
  unfold State.forget
  simp

@[simp] theorem State.refuseLaunch_key (x0 : State) (x1 : Gang) (x2 : Nat) (x3 : Word) :
    (State.refuseLaunch x0 x1 x2 x3).key = x0.key := by
  unfold State.refuseLaunch
  simp

@[simp] theorem State.serve_key (x0 : State) (x1 : Nat) :
    (State.serve x0 x1).key = x0.key := by
  unfold State.serve
  simp

@[simp] theorem execLaunchReserving_key (x0 : Nat) (x1 : State) :
    okey (execLaunchReserving x0 x1) = some x1.key := by
  unfold execLaunchReserving
  grind [State.key, okey, tkey, State.setGang_key]

@[simp] theorem State.arrives_key (x0 : State) (x1 : Nat) :
    (State.arrives x0 x1).key = x0.key := by
  unfold State.arrives
  grind [State.key, okey, tkey]

@[simp] theorem State.startCrew_key (x0 : State) (x1 : Gang) (x2 : List Window) (x3 : Half) (x4 : Nat) (x5 : Nat) :
    (State.startCrew x0 x1 x2 x3 x4 x5).key = x0.key := by
  unfold State.startCrew
  (repeat' split) <;> simp [foldl_key]

@[simp] theorem State.startCrews_key (x0 : State) (x1 : Gang) (x2 : List Window) (x3 : Half) (x4 : Nat) (x5 : List Nat) :
    (State.startCrews x0 x1 x2 x3 x4 x5).key = x0.key := by
  fun_induction State.startCrews x0 x1 x2 x3 x4 x5 <;> first
    | (simp_all; done)
    | (simp_all [State.startCrew_key]; done)
    | grind [State.key, okey, tkey, State.startCrew_key]

@[simp] theorem State.poolBlock_key (x0 : State) (x1 : Gang) (x2 : List Window) (x3 : Bool) (x4 : Word) :
    (State.poolBlock x0 x1 x2 x3 x4).1.key = x0.key := by
  unfold State.poolBlock
  grind [State.key, okey, tkey, State.homeMany_key, State.readControl_key]

@[simp] theorem State.poolTasks_key (x0 : State) (x1 : Gang) (x2 : List Window) (x3 : Word) (x4 : Nat) (x5 : Nat) :
    (State.poolTasks x0 x1 x2 x3 x4 x5).1.key = x0.key := by
  induction x5 generalizing x0 x4 with
  | zero => rfl
  | succ n ih =>
    unfold State.poolTasks
    repeat' split
    all_goals grind [State.poolBlock_key]

@[simp] theorem State.startPool_key (x0 : State) (x1 : Gang) (x2 : List Window) :
    (State.startPool x0 x1 x2).1.key = x0.key := by
  unfold State.startPool
  grind [State.key, okey, tkey, State.poolBlock_key, State.poolTasks_key]

@[simp] theorem State.readWintab_key (x0 : State) (x1 : Gang) :
    (State.readWintab x0 x1).1.key = x0.key := by
  unfold State.readWintab
  simp

@[simp] theorem State.zeroHalf_key (x0 : State) (x1 : Gang) (x2 : List Nat) :
    (State.zeroHalf x0 x1 x2).key = x0.key := by
  unfold State.zeroHalf
  (repeat' split) <;> simp [foldl_key]

@[simp] theorem State.refuseLoad_key (x0 : State) (x1 : Gang) (x2 : List Nat) (x3 : LoadErr) :
    (State.refuseLoad x0 x1 x2 x3).key = x0.key := by
  unfold State.refuseLoad
  grind [State.key, okey, tkey, State.refuseLaunch_key, State.zeroHalf_key]

@[simp] theorem State.startOn_key (x0 : State) (x1 : Gang) (x2 : List Nat) (x3 : List Byte) (x4 : Half) (x5 : Option
  Pool) :
    (State.startOn x0 x1 x2 x3 x4 x5).key = x0.key := by
  unfold State.startOn
  grind [State.key, okey, tkey, State.setCmd_key, State.noteHead_key, State.journal_key, State.installImage_key,
    State.setGang_key, State.startCrews_key]

@[simp] theorem State.placeFirst_key (x0 : State) (x1 : Gang) (x2 : List Nat) :
    (State.placeFirst x0 x1 x2).key = x0.key := by
  unfold State.placeFirst
  grind [State.key, okey, tkey, State.block_key, State.textOf_key, State.loadText_key, State.refuseLaunch_key,
    State.startPool_key, State.readWintab_key, State.refuseLoad_key, State.startOn_key]

@[simp] theorem State.placeAgain_key (x0 : State) (x1 : Gang) (x2 : List Nat) (x3 : GangStart) :
    (State.placeAgain x0 x1 x2 x3).key = x0.key := by
  unfold State.placeAgain
  grind [State.key, okey, tkey, State.block_key, State.loadText_key, State.startPool_key, State.readWintab_key,
    State.startOn_key]

@[simp] theorem State.placeOn_key (x0 : State) (x1 : Gang) (x2 : List Nat) :
    (State.placeOn x0 x1 x2).key = x0.key := by
  unfold State.placeOn
  grind [State.key, okey, tkey, State.placeAgain_key, State.placeFirst_key]

@[simp] theorem State.grant_key (x0 : State) (x1 : Gang) :
    (State.grant x0 x1).key = x0.key := by
  unfold State.grant
  simp

@[simp] theorem execGangPlace_key (x0 : Nat) (x1 : State) :
    okey (execGangPlace x0 x1) = some x1.key := by
  unfold execGangPlace
  grind [State.key, okey, tkey, State.placeOn_key, State.grant_key]

@[simp] theorem State.leaveImage_key (x0 : State) (x1 : Gang) :
    (State.leaveImage x0 x1).key = x0.key := by
  unfold State.leaveImage
  grind [State.key, okey, tkey, State.removeImage_key]

@[simp] theorem State.freeCrew_key (x0 : State) (x1 : Bool) (x2 : Nat) :
    (State.freeCrew x0 x1 x2).key = x0.key := by
  unfold State.freeCrew
  (repeat' split) <;> simp [foldl_key]

@[simp] theorem execGangRetire_key (x0 : Nat) (x1 : State) :
    okey (execGangRetire x0 x1) = some x1.key := by
  unfold execGangRetire
  (repeat' split) <;> simp [foldl_key]

@[simp] theorem State.cancelCopy_key (x0 : State) (x1 : Cmd) :
    (State.cancelCopy x0 x1).key = x0.key := by
  unfold State.cancelCopy
  simp

@[simp] theorem State.loseLines_key (x0 : State) (x1 : Nat) :
    (State.loseLines x0 x1).key = x0.key := by
  unfold State.loseLines
  simp only []
  (repeat' split) <;> first
    | (simp_all [foldl_key, apply_ite State.key]; done)
    | (simp_all [Prod.ext_iff, foldl_key]; (repeat' split) <;> simp; done)

@[simp] theorem State.cancelAll_key (x0 : State) (x1 : Gang) :
    (State.cancelAll x0 x1).key = x0.key := by
  unfold State.cancelAll
  (repeat' split) <;> simp [foldl_key]

@[simp] theorem State.clearOut_key (x0 : State) (x1 : Gang) :
    (State.clearOut x0 x1).key = x0.key := by
  unfold State.clearOut
  (repeat' split) <;> simp [foldl_key]

@[simp] theorem State.endRequest_key (x0 : State) (x1 : Gang) :
    (State.endRequest x0 x1).key = x0.key := by
  unfold State.endRequest
  grind [State.key, okey, tkey, State.pfMsg_key]

@[simp] theorem State.failEntry_key (x0 : State) (x1 : Gang) (x2 : Nat) (x3 : Word) :
    (State.failEntry x0 x1 x2 x3).key = x0.key := by
  unfold State.failEntry
  grind [State.key, okey, tkey, State.journal_key]

@[simp] theorem State.failGang_key (x0 : State) (x1 : Nat) (x2 : Nat) (x3 : Word) :
    (State.failGang x0 x1 x2 x3).key = x0.key := by
  unfold State.failGang
  grind [State.key, okey, tkey, State.setCmd_key, State.noteHead_key, State.dropCmd_key, State.failEntry_key,
    State.forget_key, State.clearOut_key, State.setGang_key, State.endRequest_key]

@[simp] theorem State.dump_key (x0 : State) (x1 : Gang) (x2 : Nat) :
    (State.dump x0 x1 x2).key = x0.key := by
  unfold State.dump
  grind [State.key, okey, tkey, State.sectorWrites_key, State.notice_key]

@[simp] theorem State.endCtx_key (x0 : State) (x1 : Nat) :
    (State.endCtx x0 x1).key = x0.key := by
  unfold State.endCtx
  simp

@[simp] theorem execFatalStop_key (x0 : Nat) (x1 : State) :
    okey (execFatalStop x0 x1) = some x1.key := by
  unfold execFatalStop
  grind [State.key, okey, tkey, State.fatal_key, State.drained_key, State.failGang_key, State.dump_key, State.endCtx_key]

@[simp] theorem State.fenceCluster_key (x0 : State) (x1 : Nat) :
    (State.fenceCluster x0 x1).key = x0.key := by
  unfold State.fenceCluster
  simp

@[simp] theorem execUncorrectableHardwareError_key (x0 : Nat) (x1 : State) :
    okey (execUncorrectableHardwareError x0 x1) = some x1.key := by
  unfold execUncorrectableHardwareError
  simp only []
  repeat' split
  all_goals rw [okey_next]
  · simp
  · simp
  · rw [State.setCore_key, State.loseLines_key, foldl_key] <;> simp

@[simp] theorem State.setLink_key (x0 : State) (x1 : Nat) (x2 : Link) :
    (State.setLink x0 x1 x2).key = x0.key := by
  unfold State.setLink
  simp

@[simp] theorem execQtailDoorbell_key (x0 : Nat) (x1 : Word) (x2 : State) :
    okey (execQtailDoorbell x0 x1 x2) = some x2.key := by
  unfold execQtailDoorbell
  grind [State.key, okey, tkey, State.setQueue_key]

@[simp] theorem State.ringRead_key (x0 : State) (x1 : Nat) (x2 : Word) (x3 : Nat) (x4 : Nat) :
    (State.ringRead x0 x1 x2 x3 x4).1.key = x0.key := by
  unfold State.ringRead
  grind [State.key, okey, tkey, State.homeMany_key, State.send_key]

@[simp] theorem State.reroute_key (x0 : State) :
    (State.reroute x0).key = x0.key := by
  unfold State.reroute
  simp

@[simp] theorem State.failCmd_key (x0 : State) (x1 : Nat) (x2 : QCmd) :
    (State.failCmd x0 x1 x2).key = x0.key := by
  unfold State.failCmd
  simp

@[simp] theorem State.newGang_key (x0 : State) (x1 : Nat) (x2 : List Byte) :
    (State.newGang x0 x1 x2).1.key = x0.key := by
  unfold State.newGang
  simp

@[simp] theorem State.sendFlit_key (x0 : State) (x1 : Nat) (x2 : List Byte) (x3 : List Byte) :
    (State.sendFlit x0 x1 x2 x3).key = x0.key := by
  unfold State.sendFlit
  grind [State.key, okey, tkey, State.send_key, State.setLink_key]

@[simp] theorem State.accept2_key (x0 : State) (x1 : Nat) (x2 : List Byte) :
    (State.accept2 x0 x1 x2).key = x0.key := by
  unfold State.accept2
  grind [State.key, okey, tkey, State.setQueue_key, State.journal_key, State.noteHead_key, State.newGang_key,
    State.failCmd_key]

@[simp] theorem State.sendNak_key (x0 : State) (x1 : Nat) :
    (State.sendNak x0 x1).key = x0.key := by
  unfold State.sendNak
  grind [State.key, okey, tkey, State.send_key, State.setLink_key]

@[simp] theorem execQueueEntryRead_key (x0 : Nat) (x1 : State) :
    okey (execQueueEntryRead x0 x1) = some x1.key := by
  unfold execQueueEntryRead
  grind [State.key, okey, tkey, State.setQueue_key, State.accept2_key, State.ringRead_key]

@[simp] theorem State.sendHeld_key (x0 : State) (x1 : Nat) (x2 : Nat) :
    (State.sendHeld x0 x1 x2).key = x0.key := by
  induction x2 generalizing x0 with
  | zero => rfl
  | succ n ih =>
    unfold State.sendHeld
    repeat' split
    · rfl
    · rfl
    · simp [ih]

@[simp] theorem State.sendWaiting_key (x0 : State) (x1 : Nat) :
    (State.sendWaiting x0 x1).key = x0.key := by
  unfold State.sendWaiting
  grind [State.key, okey, tkey, State.sendHeld_key, State.sendNak_key]

@[simp] theorem State.resend_key (x0 : State) (x1 : Nat) :
    (State.resend x0 x1).key = x0.key := by
  unfold State.resend
  simp only []
  (repeat' split) <;> simp [foldl_key]

@[simp] theorem State.activate_key (x0 : State) (x1 : Byte) (x2 : Nat) (x3 : Option (BitVec 256)) :
    (State.activate x0 x1 x2 x3).key = x0.key := by
  unfold State.activate
  simp

@[simp] theorem State.loseMember_key (x0 : State) (x1 : Nat) :
    (State.loseMember x0 x1).key = x0.key := by
  unfold State.loseMember
  (repeat' split) <;> simp [foldl_key]

@[simp] theorem State.readImage_key (x0 : State) (x1 : Gang) :
    (State.readImage x0 x1).1.key = x0.key := by
  unfold State.readImage
  grind [State.key, okey, tkey, State.objBytes_key]

@[simp] theorem State.linkDown_key (x0 : State) (x1 : Nat) :
    (State.linkDown x0 x1).key = x0.key := by
  unfold State.linkDown
  simp only []
  rw [foldl_key, foldl_key]
  · simp
  · intro t x
    repeat' split
    all_goals simp
  · simp

@[simp] theorem State.testLaunch_key (x0 : State) (x1 : Gang) :
    (State.testLaunch x0 x1).1.key = x0.key := by
  unfold State.testLaunch
  grind [State.key, okey, tkey, State.readWintab_key, State.readImage_key, State.textOf_key]

@[simp] theorem State.acked_key (x0 : State) (x1 : Nat) (x2 : Nat) :
    (State.acked x0 x1 x2).key = x0.key := by
  unfold State.acked
  grind [State.key, okey, tkey, State.resend_key, State.setLink_key, State.sendWaiting_key]

@[simp] theorem execLaunch_key (x0 : Nat) (x1 : State) :
    okey (execLaunch x0 x1) = some x1.key := by
  unfold execLaunch
  grind [State.key, okey, tkey, State.noteHead_key, State.refuseLoad_key, State.activate_key, State.setGang_key,
    State.refuseLaunch_key, State.testLaunch_key]

@[simp] theorem State.homeRequest_key (x0 : State) (x1 : Config.RemoteReq) : (State.homeRequest x0 x1).1.key = x0.key := by
  unfold State.homeRequest
  (repeat' split) <;> first
    | rfl
    | grind [State.key, State.homeMany_key, State.sectorWrites_key, State.homeRead_key, State.writeTxn_key]

@[simp] theorem State.answerRequest_key (x0 : State) (x1 : List Byte) (x2 : List Byte) :
    (State.answerRequest x0 x1 x2).key = x0.key := by
  unfold State.answerRequest
  simp only []
  (repeat' split) <;> simp

@[simp] theorem State.deliver_key (x0 : State) (x1 : Nat) (x2 : List Byte) (x3 : List Byte) :
    (State.deliver x0 x1 x2 x3).key = x0.key := by
  unfold State.deliver
  grind [State.key, okey, tkey, State.setLink_key, State.sendFlit_key, State.answerRequest_key]

@[simp] theorem execFlitReceive_key (x0 : Nat) (x1 : List Byte) (x2 : State) :
    okey (execFlitReceive x0 x1 x2) = some x2.key := by
  unfold execFlitReceive
  grind [State.key, okey, tkey, State.setLink_key, State.sendNak_key, State.linkDown_key, State.acked_key,
    State.deliver_key]

@[simp] theorem State.startOf_key (x0 : State) (x1 : Nat) (x2 : QCmd) :
    (State.startOf x0 x1 x2).key = x0.key := by
  unfold State.startOf
  simp

@[simp] theorem execLinkRetrain_key (x0 : Nat) (x1 : State) :
    okey (execLinkRetrain x0 x1) = some x1.key := by
  unfold execLinkRetrain
  grind [State.key, okey, tkey, State.setLink_key]

@[simp] theorem State.retireCmd_key (x0 : State) (x1 : Nat) (x2 : QCmd) (x3 : Word) :
    (State.retireCmd x0 x1 x2 x3).key = x0.key := by
  unfold State.retireCmd
  simp

@[simp] theorem execLinkRetrainDone_key (x0 : Nat) (x1 : Bool) (x2 : State) :
    okey (execLinkRetrainDone x0 x1 x2) = some x2.key := by
  unfold execLinkRetrainDone
  grind [State.key, okey, tkey, State.linkDown_key, State.resend_key, State.setLink_key, State.sendWaiting_key]

@[simp] theorem execWait_key (x0 : Nat) (x1 : State) :
    okey (execWait x0 x1) = some x1.key := by
  unfold execWait
  grind [State.key, okey, tkey, State.startOf_key]

@[simp] theorem execWaitRetire_key (x0 : Nat) (x1 : State) :
    okey (execWaitRetire x0 x1) = some x1.key := by
  unfold execWaitRetire
  grind [State.key, okey, tkey, State.failCmd_key, State.homeMany_key, State.retireCmd_key]

@[simp] theorem State.signal_key (x0 : State) (x1 : Nat) (x2 : QCmd) :
    (State.signal x0 x1 x2).key = x0.key := by
  unfold State.signal
  grind [State.key, okey, tkey, State.writeTxn_key, State.failCmd_key, State.retireCmd_key]

@[simp] theorem execSignal_key (x0 : Nat) (x1 : State) :
    okey (execSignal x0 x1) = some x1.key := by
  unfold execSignal
  grind [State.key, okey, tkey, State.startOf_key, State.signal_key]

@[simp] theorem execCopy_key (x0 : Nat) (x1 : State) :
    okey (execCopy x0 x1) = some x1.key := by
  unfold execCopy
  grind [State.key, okey, tkey, State.startOf_key]

@[simp] theorem State.copyFrom_key (x0 : State) (x1 : Nat) (x2 : Word) (x3 : Word) (x4 : Nat) (x5 : Nat → Bool) (x6 :
  Nat) (x7 : Nat) :
    (State.copyFrom x0 x1 x2 x3 x4 x5 x6 x7).1.key = x0.key := by
  induction x6 generalizing x0 x7 with
  | zero => rfl
  | succ n ih =>
    unfold State.copyFrom
    simp only []
    repeat' split
    all_goals grind [State.ringRead_key, State.ringWrite_key]

@[simp] theorem execCopyCommandComplete_key (x0 : Nat) (x1 : State) :
    okey (execCopyCommandComplete x0 x1) = some x1.key := by
  unfold execCopyCommandComplete
  grind [State.key, okey, tkey, State.failCmd_key, State.retireCmd_key, State.copyFrom_key]

@[simp] theorem execMark_key (x0 : Nat) (x1 : State) :
    okey (execMark x0 x1) = some x1.key := by
  unfold execMark
  grind [State.key, okey, tkey, State.retireCmd_key, State.startOf_key]

@[simp] theorem State.mail_key (x0 : State) (x1 : MailStat) (x2 : List Byte) :
    (State.mail x0 x1 x2).key = x0.key := by
  unfold State.mail
  simp

@[simp] theorem State.setRequest_key (x0 : State) (x1 : Nat) (x2 : Nat) :
    (State.setRequest x0 x1 x2).key = x0.key := by
  unfold State.setRequest
  grind [State.key, okey, tkey, State.pfMsg_key]

@[simp] theorem State.refuseRequest_key (x0 : State) (x1 : Nat) :
    (State.refuseRequest x0 x1).key = x0.key := by
  unfold State.refuseRequest
  simp

@[simp] theorem State.drainTable_key (x0 : State) (x1 : Nat) (x2 : Nat) :
    (State.drainTable x0 x1 x2).1.key = x0.key := by
  unfold State.drainTable
  grind [State.key, okey, tkey, State.objBytes_key]

@[simp] theorem State.takeKey_key (x0 : State) (x1 : Byte) (x2 : Nat) (x3 : BitVec 256) :
    (State.takeKey x0 x1 x2 x3).key = x0.key := by
  unfold State.takeKey
  grind [State.key, okey, tkey, State.mail_key, State.setSlot_key, State.activate_key]

@[simp] theorem execPreempt_key (x0 : Word) (x1 : State) :
    okey (execPreempt x0 x1) = some x1.key := by
  unfold execPreempt
  grind [State.key, okey, tkey, State.setGang_key, State.drainTable_key, State.objBytes_key, State.setRequest_key,
    State.refuseRequest_key]

@[simp] theorem execKeyDelivery_key (x0 : List Byte) (x1 : State) :
    okey (execKeyDelivery x0 x1) = some x1.key := by
  unfold execKeyDelivery
  grind [State.key, okey, tkey, State.mail_key, State.takeKey_key]

@[simp] theorem State.discardLine_key (x0 : State) (x1 : Nat) (x2 : Nat) :
    (State.discardLine x0 x1 x2).key = x0.key := by
  unfold State.discardLine
  grind [State.key, okey, tkey, State.wake_key, State.raiseHint_key, State.setSlice_key]

@[simp] theorem execWorldRelease_key (x0 : Byte) (x1 : State) :
    okey (execWorldRelease x0 x1) = some x1.key := by
  unfold execWorldRelease
  (repeat' split) <;> simp [foldl_key]

@[simp] theorem State.divert_key (x0 : State) (x1 : Nat) (x2 : Word) (x3 : Word) :
    (State.divert x0 x1 x2 x3).key = x0.key := by
  unfold State.divert
  grind [State.key, okey, tkey, State.setCtx_key, State.dropTentative_key, State.flushReports_key]

@[simp] theorem State.fallBack_key (x0 : State) (x1 : Nat) (x2 : Word) :
    (State.fallBack x0 x1 x2).key = x0.key := by
  unfold State.fallBack
  grind [State.key, okey, tkey, State.setCtx_key, State.setGang_key, State.fatal_key, State.stop_key, State.vacate_key,
    State.drained_key, State.flushReports_key]

@[simp] theorem execContextDrain_key (x0 : Nat) (x1 : State) :
    okey (execContextDrain x0 x1) = some x1.key := by
  unfold execContextDrain
  grind [State.key, okey, tkey, State.endWait_key, State.divert_key, State.fallBack_key]

@[simp] theorem State.saveCrew_key (x0 : State) (x1 : Gang) (x2 : Nat) (x3 : Nat) :
    (State.saveCrew x0 x1 x2 x3).key = x0.key := by
  unfold State.saveCrew
  grind [State.key, okey, tkey, State.setGang_key, State.sectorWrites_key, State.block_key, State.freeCrew_key]

@[simp] theorem State.allSaved_key (x0 : State) (x1 : Gang) :
    (State.allSaved x0 x1).key = x0.key := by
  unfold State.allSaved
  grind [State.key, okey, tkey, State.setGang_key, State.block_key, State.noteHead_key, State.setCmd_key,
    State.leaveImage_key, State.setRequest_key]

@[simp] theorem execCrewSave_key (x0 : Nat) (x1 : Nat) (x2 : State) :
    okey (execCrewSave x0 x1 x2) = some x2.key := by
  unfold execCrewSave
  simp only []
  (repeat' split) <;> first
    | (simp [foldl_key, State.flushCombs_key, State.allSaved_key, State.l1FlushAll_key, State.failSeq_key,
      State.failGang_key, State.saveCrew_key]; done)
    | (rw [foldl_key] <;> simp; done)
    | (rw [foldl_key1] <;> simp; done)
    | grind [State.key, okey, tkey, State.flushCombs_key, State.allSaved_key, State.l1FlushAll_key, State.failSeq_key,
      State.failGang_key, State.saveCrew_key]

@[simp] theorem execSidebandMessage_key (x0 : List Byte) (x1 : State) :
    okey (execSidebandMessage x0 x1) = some x1.key := by
  unfold execSidebandMessage
  grind [State.key, okey, tkey, State.send_key]

@[simp] theorem State.restoreCrew_key (x0 : State) (x1 : Gang) (x2 : List (Nat × Nat)) (x3 : Nat) (x4 : Nat) (x5 :
  SavedCrew) :
    (State.restoreCrew x0 x1 x2 x3 x4 x5).key = x0.key := by
  unfold State.restoreCrew
  (repeat' split) <;> simp [foldl_key]

@[simp] theorem execGangRestore_key (x0 : Nat) (x1 : State) :
    okey (execGangRestore x0 x1) = some x1.key := by
  unfold execGangRestore
  simp only []
  (repeat' split) <;> first
    | (simp [foldl_key, State.restoreCrew_key, State.setCmd_key, State.noteHead_key, State.journal_key, State.grant_key,
      State.installImage_key, State.setGang_key]; done)
    | (rw [foldl_key] <;> simp; done)
    | (rw [foldl_key1] <;> simp; done)
    | grind [State.key, okey, tkey, State.restoreCrew_key, State.setCmd_key, State.noteHead_key, State.journal_key,
      State.grant_key, State.installImage_key, State.setGang_key]

@[simp] theorem State.unsupported_key (x0 : State) (x1 : Option Nat) (x2 : Nat) (x3 : Nat) :
    (State.unsupported x0 x1 x2 x3).key = x0.key := by
  unfold State.unsupported
  simp

@[simp] theorem State.capWrite_key (x0 : State) (x1 : Option Nat) (x2 : Nat) (x3 : Word) :
    (State.capWrite x0 x1 x2 x3).key = x0.key := by
  unfold State.capWrite
  simp

@[simp] theorem State.dbgWrite_key (x0 : State) (x1 : Nat) (x2 : Nat) (x3 : Word) :
    (State.dbgWrite x0 x1 x2 x3).key = x0.key := by
  unfold State.dbgWrite
  grind [State.key, okey, tkey, State.owlLost_key, State.setCl_key]

@[simp] theorem State.fenceWrite_key (x0 : State) (x1 : Word) :
    (State.fenceWrite x0 x1).key = x0.key := by
  unfold State.fenceWrite
  simp

@[simp] theorem execCfenceWrite_key (x0 : Word) (x1 : State) :
    okey (execCfenceWrite x0 x1) = some x1.key := by
  unfold execCfenceWrite
  grind [State.key, okey, tkey, State.fenceWrite_key]

@[simp] theorem State.cancelQueueCopy_key (x0 : State) (x1 : Nat) :
    (State.cancelQueueCopy x0 x1).key = x0.key := by
  unfold State.cancelQueueCopy
  grind [State.key, okey, tkey, State.copyFrom_key]

@[simp] theorem State.failGangsOf_key (x0 : State) (x1 : List Nat) :
    (State.failGangsOf x0 x1).key = x0.key := by
  unfold State.failGangsOf
  (repeat' split) <;> simp [foldl_key]

@[simp] theorem execFunctionLevelReset_key (x0 : Nat) (x1 : State) :
    okey (execFunctionLevelReset x0 x1) = some x1.key := by
  unfold execFunctionLevelReset
  (repeat' split) <;> simp [foldl_key]

@[simp] theorem execSlotTableTurn_key (x0 : State) :
    okey (execSlotTableTurn x0) = some x0.key := by
  unfold execSlotTableTurn
  grind [State.key, okey, tkey]

@[simp] theorem State.statusMsg_key (x0 : State) (x1 : State) :
    (State.statusMsg x0 x1).key = x0.key := by
  unfold State.statusMsg
  grind [State.key, okey, tkey, State.pfMsg_key]

@[simp] theorem State.nextEvent_key (x0 : State) :
    (State.nextEvent x0).2.key = x0.key := by
  unfold State.nextEvent
  grind [State.key, okey, tkey]

@[simp] theorem State.tick_key (x0 : State) :
    (State.tick x0).key = x0.key := by
  unfold State.tick
  simp

end Sys2Proof.Machine
end

