-- ==== Sys2Proof/Laws/Legal.lean ====
section
/-! SUPPORT. The events that change the management fields of `Key` keep `Legal`, and the one-time indices only go up. -/

namespace Sys2Proof.Machine
open Sys2Proof

/-- `Legal`, of the management fields alone. -/
structure Key.Ok (k : Key) : Prop where
  ready : k.ready = true → k.stage = 7 ∧ k.fail = false
  stage : k.stage ≤ 8
  clock : 800 ≤ k.clkMHz ∧ k.clkMHz ≤ 1600 ∧ k.clkMHz % 100 = 0
  throt : k.throt = decide (k.clkMHz < 1600)
  ageb : 2 ^ 16 ≤ k.ageb ∧ k.ageb ≤ 2 ^ 30
  pcap : 400 ≤ k.pcap ∧ k.pcap ≤ 1800
  xmss : k.xmss ≤ 2 ^ 20

theorem legal_iff (s : State) : Legal s ↔ s.key.Ok :=
  ⟨fun ⟨a, b, c, d, e, f, g⟩ => ⟨a, b, c, d, e, f, g⟩, fun ⟨a, b, c, d, e, f, g⟩ => ⟨a, b, c, d, e, f, g⟩⟩

/-- An outcome keeps the legal fields, and the one-time indices only go up. -/
def Keeps (o : Outcome) (s : State) : Prop :=
  ∃ t, o = .next t ∧ (s.key.Ok → t.key.Ok) ∧ s.trust.xmss ≤ t.trust.xmss

theorem keeps_of_okey {o : Outcome} {s : State} (h : okey o = some s.key) : Keeps o s := by
  cases o with
  | next t =>
    have h' : t.key = s.key := by simpa using h
    exact ⟨t, rfl, fun k => h' ▸ k, Nat.le_of_eq (congrArg Key.xmss h').symm⟩
  | fault f => cases h
  | refused r => cases h

/-- Nothing but the one-time index has changed, and it by at most one, below its bound. -/
def Signs (s t : State) : Prop :=
  t.key = s.key ∨ (s.trust.xmss < 2 ^ 20 ∧ t.key = { s.key with xmss := s.trust.xmss + 1 })

theorem Signs.ok {s t : State} (h : Signs s t) (k : s.key.Ok) : t.key.Ok := by
  obtain h | ⟨h1, h⟩ := h
  · exact h ▸ k
  · obtain ⟨a, b, c, d, e, f, g⟩ := k
    rw [h]
    exact ⟨a, b, c, d, e, f, h1⟩

theorem Signs.le {s t : State} (h : Signs s t) : s.trust.xmss ≤ t.trust.xmss := by
  obtain h | ⟨_, h⟩ := h
  · exact Nat.le_of_eq (congrArg Key.xmss h).symm
  · have := congrArg Key.xmss h
    simp only [State.key] at this
    omega

theorem Signs.keeps {s t : State} (h : Signs s t) : Keeps (.next t) s := ⟨t, rfl, h.ok, h.le⟩

theorem Signs.cong {s t u : State} (h : Signs s t) (e : u.key = t.key) : Signs s u := by
  unfold Signs at *
  rw [e]
  exact h

/-- As `Keeps`, of a state. -/
def KeepsTo (s t : State) : Prop := (s.key.Ok → t.key.Ok) ∧ s.trust.xmss ≤ t.trust.xmss

theorem KeepsTo.trans {s t u : State} (h : KeepsTo s t) (k : KeepsTo t u) : KeepsTo s u :=
  ⟨fun o => k.1 (h.1 o), Nat.le_trans h.2 k.2⟩

theorem KeepsTo.of_key {s t : State} (h : t.key = s.key) : KeepsTo s t :=
  ⟨fun k => h ▸ k, Nat.le_of_eq (congrArg Key.xmss h).symm⟩

theorem KeepsTo.keeps {s t : State} (h : KeepsTo s t) : Keeps (.next t) s := ⟨t, rfl, h.1, h.2⟩

theorem KeepsTo.pfMsg {s t : State} (h : KeepsTo s t) (n : Nat) : KeepsTo s (t.pfMsg n) :=
  h.trans (.of_key (State.pfMsg_key t n))

theorem KeepsTo.status {s t : State} (h : KeepsTo s t) (u : State) : KeepsTo s (t.statusMsg u) :=
  h.trans (.of_key (State.statusMsg_key t u))

theorem signs_keepsTo {s t : State} (h : Signs s t) : KeepsTo s t := ⟨h.ok, h.le⟩

theorem sign_signs (s : State) (d : BitVec 256) : Signs s (s.sign d).1 := by
  unfold State.sign
  split
  · exact .inl rfl
  · exact .inr ⟨by omega, rfl⟩

theorem execKeyNonceRequest_keeps (n : BitVec 256) (s : State) : Keeps (execKeyNonceRequest n s) s := by
  unfold execKeyNonceRequest
  split
  · exact Signs.keeps (.inl rfl : Signs s s)
  · simp only []
    have h := sign_signs s (shake32 (leBytes 1568 (Config.mlkemKey s.rnd).toNat ++ keyBytes n ++ keyBytes devid))
    generalize s.sign _ = r at h
    obtain ⟨t, o⟩ := r
    cases o with
    | none => exact (h.cong (by simp)).keeps
    | some g => exact (h.cong (by simp)).keeps

theorem sign_signs_of (s u : State) (d : BitVec 256) (h : u.key = s.key) : Signs s (u.sign d).1 := by
  have k := sign_signs u d
  have e : u.trust.xmss = s.trust.xmss := congrArg Key.xmss h
  unfold Signs at *
  rwa [h, e] at k

theorem endGather_signs (s : State) (x : Gather) : Signs s (s.endGather x) := by
  unfold State.endGather
  simp only []
  split
  · rename_i h
    exact (h ▸ sign_signs_of s _ _ (by rfl) : Signs s (_, (none : Option (List Byte))).1).cong (by simp)
  · rename_i h
    exact (h ▸ sign_signs_of s _ _ (by rfl) : Signs s (_, some _).1).cong (by simp)

theorem setGather_signs (s : State) (x : Gather) : Signs s (s.setGather x) := by
  unfold State.setGather
  split
  · exact endGather_signs s x
  · exact .inl rfl

theorem execEvidenceRequest_keeps (w : Byte) (n : BitVec 256) (a : List (Nat × List Byte)) (s : State) :
    Keeps (execEvidenceRequest w n a s) s := by
  unfold execEvidenceRequest
  split
  · exact Signs.keeps (.inl rfl : Signs s s)
  · split
    · exact (KeepsTo.of_key (by simp)).keeps
    · exact (setGather_signs _ _).keeps

theorem execEvidenceTimeout_keeps (m : Nat) (s : State) : Keeps (execEvidenceTimeout m s) s := by
  unfold execEvidenceTimeout
  split
  · exact Signs.keeps (.inl rfl : Signs s s)
  · split
    · exact Signs.keeps (.inl rfl : Signs s s)
    · exact (setGather_signs _ _).keeps

theorem formLink_keeps (s : State) (l : Nat) (p : Option (BitVec 256 × BitVec 256)) : KeepsTo s (s.formLink l p) := by
  unfold State.formLink
  simp only []
  repeat' split
  · exact .of_key rfl
  · exact .of_key (by simp)
  · rename_i h
    have hx : s.trust.xmss < 2 ^ 20 := by
      simp at h
      omega
    refine signs_keepsTo (.inr ⟨hx, ?_⟩)
    generalize hu : State.resend _ l = u
    have e : u.key = s.key := by rw [← hu]; simp
    have x : s.trust.xmss = u.trust.xmss := (congrArg Key.xmss e).symm
    rw [x, ← e]
    rfl
  · exact .of_key (by simp)

theorem formLinks_keeps (s : State) (l : Nat) (ps : List (Option (BitVec 256 × BitVec 256))) :
    KeepsTo s (s.formLinks l ps) := by
  induction ps generalizing s l with
  | nil => exact .of_key rfl
  | cons p r ih => exact (formLink_keeps s l p).trans (ih _ _)

theorem execForm_keeps (ps : List (Option (BitVec 256 × BitVec 256))) (s : State) : Keeps (execForm ps s) s := by
  unfold execForm
  split
  · exact (KeepsTo.of_key rfl).keeps
  · simp only []
    have h : ∀ (u : State) l ps, u.key = s.key → KeepsTo s (u.formLinks l ps).reroute := fun u l ps e =>
      (KeepsTo.of_key e).trans ((formLinks_keeps u l ps).trans (.of_key (by simp)))
    refine KeepsTo.keeps ?_
    split
    · exact h _ _ _ (by rfl)
    · exact (h _ _ _ (by rfl)).pfMsg 0

/-- The reset values of the fields are legal, before READY as after it. -/
theorem initOk (k x : Nat) (r : Bool) (hk : k ≤ 8) (hr : r = true → k = 7) (hx : x ≤ 2 ^ 20) :
    (Key.mk k r false Mgmt.init.throt Mgmt.init.pcap Mgmt.init.clkMHz Mgmt.init.ageb x).Ok :=
  ⟨fun h => ⟨hr h, rfl⟩, hk, (by decide : 800 ≤ Mgmt.init.clkMHz ∧ Mgmt.init.clkMHz ≤ 1600 ∧ Mgmt.init.clkMHz % 100 = 0), 
    (by decide : Mgmt.init.throt = decide (Mgmt.init.clkMHz < 1600)), (by decide : 2 ^ 16 ≤ Mgmt.init.ageb ∧ Mgmt.init.ageb ≤ 2 ^ 30), 
    (by decide : 400 ≤ Mgmt.init.pcap ∧ Mgmt.init.pcap ≤ 1800), hx⟩

theorem cold_keeps (s : State) (k : Nat) (hk : k ≤ 8) : KeepsTo s (s.cold k) :=
  ⟨fun h => initOk k _ false hk (by intro h; cases h) h.xmss, Nat.le_refl _⟩

/-- Before READY a stage may be any up to 8. -/
theorem Key.Ok.staged {k : Key} (h : k.Ok) (hr : k.ready = false) (n : Nat) (hn : n ≤ 8) : ({ k with stage := n } : Key).Ok :=
  ⟨fun e => absurd (e : k.ready = true) (by simp [hr]), hn, h.clock, h.throt, h.ageb, h.pcap, h.xmss⟩

theorem stageDone_keeps (s : State) (m : BitVec 64) (hr : s.mg.ready = false) (hk : s.mg.stage ≤ 6) : KeepsTo s (s.stageDone m) := by
  unfold State.stageDone
  simp only []
  split
  · exact ⟨fun h => h.staged hr 5 (by decide), Nat.le_refl _⟩
  · exact ⟨fun h => h.staged hr 6 (by decide), Nat.le_refl _⟩
  · exact ⟨fun h => initOk 7 _ true (by decide) (fun _ => rfl) h.xmss, Nat.le_refl _⟩
  · exact ⟨fun h => h.staged hr (s.mg.stage + 1) (by omega), Nat.le_refl _⟩

theorem execBringupStageDone_keeps (ok : Bool) (m : BitVec 64) (s : State) : Keeps (execBringupStageDone ok m s) s := by
  unfold execBringupStageDone
  split
  · exact (KeepsTo.of_key rfl).keeps
  · rename_i h
    simp only [Bool.or_eq_true, decide_eq_true_eq, not_or, Bool.not_eq_true, gt_iff_lt, Nat.not_lt] at h
    obtain ⟨⟨⟨hr, hf⟩, h0⟩, h6⟩ := h
    split
    · exact ((stageDone_keeps s _ hr h6).status s).keeps
    · refine (KeepsTo.status ?_ s).keeps
      exact ⟨fun ⟨a, b, c, d, e, f, g⟩ => ⟨fun h => absurd (h : s.mg.ready = true) (by simp [hr]), b, c, d, e, f, g⟩, Nat.le_of_eq rfl⟩

theorem setClock_keeps (s : State) (f : Nat) (h : s.key.Ok → 800 ≤ f ∧ f ≤ 1600 ∧ f % 100 = 0) : KeepsTo s (s.setClock f) := by
  unfold State.setClock
  refine KeepsTo.status ?_ s
  refine ⟨fun k => ?_, Nat.le_of_eq rfl⟩
  have hc := h k
  obtain ⟨a, b, c, d, e, f, g⟩ := k
  exact ⟨a, b, hc, rfl, e, f, g⟩

theorem execThrottle_keeps (s : State) : Keeps (execThrottle s) s := by
  unfold execThrottle
  split
  · rename_i h
    refine (setClock_keeps _ _ fun k => ?_).keeps
    have := k.clock
    simp only [State.key] at this
    simp at h
    omega
  · exact (KeepsTo.of_key rfl).keeps

theorem execThrottleRelease_keeps (s : State) : Keeps (execThrottleRelease s) s := by
  unfold execThrottleRelease
  split
  · rename_i h
    refine (setClock_keeps _ _ fun k => ?_).keeps
    have := k.clock
    simp only [State.key] at this
    simp at h
    omega
  · exact (KeepsTo.of_key rfl).keeps

theorem execThermalTrip_keeps (s : State) : Keeps (execThermalTrip s) s := by
  unfold execThermalTrip
  refine (KeepsTo.status ?_ s).keeps
  exact ⟨fun ⟨a, b, c, d, e, f, g⟩ => ⟨(by intro h; cases h), Nat.le_refl 8, c, d, e, f, g⟩, Nat.le_refl _⟩

theorem capOf_bound (s : State) (v : Word) : 400 ≤ s.capOf v ∧ s.capOf v ≤ 1800 := by
  unfold State.capOf
  split
  · rename_i h
    simpa using h
  · omega

theorem agebOf_bound (v : Word) : 2 ^ 16 ≤ agebOf v ∧ agebOf v ≤ 2 ^ 30 := by
  unfold agebOf
  omega

theorem keeps_ite {p : Prop} [Decidable p] {a b : Outcome} {s : State} (ha : Keeps a s) (hb : Keeps b s) :
    Keeps (if p then a else b) s := by
  split
  · exact ha
  · exact hb

theorem capped_keeps (s : State) (n : Nat) (h : 400 ≤ n ∧ n ≤ 1800) :
    Keeps (.next { s with mg := { s.mg with pcap := n } }) s :=
  ⟨_, rfl, fun ⟨a, b, c, d, e, _, g⟩ => ⟨a, b, c, d, e, h, g⟩, Nat.le_refl _⟩

theorem aged_keeps (s : State) (n : Nat) (h : 2 ^ 16 ≤ n ∧ n ≤ 2 ^ 30) :
    Keeps (.next { s with mg := { s.mg with ageb := n } }) s :=
  ⟨_, rfl, fun ⟨a, b, c, d, _, f, g⟩ => ⟨a, b, c, d, h, f, g⟩, Nat.le_refl _⟩

theorem roster_keeps (s : State) (r : List Byte) : Keeps (.next { s with trust := { s.trust with roster := r } }) s :=
  keeps_of_okey rfl

theorem mbox_keeps (s : State) (r : List Byte) : Keeps (.next { s with trust := { s.trust with mbox := r } }) s :=
  keeps_of_okey rfl

theorem pfWrite_keeps (s : State) (off : Nat) (v : Word) : Keeps (s.pfWrite off v) s := by
  unfold State.pfWrite
  extract_lets mg
  refine keeps_ite (capped_keeps s _ (capOf_bound s v)) ?_
  iterate 4 refine keeps_ite (keeps_of_okey (by simp [mg])) ?_
  refine keeps_ite (aged_keeps s _ (agebOf_bound v)) ?_
  iterate 7 refine keeps_ite (keeps_of_okey (by simp [mg])) ?_
  refine keeps_ite (mbox_keeps s _) ?_
  refine keeps_ite (keeps_of_okey (by simp)) ?_
  refine keeps_ite (roster_keeps s _) ?_
  exact keeps_ite (keeps_of_okey (by simp)) (keeps_of_okey rfl)

theorem execRegisterWrite_keeps (fn : Option Nat) (off n : Nat) (v : Word) (s : State) : Keeps (execRegisterWrite fn off n v s) s := by
  unfold execRegisterWrite
  extract_lets k w
  refine keeps_ite (keeps_of_okey (by simp)) (keeps_ite (keeps_of_okey rfl) ?_)
  split
  · exact keeps_of_okey (by simp)
  · split
    · exact pfWrite_keeps _ _ _
    · split
      · exact keeps_of_okey rfl
      · exact keeps_of_okey (by simp)

end Sys2Proof.Machine
end

