-- ==== Sys2Proof/Laws/State.lean ====
section
/-! SUPPORT. What each update of the state leaves of every field, and the laws of the tables that hold its parts. -/

namespace Sys2Proof.Machine
open Sys2Proof

/-! ### Tables -/

@[simp] theorem Tab.get_put_self {α : Type} (t : Tab α) (k : Nat) (x d : α) : (t.put k x).get k d = x := by
  induction t with
  | nil => simp [Tab.put, Tab.get]
  | cons e r ih =>
    unfold Tab.put
    split
    · simp [Tab.get]
    · split
      · simp [Tab.get]
      · simp_all [Tab.get]

theorem Tab.get_put_ne {α : Type} (t : Tab α) (j k : Nat) (x d : α) (h : j ≠ k) : (t.put k x).get j d = t.get j d := by
  induction t with
  | nil => simp [Tab.put, Tab.get, Ne.symm h]
  | cons e r ih =>
    unfold Tab.put
    split
    · simp [Tab.get, Ne.symm h]
    · split
      · rename_i h1 h2
        have : e.1 ≠ j := fun e1 => h (e1 ▸ h2)
        simp [Tab.get, Ne.symm h, this]
      · simp only [Tab.get, ih]

@[simp] theorem Tab.get?_put_self {α : Type} (t : Tab α) (k : Nat) (x : α) : (t.put k x).get? k = some x := by
  induction t with
  | nil => simp [Tab.put, Tab.get?]
  | cons e r ih =>
    unfold Tab.put
    split
    · simp [Tab.get?]
    · split
      · simp [Tab.get?]
      · simp_all [Tab.get?]

@[simp] theorem Tab.put_put {α : Type} (t : Tab α) (k : Nat) (x y : α) : (t.put k x).put k y = t.put k y := by
  induction t with
  | nil => simp [Tab.put]
  | cons e r ih =>
    by_cases h1 : k < e.1
    · simp [Tab.put, h1]
    · by_cases h2 : e.1 = k
      · simp [Tab.put, h2]
      · simp [Tab.put, h1, h2, ih]

/-! ### Register files -/

theorem vget_vput {α : Type} {n : Nat} (v : Vector α n) (i j : Nat) (x d : α) :
    vget (vput v i x) j d = if i = j ∧ i < n then x else vget v j d := by
  unfold vget vput
  rw [Vector.getElem?_setIfInBounds]
  grind

/-! ### Parts -/

@[simp] theorem State.ctx_setCtx (s : State) (g : Nat) (c : Ctx) : (s.setCtx g c).ctx g = c := by
  simp [State.ctx, State.setCtx]
theorem State.ctx_setCtx_ne (s : State) (g h : Nat) (c : Ctx) (n : h ≠ g) : (s.setCtx g c).ctx h = s.ctx h := by
  simp [State.ctx, State.setCtx, Tab.get_put_ne _ _ _ _ _ n]
@[simp] theorem State.core_setCore (s : State) (k : Nat) (c : Core) : (s.setCore k c).core k = c := by
  simp [State.core, State.setCore]
theorem State.core_setCore_ne (s : State) (j k : Nat) (c : Core) (n : j ≠ k) : (s.setCore k c).core j = s.core j := by
  simp [State.core, State.setCore, Tab.get_put_ne _ _ _ _ _ n]
@[simp] theorem State.cl_setCl (s : State) (k : Nat) (c : Cluster) : (s.setCl k c).cl k = c := by
  simp [State.cl, State.setCl]
theorem State.cl_setCl_ne (s : State) (j k : Nat) (c : Cluster) (n : j ≠ k) : (s.setCl k c).cl j = s.cl j := by
  simp [State.cl, State.setCl, Tab.get_put_ne _ _ _ _ _ n]
@[simp] theorem State.slice_setSlice (s : State) (k : Nat) (c : Slice) : (s.setSlice k c).slice k = c := by
  simp [State.slice, State.setSlice]
theorem State.slice_setSlice_ne (s : State) (j k : Nat) (c : Slice) (n : j ≠ k) : (s.setSlice k c).slice j = s.slice j := by
  simp [State.slice, State.setSlice, Tab.get_put_ne _ _ _ _ _ n]
@[simp] theorem State.queue_setQueue (s : State) (q : Nat) (c : Queue) : (s.setQueue q c).queue q = c := by
  simp [State.queue, State.setQueue]
theorem State.queue_setQueue_ne (s : State) (p q : Nat) (c : Queue) (n : p ≠ q) : (s.setQueue q c).queue p = s.queue p := by
  simp [State.queue, State.setQueue, Tab.get_put_ne _ _ _ _ _ n]
@[simp] theorem State.setCtx_setCtx (s : State) (g : Nat) (c d : Ctx) : (s.setCtx g c).setCtx g d = s.setCtx g d := by
  simp [State.setCtx]
@[simp] theorem State.setCore_setCore (s : State) (k : Nat) (c d : Core) : (s.setCore k c).setCore k d = s.setCore k d := by
  simp [State.setCore]
@[simp] theorem State.setCl_setCl (s : State) (k : Nat) (c d : Cluster) : (s.setCl k c).setCl k d = s.setCl k d := by
  simp [State.setCl]
@[simp] theorem State.setSlice_setSlice (s : State) (k : Nat) (c d : Slice) :
    (s.setSlice k c).setSlice k d = s.setSlice k d := by simp [State.setSlice]
@[simp] theorem State.setMe_setMe (s : State) (c d : Ctx) : (s.setMe c).setMe d = s.setMe d := State.setCtx_setCtx s s.cur c d
@[simp] theorem State.me_setMe (s : State) (c : Ctx) : (s.setMe c).me = c := State.ctx_setCtx s s.cur c

/-! ### Fields -/

@[simp] theorem State.ctxs_setCtx (s : State) (g : Nat) (c : Ctx) : (s.setCtx g c).ctxs = s.ctxs.put g c := rfl
@[simp] theorem State.cores_setCtx (s : State) (g : Nat) (c : Ctx) : (s.setCtx g c).cores = s.cores := rfl
@[simp] theorem State.clusters_setCtx (s : State) (g : Nat) (c : Ctx) : (s.setCtx g c).clusters = s.clusters := rfl
@[simp] theorem State.slices_setCtx (s : State) (g : Nat) (c : Ctx) : (s.setCtx g c).slices = s.slices := rfl
@[simp] theorem State.hbm_setCtx (s : State) (g : Nat) (c : Ctx) : (s.setCtx g c).hbm = s.hbm := rfl
@[simp] theorem State.far_setCtx (s : State) (g : Nat) (c : Ctx) : (s.setCtx g c).far = s.far := rfl
@[simp] theorem State.tlb_setCtx (s : State) (g : Nat) (c : Ctx) : (s.setCtx g c).tlb = s.tlb := rfl
@[simp] theorem State.late_setCtx (s : State) (g : Nat) (c : Ctx) : (s.setCtx g c).late = s.late := rfl
@[simp] theorem State.poison_setCtx (s : State) (g : Nat) (c : Ctx) : (s.setCtx g c).poison = s.poison := rfl
@[simp] theorem State.hostMem_setCtx (s : State) (g : Nat) (c : Ctx) : (s.setCtx g c).hostMem = s.hostMem := rfl
@[simp] theorem State.hostBad_setCtx (s : State) (g : Nat) (c : Ctx) : (s.setCtx g c).hostBad = s.hostBad := rfl
@[simp] theorem State.mg_setCtx (s : State) (g : Nat) (c : Ctx) : (s.setCtx g c).mg = s.mg := rfl
@[simp] theorem State.trust_setCtx (s : State) (g : Nat) (c : Ctx) : (s.setCtx g c).trust = s.trust := rfl
@[simp] theorem State.gangs_setCtx (s : State) (g : Nat) (c : Ctx) : (s.setCtx g c).gangs = s.gangs := rfl
@[simp] theorem State.colls_setCtx (s : State) (g : Nat) (c : Ctx) : (s.setCtx g c).colls = s.colls := rfl
@[simp] theorem State.collEnds_setCtx (s : State) (g : Nat) (c : Ctx) : (s.setCtx g c).collEnds = s.collEnds := rfl
@[simp] theorem State.collLost_setCtx (s : State) (g : Nat) (c : Ctx) : (s.setCtx g c).collLost = s.collLost := rfl
@[simp] theorem State.cbCopies_setCtx (s : State) (g : Nat) (c : Ctx) : (s.setCtx g c).cbCopies = s.cbCopies := rfl
@[simp] theorem State.outbox_setCtx (s : State) (g : Nat) (c : Ctx) : (s.setCtx g c).outbox = s.outbox := rfl
@[simp] theorem State.clock_setCtx (s : State) (g : Nat) (c : Ctx) : (s.setCtx g c).clock = s.clock := rfl
@[simp] theorem State.refClock_setCtx (s : State) (g : Nat) (c : Ctx) : (s.setCtx g c).refClock = s.refClock := rfl
@[simp] theorem State.refPart_setCtx (s : State) (g : Nat) (c : Ctx) : (s.setCtx g c).refPart = s.refPart := rfl
@[simp] theorem State.agenda_setCtx (s : State) (g : Nat) (c : Ctx) : (s.setCtx g c).agenda = s.agenda := rfl
@[simp] theorem State.turn_setCtx (s : State) (g : Nat) (c : Ctx) : (s.setCtx g c).turn = s.turn := rfl
@[simp] theorem State.fresh_setCtx (s : State) (g : Nat) (c : Ctx) : (s.setCtx g c).fresh = s.fresh := rfl
@[simp] theorem State.rnd_setCtx (s : State) (g : Nat) (c : Ctx) : (s.setCtx g c).rnd = s.rnd := rfl
@[simp] theorem State.cur_setCtx (s : State) (g : Nat) (c : Ctx) : (s.setCtx g c).cur = s.cur := rfl
@[simp] theorem State.iss_setCtx (s : State) (g : Nat) (c : Ctx) : (s.setCtx g c).iss = s.iss := rfl

@[simp] theorem State.ctxs_setCore (s : State) (k : Nat) (c : Core) : (s.setCore k c).ctxs = s.ctxs := rfl
@[simp] theorem State.cores_setCore (s : State) (k : Nat) (c : Core) : (s.setCore k c).cores = s.cores.put k c := rfl
@[simp] theorem State.clusters_setCore (s : State) (k : Nat) (c : Core) : (s.setCore k c).clusters = s.clusters := rfl
@[simp] theorem State.slices_setCore (s : State) (k : Nat) (c : Core) : (s.setCore k c).slices = s.slices := rfl
@[simp] theorem State.hbm_setCore (s : State) (k : Nat) (c : Core) : (s.setCore k c).hbm = s.hbm := rfl
@[simp] theorem State.far_setCore (s : State) (k : Nat) (c : Core) : (s.setCore k c).far = s.far := rfl
@[simp] theorem State.tlb_setCore (s : State) (k : Nat) (c : Core) : (s.setCore k c).tlb = s.tlb := rfl
@[simp] theorem State.late_setCore (s : State) (k : Nat) (c : Core) : (s.setCore k c).late = s.late := rfl
@[simp] theorem State.poison_setCore (s : State) (k : Nat) (c : Core) : (s.setCore k c).poison = s.poison := rfl
@[simp] theorem State.hostMem_setCore (s : State) (k : Nat) (c : Core) : (s.setCore k c).hostMem = s.hostMem := rfl
@[simp] theorem State.hostBad_setCore (s : State) (k : Nat) (c : Core) : (s.setCore k c).hostBad = s.hostBad := rfl
@[simp] theorem State.mg_setCore (s : State) (k : Nat) (c : Core) : (s.setCore k c).mg = s.mg := rfl
@[simp] theorem State.trust_setCore (s : State) (k : Nat) (c : Core) : (s.setCore k c).trust = s.trust := rfl
@[simp] theorem State.gangs_setCore (s : State) (k : Nat) (c : Core) : (s.setCore k c).gangs = s.gangs := rfl
@[simp] theorem State.colls_setCore (s : State) (k : Nat) (c : Core) : (s.setCore k c).colls = s.colls := rfl
@[simp] theorem State.collEnds_setCore (s : State) (k : Nat) (c : Core) : (s.setCore k c).collEnds = s.collEnds := rfl
@[simp] theorem State.collLost_setCore (s : State) (k : Nat) (c : Core) : (s.setCore k c).collLost = s.collLost := rfl
@[simp] theorem State.cbCopies_setCore (s : State) (k : Nat) (c : Core) : (s.setCore k c).cbCopies = s.cbCopies := rfl
@[simp] theorem State.outbox_setCore (s : State) (k : Nat) (c : Core) : (s.setCore k c).outbox = s.outbox := rfl
@[simp] theorem State.clock_setCore (s : State) (k : Nat) (c : Core) : (s.setCore k c).clock = s.clock := rfl
@[simp] theorem State.refClock_setCore (s : State) (k : Nat) (c : Core) : (s.setCore k c).refClock = s.refClock := rfl
@[simp] theorem State.refPart_setCore (s : State) (k : Nat) (c : Core) : (s.setCore k c).refPart = s.refPart := rfl
@[simp] theorem State.agenda_setCore (s : State) (k : Nat) (c : Core) : (s.setCore k c).agenda = s.agenda := rfl
@[simp] theorem State.turn_setCore (s : State) (k : Nat) (c : Core) : (s.setCore k c).turn = s.turn := rfl
@[simp] theorem State.fresh_setCore (s : State) (k : Nat) (c : Core) : (s.setCore k c).fresh = s.fresh := rfl
@[simp] theorem State.rnd_setCore (s : State) (k : Nat) (c : Core) : (s.setCore k c).rnd = s.rnd := rfl
@[simp] theorem State.cur_setCore (s : State) (k : Nat) (c : Core) : (s.setCore k c).cur = s.cur := rfl
@[simp] theorem State.iss_setCore (s : State) (k : Nat) (c : Core) : (s.setCore k c).iss = s.iss := rfl

@[simp] theorem State.ctxs_setCl (s : State) (k : Nat) (c : Cluster) : (s.setCl k c).ctxs = s.ctxs := rfl
@[simp] theorem State.cores_setCl (s : State) (k : Nat) (c : Cluster) : (s.setCl k c).cores = s.cores := rfl
@[simp] theorem State.clusters_setCl (s : State) (k : Nat) (c : Cluster) : (s.setCl k c).clusters = s.clusters.put k c := rfl
@[simp] theorem State.slices_setCl (s : State) (k : Nat) (c : Cluster) : (s.setCl k c).slices = s.slices := rfl
@[simp] theorem State.hbm_setCl (s : State) (k : Nat) (c : Cluster) : (s.setCl k c).hbm = s.hbm := rfl
@[simp] theorem State.far_setCl (s : State) (k : Nat) (c : Cluster) : (s.setCl k c).far = s.far := rfl
@[simp] theorem State.tlb_setCl (s : State) (k : Nat) (c : Cluster) : (s.setCl k c).tlb = s.tlb := rfl
@[simp] theorem State.late_setCl (s : State) (k : Nat) (c : Cluster) : (s.setCl k c).late = s.late := rfl
@[simp] theorem State.poison_setCl (s : State) (k : Nat) (c : Cluster) : (s.setCl k c).poison = s.poison := rfl
@[simp] theorem State.hostMem_setCl (s : State) (k : Nat) (c : Cluster) : (s.setCl k c).hostMem = s.hostMem := rfl
@[simp] theorem State.hostBad_setCl (s : State) (k : Nat) (c : Cluster) : (s.setCl k c).hostBad = s.hostBad := rfl
@[simp] theorem State.mg_setCl (s : State) (k : Nat) (c : Cluster) : (s.setCl k c).mg = s.mg := rfl
@[simp] theorem State.trust_setCl (s : State) (k : Nat) (c : Cluster) : (s.setCl k c).trust = s.trust := rfl
@[simp] theorem State.gangs_setCl (s : State) (k : Nat) (c : Cluster) : (s.setCl k c).gangs = s.gangs := rfl
@[simp] theorem State.colls_setCl (s : State) (k : Nat) (c : Cluster) : (s.setCl k c).colls = s.colls := rfl
@[simp] theorem State.collEnds_setCl (s : State) (k : Nat) (c : Cluster) : (s.setCl k c).collEnds = s.collEnds := rfl
@[simp] theorem State.collLost_setCl (s : State) (k : Nat) (c : Cluster) : (s.setCl k c).collLost = s.collLost := rfl
@[simp] theorem State.cbCopies_setCl (s : State) (k : Nat) (c : Cluster) : (s.setCl k c).cbCopies = s.cbCopies := rfl
@[simp] theorem State.outbox_setCl (s : State) (k : Nat) (c : Cluster) : (s.setCl k c).outbox = s.outbox := rfl
@[simp] theorem State.clock_setCl (s : State) (k : Nat) (c : Cluster) : (s.setCl k c).clock = s.clock := rfl
@[simp] theorem State.refClock_setCl (s : State) (k : Nat) (c : Cluster) : (s.setCl k c).refClock = s.refClock := rfl
@[simp] theorem State.refPart_setCl (s : State) (k : Nat) (c : Cluster) : (s.setCl k c).refPart = s.refPart := rfl
@[simp] theorem State.agenda_setCl (s : State) (k : Nat) (c : Cluster) : (s.setCl k c).agenda = s.agenda := rfl
@[simp] theorem State.turn_setCl (s : State) (k : Nat) (c : Cluster) : (s.setCl k c).turn = s.turn := rfl
@[simp] theorem State.fresh_setCl (s : State) (k : Nat) (c : Cluster) : (s.setCl k c).fresh = s.fresh := rfl
@[simp] theorem State.rnd_setCl (s : State) (k : Nat) (c : Cluster) : (s.setCl k c).rnd = s.rnd := rfl
@[simp] theorem State.cur_setCl (s : State) (k : Nat) (c : Cluster) : (s.setCl k c).cur = s.cur := rfl
@[simp] theorem State.iss_setCl (s : State) (k : Nat) (c : Cluster) : (s.setCl k c).iss = s.iss := rfl

@[simp] theorem State.ctxs_setSlice (s : State) (k : Nat) (c : Slice) : (s.setSlice k c).ctxs = s.ctxs := rfl
@[simp] theorem State.cores_setSlice (s : State) (k : Nat) (c : Slice) : (s.setSlice k c).cores = s.cores := rfl
@[simp] theorem State.clusters_setSlice (s : State) (k : Nat) (c : Slice) : (s.setSlice k c).clusters = s.clusters := rfl
@[simp] theorem State.slices_setSlice (s : State) (k : Nat) (c : Slice) : (s.setSlice k c).slices = s.slices.put k c := rfl
@[simp] theorem State.hbm_setSlice (s : State) (k : Nat) (c : Slice) : (s.setSlice k c).hbm = s.hbm := rfl
@[simp] theorem State.far_setSlice (s : State) (k : Nat) (c : Slice) : (s.setSlice k c).far = s.far := rfl
@[simp] theorem State.tlb_setSlice (s : State) (k : Nat) (c : Slice) : (s.setSlice k c).tlb = s.tlb := rfl
@[simp] theorem State.late_setSlice (s : State) (k : Nat) (c : Slice) : (s.setSlice k c).late = s.late := rfl
@[simp] theorem State.poison_setSlice (s : State) (k : Nat) (c : Slice) : (s.setSlice k c).poison = s.poison := rfl
@[simp] theorem State.hostMem_setSlice (s : State) (k : Nat) (c : Slice) : (s.setSlice k c).hostMem = s.hostMem := rfl
@[simp] theorem State.hostBad_setSlice (s : State) (k : Nat) (c : Slice) : (s.setSlice k c).hostBad = s.hostBad := rfl
@[simp] theorem State.mg_setSlice (s : State) (k : Nat) (c : Slice) : (s.setSlice k c).mg = s.mg := rfl
@[simp] theorem State.trust_setSlice (s : State) (k : Nat) (c : Slice) : (s.setSlice k c).trust = s.trust := rfl
@[simp] theorem State.gangs_setSlice (s : State) (k : Nat) (c : Slice) : (s.setSlice k c).gangs = s.gangs := rfl
@[simp] theorem State.colls_setSlice (s : State) (k : Nat) (c : Slice) : (s.setSlice k c).colls = s.colls := rfl
@[simp] theorem State.collEnds_setSlice (s : State) (k : Nat) (c : Slice) : (s.setSlice k c).collEnds = s.collEnds := rfl
@[simp] theorem State.collLost_setSlice (s : State) (k : Nat) (c : Slice) : (s.setSlice k c).collLost = s.collLost := rfl
@[simp] theorem State.cbCopies_setSlice (s : State) (k : Nat) (c : Slice) : (s.setSlice k c).cbCopies = s.cbCopies := rfl
@[simp] theorem State.outbox_setSlice (s : State) (k : Nat) (c : Slice) : (s.setSlice k c).outbox = s.outbox := rfl
@[simp] theorem State.clock_setSlice (s : State) (k : Nat) (c : Slice) : (s.setSlice k c).clock = s.clock := rfl
@[simp] theorem State.refClock_setSlice (s : State) (k : Nat) (c : Slice) : (s.setSlice k c).refClock = s.refClock := rfl
@[simp] theorem State.refPart_setSlice (s : State) (k : Nat) (c : Slice) : (s.setSlice k c).refPart = s.refPart := rfl
@[simp] theorem State.agenda_setSlice (s : State) (k : Nat) (c : Slice) : (s.setSlice k c).agenda = s.agenda := rfl
@[simp] theorem State.turn_setSlice (s : State) (k : Nat) (c : Slice) : (s.setSlice k c).turn = s.turn := rfl
@[simp] theorem State.fresh_setSlice (s : State) (k : Nat) (c : Slice) : (s.setSlice k c).fresh = s.fresh := rfl
@[simp] theorem State.rnd_setSlice (s : State) (k : Nat) (c : Slice) : (s.setSlice k c).rnd = s.rnd := rfl
@[simp] theorem State.cur_setSlice (s : State) (k : Nat) (c : Slice) : (s.setSlice k c).cur = s.cur := rfl
@[simp] theorem State.iss_setSlice (s : State) (k : Nat) (c : Slice) : (s.setSlice k c).iss = s.iss := rfl

@[simp] theorem State.ctxs_setQueue (s : State) (q : Nat) (c : Queue) : (s.setQueue q c).ctxs = s.ctxs := rfl
@[simp] theorem State.cores_setQueue (s : State) (q : Nat) (c : Queue) : (s.setQueue q c).cores = s.cores := rfl
@[simp] theorem State.clusters_setQueue (s : State) (q : Nat) (c : Queue) : (s.setQueue q c).clusters = s.clusters := rfl
@[simp] theorem State.slices_setQueue (s : State) (q : Nat) (c : Queue) : (s.setQueue q c).slices = s.slices := rfl
@[simp] theorem State.hbm_setQueue (s : State) (q : Nat) (c : Queue) : (s.setQueue q c).hbm = s.hbm := rfl
@[simp] theorem State.far_setQueue (s : State) (q : Nat) (c : Queue) : (s.setQueue q c).far = s.far := rfl
@[simp] theorem State.tlb_setQueue (s : State) (q : Nat) (c : Queue) : (s.setQueue q c).tlb = s.tlb := rfl
@[simp] theorem State.late_setQueue (s : State) (q : Nat) (c : Queue) : (s.setQueue q c).late = s.late := rfl
@[simp] theorem State.poison_setQueue (s : State) (q : Nat) (c : Queue) : (s.setQueue q c).poison = s.poison := rfl
@[simp] theorem State.hostMem_setQueue (s : State) (q : Nat) (c : Queue) : (s.setQueue q c).hostMem = s.hostMem := rfl
@[simp] theorem State.hostBad_setQueue (s : State) (q : Nat) (c : Queue) : (s.setQueue q c).hostBad = s.hostBad := rfl
@[simp] theorem State.mg_setQueue (s : State) (q : Nat) (c : Queue) : (s.setQueue q c).mg = { s.mg with queues := s.mg.queues.put q c } := rfl
@[simp] theorem State.trust_setQueue (s : State) (q : Nat) (c : Queue) : (s.setQueue q c).trust = s.trust := rfl
@[simp] theorem State.gangs_setQueue (s : State) (q : Nat) (c : Queue) : (s.setQueue q c).gangs = s.gangs := rfl
@[simp] theorem State.colls_setQueue (s : State) (q : Nat) (c : Queue) : (s.setQueue q c).colls = s.colls := rfl
@[simp] theorem State.collEnds_setQueue (s : State) (q : Nat) (c : Queue) : (s.setQueue q c).collEnds = s.collEnds := rfl
@[simp] theorem State.collLost_setQueue (s : State) (q : Nat) (c : Queue) : (s.setQueue q c).collLost = s.collLost := rfl
@[simp] theorem State.cbCopies_setQueue (s : State) (q : Nat) (c : Queue) : (s.setQueue q c).cbCopies = s.cbCopies := rfl
@[simp] theorem State.outbox_setQueue (s : State) (q : Nat) (c : Queue) : (s.setQueue q c).outbox = s.outbox := rfl
@[simp] theorem State.clock_setQueue (s : State) (q : Nat) (c : Queue) : (s.setQueue q c).clock = s.clock := rfl
@[simp] theorem State.refClock_setQueue (s : State) (q : Nat) (c : Queue) : (s.setQueue q c).refClock = s.refClock := rfl
@[simp] theorem State.refPart_setQueue (s : State) (q : Nat) (c : Queue) : (s.setQueue q c).refPart = s.refPart := rfl
@[simp] theorem State.agenda_setQueue (s : State) (q : Nat) (c : Queue) : (s.setQueue q c).agenda = s.agenda := rfl
@[simp] theorem State.turn_setQueue (s : State) (q : Nat) (c : Queue) : (s.setQueue q c).turn = s.turn := rfl
@[simp] theorem State.fresh_setQueue (s : State) (q : Nat) (c : Queue) : (s.setQueue q c).fresh = s.fresh := rfl
@[simp] theorem State.rnd_setQueue (s : State) (q : Nat) (c : Queue) : (s.setQueue q c).rnd = s.rnd := rfl
@[simp] theorem State.cur_setQueue (s : State) (q : Nat) (c : Queue) : (s.setQueue q c).cur = s.cur := rfl
@[simp] theorem State.iss_setQueue (s : State) (q : Nat) (c : Queue) : (s.setQueue q c).iss = s.iss := rfl

@[simp] theorem State.ctxs_setGang (s : State) (x : Gang) : (s.setGang x).ctxs = s.ctxs := rfl
@[simp] theorem State.cores_setGang (s : State) (x : Gang) : (s.setGang x).cores = s.cores := rfl
@[simp] theorem State.clusters_setGang (s : State) (x : Gang) : (s.setGang x).clusters = s.clusters := rfl
@[simp] theorem State.slices_setGang (s : State) (x : Gang) : (s.setGang x).slices = s.slices := rfl
@[simp] theorem State.hbm_setGang (s : State) (x : Gang) : (s.setGang x).hbm = s.hbm := rfl
@[simp] theorem State.far_setGang (s : State) (x : Gang) : (s.setGang x).far = s.far := rfl
@[simp] theorem State.tlb_setGang (s : State) (x : Gang) : (s.setGang x).tlb = s.tlb := rfl
@[simp] theorem State.late_setGang (s : State) (x : Gang) : (s.setGang x).late = s.late := rfl
@[simp] theorem State.poison_setGang (s : State) (x : Gang) : (s.setGang x).poison = s.poison := rfl
@[simp] theorem State.hostMem_setGang (s : State) (x : Gang) : (s.setGang x).hostMem = s.hostMem := rfl
@[simp] theorem State.hostBad_setGang (s : State) (x : Gang) : (s.setGang x).hostBad = s.hostBad := rfl
@[simp] theorem State.mg_setGang (s : State) (x : Gang) : (s.setGang x).mg = s.mg := rfl
@[simp] theorem State.trust_setGang (s : State) (x : Gang) : (s.setGang x).trust = s.trust := rfl
@[simp] theorem State.gangs_setGang (s : State) (x : Gang) : (s.setGang x).gangs = s.gangs.map fun y => if y.id = x.id then x else y := rfl
@[simp] theorem State.colls_setGang (s : State) (x : Gang) : (s.setGang x).colls = s.colls := rfl
@[simp] theorem State.collEnds_setGang (s : State) (x : Gang) : (s.setGang x).collEnds = s.collEnds := rfl
@[simp] theorem State.collLost_setGang (s : State) (x : Gang) : (s.setGang x).collLost = s.collLost := rfl
@[simp] theorem State.cbCopies_setGang (s : State) (x : Gang) : (s.setGang x).cbCopies = s.cbCopies := rfl
@[simp] theorem State.outbox_setGang (s : State) (x : Gang) : (s.setGang x).outbox = s.outbox := rfl
@[simp] theorem State.clock_setGang (s : State) (x : Gang) : (s.setGang x).clock = s.clock := rfl
@[simp] theorem State.refClock_setGang (s : State) (x : Gang) : (s.setGang x).refClock = s.refClock := rfl
@[simp] theorem State.refPart_setGang (s : State) (x : Gang) : (s.setGang x).refPart = s.refPart := rfl
@[simp] theorem State.agenda_setGang (s : State) (x : Gang) : (s.setGang x).agenda = s.agenda := rfl
@[simp] theorem State.turn_setGang (s : State) (x : Gang) : (s.setGang x).turn = s.turn := rfl
@[simp] theorem State.fresh_setGang (s : State) (x : Gang) : (s.setGang x).fresh = s.fresh := rfl
@[simp] theorem State.rnd_setGang (s : State) (x : Gang) : (s.setGang x).rnd = s.rnd := rfl
@[simp] theorem State.cur_setGang (s : State) (x : Gang) : (s.setGang x).cur = s.cur := rfl
@[simp] theorem State.iss_setGang (s : State) (x : Gang) : (s.setGang x).iss = s.iss := rfl

@[simp] theorem State.ctxs_send (s : State) (o : Out) : (s.send o).ctxs = s.ctxs := rfl
@[simp] theorem State.cores_send (s : State) (o : Out) : (s.send o).cores = s.cores := rfl
@[simp] theorem State.clusters_send (s : State) (o : Out) : (s.send o).clusters = s.clusters := rfl
@[simp] theorem State.slices_send (s : State) (o : Out) : (s.send o).slices = s.slices := rfl
@[simp] theorem State.hbm_send (s : State) (o : Out) : (s.send o).hbm = s.hbm := rfl
@[simp] theorem State.far_send (s : State) (o : Out) : (s.send o).far = s.far := rfl
@[simp] theorem State.tlb_send (s : State) (o : Out) : (s.send o).tlb = s.tlb := rfl
@[simp] theorem State.late_send (s : State) (o : Out) : (s.send o).late = s.late := rfl
@[simp] theorem State.poison_send (s : State) (o : Out) : (s.send o).poison = s.poison := rfl
@[simp] theorem State.hostMem_send (s : State) (o : Out) : (s.send o).hostMem = s.hostMem := rfl
@[simp] theorem State.hostBad_send (s : State) (o : Out) : (s.send o).hostBad = s.hostBad := rfl
@[simp] theorem State.mg_send (s : State) (o : Out) : (s.send o).mg = s.mg := rfl
@[simp] theorem State.trust_send (s : State) (o : Out) : (s.send o).trust = s.trust := rfl
@[simp] theorem State.gangs_send (s : State) (o : Out) : (s.send o).gangs = s.gangs := rfl
@[simp] theorem State.colls_send (s : State) (o : Out) : (s.send o).colls = s.colls := rfl
@[simp] theorem State.collEnds_send (s : State) (o : Out) : (s.send o).collEnds = s.collEnds := rfl
@[simp] theorem State.collLost_send (s : State) (o : Out) : (s.send o).collLost = s.collLost := rfl
@[simp] theorem State.cbCopies_send (s : State) (o : Out) : (s.send o).cbCopies = s.cbCopies := rfl
@[simp] theorem State.outbox_send (s : State) (o : Out) : (s.send o).outbox = s.outbox ++ [o] := rfl
@[simp] theorem State.clock_send (s : State) (o : Out) : (s.send o).clock = s.clock := rfl
@[simp] theorem State.refClock_send (s : State) (o : Out) : (s.send o).refClock = s.refClock := rfl
@[simp] theorem State.refPart_send (s : State) (o : Out) : (s.send o).refPart = s.refPart := rfl
@[simp] theorem State.agenda_send (s : State) (o : Out) : (s.send o).agenda = s.agenda := rfl
@[simp] theorem State.turn_send (s : State) (o : Out) : (s.send o).turn = s.turn := rfl
@[simp] theorem State.fresh_send (s : State) (o : Out) : (s.send o).fresh = s.fresh := rfl
@[simp] theorem State.rnd_send (s : State) (o : Out) : (s.send o).rnd = s.rnd := rfl
@[simp] theorem State.cur_send (s : State) (o : Out) : (s.send o).cur = s.cur := rfl
@[simp] theorem State.iss_send (s : State) (o : Out) : (s.send o).iss = s.iss := rfl

@[simp] theorem State.ctxs_setPfn (s : State) (n : Option Nat) (x : PcieFn) : (s.setPfn n x).ctxs = s.ctxs := rfl
@[simp] theorem State.cores_setPfn (s : State) (n : Option Nat) (x : PcieFn) : (s.setPfn n x).cores = s.cores := rfl
@[simp] theorem State.clusters_setPfn (s : State) (n : Option Nat) (x : PcieFn) : (s.setPfn n x).clusters = s.clusters := rfl
@[simp] theorem State.slices_setPfn (s : State) (n : Option Nat) (x : PcieFn) : (s.setPfn n x).slices = s.slices := rfl
@[simp] theorem State.hbm_setPfn (s : State) (n : Option Nat) (x : PcieFn) : (s.setPfn n x).hbm = s.hbm := rfl
@[simp] theorem State.far_setPfn (s : State) (n : Option Nat) (x : PcieFn) : (s.setPfn n x).far = s.far := rfl
@[simp] theorem State.tlb_setPfn (s : State) (n : Option Nat) (x : PcieFn) : (s.setPfn n x).tlb = s.tlb := rfl
@[simp] theorem State.late_setPfn (s : State) (n : Option Nat) (x : PcieFn) : (s.setPfn n x).late = s.late := rfl
@[simp] theorem State.poison_setPfn (s : State) (n : Option Nat) (x : PcieFn) : (s.setPfn n x).poison = s.poison := rfl
@[simp] theorem State.hostMem_setPfn (s : State) (n : Option Nat) (x : PcieFn) : (s.setPfn n x).hostMem = s.hostMem := rfl
@[simp] theorem State.hostBad_setPfn (s : State) (n : Option Nat) (x : PcieFn) : (s.setPfn n x).hostBad = s.hostBad := rfl
@[simp] theorem State.mg_setPfn (s : State) (n : Option Nat) (x : PcieFn) :
    (s.setPfn n x).mg = { s.mg with pcie := s.mg.pcie.put (fnNo n) x } := rfl
@[simp] theorem State.trust_setPfn (s : State) (n : Option Nat) (x : PcieFn) : (s.setPfn n x).trust = s.trust := rfl
@[simp] theorem State.gangs_setPfn (s : State) (n : Option Nat) (x : PcieFn) : (s.setPfn n x).gangs = s.gangs := rfl
@[simp] theorem State.colls_setPfn (s : State) (n : Option Nat) (x : PcieFn) : (s.setPfn n x).colls = s.colls := rfl
@[simp] theorem State.collEnds_setPfn (s : State) (n : Option Nat) (x : PcieFn) : (s.setPfn n x).collEnds = s.collEnds := rfl
@[simp] theorem State.collLost_setPfn (s : State) (n : Option Nat) (x : PcieFn) : (s.setPfn n x).collLost = s.collLost := rfl
@[simp] theorem State.cbCopies_setPfn (s : State) (n : Option Nat) (x : PcieFn) : (s.setPfn n x).cbCopies = s.cbCopies := rfl
@[simp] theorem State.outbox_setPfn (s : State) (n : Option Nat) (x : PcieFn) : (s.setPfn n x).outbox = s.outbox := rfl
@[simp] theorem State.clock_setPfn (s : State) (n : Option Nat) (x : PcieFn) : (s.setPfn n x).clock = s.clock := rfl
@[simp] theorem State.refClock_setPfn (s : State) (n : Option Nat) (x : PcieFn) : (s.setPfn n x).refClock = s.refClock := rfl
@[simp] theorem State.refPart_setPfn (s : State) (n : Option Nat) (x : PcieFn) : (s.setPfn n x).refPart = s.refPart := rfl
@[simp] theorem State.agenda_setPfn (s : State) (n : Option Nat) (x : PcieFn) : (s.setPfn n x).agenda = s.agenda := rfl
@[simp] theorem State.turn_setPfn (s : State) (n : Option Nat) (x : PcieFn) : (s.setPfn n x).turn = s.turn := rfl
@[simp] theorem State.fresh_setPfn (s : State) (n : Option Nat) (x : PcieFn) : (s.setPfn n x).fresh = s.fresh := rfl
@[simp] theorem State.rnd_setPfn (s : State) (n : Option Nat) (x : PcieFn) : (s.setPfn n x).rnd = s.rnd := rfl
@[simp] theorem State.cur_setPfn (s : State) (n : Option Nat) (x : PcieFn) : (s.setPfn n x).cur = s.cur := rfl
@[simp] theorem State.iss_setPfn (s : State) (n : Option Nat) (x : PcieFn) : (s.setPfn n x).iss = s.iss := rfl
@[simp] theorem State.pfn_setPfn (s : State) (n : Option Nat) (x : PcieFn) : (s.setPfn n x).pfn n = x := by
  simp [State.pfn]

@[simp] theorem State.ctxs_tick (s : State) : (s.tick).ctxs = s.ctxs := rfl
@[simp] theorem State.cores_tick (s : State) : (s.tick).cores = s.cores := rfl
@[simp] theorem State.clusters_tick (s : State) : (s.tick).clusters = s.clusters := rfl
@[simp] theorem State.slices_tick (s : State) : (s.tick).slices = s.slices := rfl
@[simp] theorem State.hbm_tick (s : State) : (s.tick).hbm = s.hbm := rfl
@[simp] theorem State.far_tick (s : State) : (s.tick).far = s.far := rfl
@[simp] theorem State.tlb_tick (s : State) : (s.tick).tlb = s.tlb := rfl
@[simp] theorem State.late_tick (s : State) : (s.tick).late = s.late := rfl
@[simp] theorem State.poison_tick (s : State) : (s.tick).poison = s.poison := rfl
@[simp] theorem State.hostMem_tick (s : State) : (s.tick).hostMem = s.hostMem := rfl
@[simp] theorem State.hostBad_tick (s : State) : (s.tick).hostBad = s.hostBad := rfl
@[simp] theorem State.mg_tick (s : State) : (s.tick).mg = { s.mg with thCount := if s.mg.clkMHz < 1600 then s.mg.thCount + 1 else s.mg.thCount } := rfl
@[simp] theorem State.trust_tick (s : State) : (s.tick).trust = s.trust := rfl
@[simp] theorem State.gangs_tick (s : State) : (s.tick).gangs = s.gangs := rfl
@[simp] theorem State.colls_tick (s : State) : (s.tick).colls = s.colls := rfl
@[simp] theorem State.collEnds_tick (s : State) : (s.tick).collEnds = s.collEnds := rfl
@[simp] theorem State.collLost_tick (s : State) : (s.tick).collLost = s.collLost := rfl
@[simp] theorem State.cbCopies_tick (s : State) : (s.tick).cbCopies = s.cbCopies := rfl
@[simp] theorem State.outbox_tick (s : State) : (s.tick).outbox = s.outbox := rfl
@[simp] theorem State.clock_tick (s : State) : (s.tick).clock = s.clock + 1 := rfl
@[simp] theorem State.refClock_tick (s : State) :
    (s.tick).refClock = s.refClock + (s.refPart + refParts s.mg.clkMHz) / 720720 := rfl
@[simp] theorem State.refPart_tick (s : State) :
    (s.tick).refPart = (s.refPart + refParts s.mg.clkMHz) % 720720 := rfl
@[simp] theorem State.agenda_tick (s : State) :
    (s.tick).agenda = if (s.clock + 1) % 65536 = 0 then .slotTableTurn :: s.agenda else s.agenda := rfl
@[simp] theorem State.turn_tick (s : State) : (s.tick).turn = s.turn := rfl
@[simp] theorem State.fresh_tick (s : State) : (s.tick).fresh = s.fresh + 1 := rfl
@[simp] theorem State.rnd_tick (s : State) : (s.tick).rnd = s.rnd := rfl
@[simp] theorem State.cur_tick (s : State) : (s.tick).cur = s.cur := rfl
@[simp] theorem State.iss_tick (s : State) : (s.tick).iss = s.iss := rfl

@[simp] theorem State.cores_setMe (s : State) (c : Ctx) : (s.setMe c).cores = s.cores := rfl
@[simp] theorem State.clusters_setMe (s : State) (c : Ctx) : (s.setMe c).clusters = s.clusters := rfl
@[simp] theorem State.slices_setMe (s : State) (c : Ctx) : (s.setMe c).slices = s.slices := rfl
@[simp] theorem State.hbm_setMe (s : State) (c : Ctx) : (s.setMe c).hbm = s.hbm := rfl
@[simp] theorem State.far_setMe (s : State) (c : Ctx) : (s.setMe c).far = s.far := rfl
@[simp] theorem State.tlb_setMe (s : State) (c : Ctx) : (s.setMe c).tlb = s.tlb := rfl
@[simp] theorem State.late_setMe (s : State) (c : Ctx) : (s.setMe c).late = s.late := rfl
@[simp] theorem State.poison_setMe (s : State) (c : Ctx) : (s.setMe c).poison = s.poison := rfl
@[simp] theorem State.hostMem_setMe (s : State) (c : Ctx) : (s.setMe c).hostMem = s.hostMem := rfl
@[simp] theorem State.hostBad_setMe (s : State) (c : Ctx) : (s.setMe c).hostBad = s.hostBad := rfl
@[simp] theorem State.mg_setMe (s : State) (c : Ctx) : (s.setMe c).mg = s.mg := rfl
@[simp] theorem State.trust_setMe (s : State) (c : Ctx) : (s.setMe c).trust = s.trust := rfl
@[simp] theorem State.gangs_setMe (s : State) (c : Ctx) : (s.setMe c).gangs = s.gangs := rfl
@[simp] theorem State.colls_setMe (s : State) (c : Ctx) : (s.setMe c).colls = s.colls := rfl
@[simp] theorem State.collEnds_setMe (s : State) (c : Ctx) : (s.setMe c).collEnds = s.collEnds := rfl
@[simp] theorem State.collLost_setMe (s : State) (c : Ctx) : (s.setMe c).collLost = s.collLost := rfl
@[simp] theorem State.cbCopies_setMe (s : State) (c : Ctx) : (s.setMe c).cbCopies = s.cbCopies := rfl
@[simp] theorem State.outbox_setMe (s : State) (c : Ctx) : (s.setMe c).outbox = s.outbox := rfl
@[simp] theorem State.clock_setMe (s : State) (c : Ctx) : (s.setMe c).clock = s.clock := rfl
@[simp] theorem State.refClock_setMe (s : State) (c : Ctx) : (s.setMe c).refClock = s.refClock := rfl
@[simp] theorem State.refPart_setMe (s : State) (c : Ctx) : (s.setMe c).refPart = s.refPart := rfl
@[simp] theorem State.agenda_setMe (s : State) (c : Ctx) : (s.setMe c).agenda = s.agenda := rfl
@[simp] theorem State.turn_setMe (s : State) (c : Ctx) : (s.setMe c).turn = s.turn := rfl
@[simp] theorem State.fresh_setMe (s : State) (c : Ctx) : (s.setMe c).fresh = s.fresh := rfl
@[simp] theorem State.rnd_setMe (s : State) (c : Ctx) : (s.setMe c).rnd = s.rnd := rfl
@[simp] theorem State.cur_setMe (s : State) (c : Ctx) : (s.setMe c).cur = s.cur := rfl
@[simp] theorem State.iss_setMe (s : State) (c : Ctx) : (s.setMe c).iss = s.iss := rfl

@[simp] theorem State.ctx_setCore (s : State) (k : Nat) (c : Core) (n : Nat) : (s.setCore k c).ctx n = s.ctx n := rfl
@[simp] theorem State.ctx_setCl (s : State) (k : Nat) (c : Cluster) (n : Nat) : (s.setCl k c).ctx n = s.ctx n := rfl
@[simp] theorem State.ctx_setSlice (s : State) (k : Nat) (c : Slice) (n : Nat) : (s.setSlice k c).ctx n = s.ctx n := rfl
@[simp] theorem State.ctx_setQueue (s : State) (q : Nat) (c : Queue) (n : Nat) : (s.setQueue q c).ctx n = s.ctx n := rfl
@[simp] theorem State.ctx_setGang (s : State) (x : Gang) (n : Nat) : (s.setGang x).ctx n = s.ctx n := rfl
@[simp] theorem State.ctx_send (s : State) (o : Out) (n : Nat) : (s.send o).ctx n = s.ctx n := rfl
@[simp] theorem State.ctx_tick (s : State) (n : Nat) : (s.tick).ctx n = s.ctx n := rfl
@[simp] theorem State.core_setCtx (s : State) (g : Nat) (c : Ctx) (n : Nat) : (s.setCtx g c).core n = s.core n := rfl
@[simp] theorem State.core_setMe (s : State) (c : Ctx) (n : Nat) : (s.setMe c).core n = s.core n := rfl
@[simp] theorem State.core_setCl (s : State) (k : Nat) (c : Cluster) (n : Nat) : (s.setCl k c).core n = s.core n := rfl
@[simp] theorem State.core_setSlice (s : State) (k : Nat) (c : Slice) (n : Nat) : (s.setSlice k c).core n = s.core n := rfl
@[simp] theorem State.core_setQueue (s : State) (q : Nat) (c : Queue) (n : Nat) : (s.setQueue q c).core n = s.core n := rfl
@[simp] theorem State.core_setGang (s : State) (x : Gang) (n : Nat) : (s.setGang x).core n = s.core n := rfl
@[simp] theorem State.core_send (s : State) (o : Out) (n : Nat) : (s.send o).core n = s.core n := rfl
@[simp] theorem State.core_tick (s : State) (n : Nat) : (s.tick).core n = s.core n := rfl
@[simp] theorem State.cl_setCtx (s : State) (g : Nat) (c : Ctx) (n : Nat) : (s.setCtx g c).cl n = s.cl n := rfl
@[simp] theorem State.cl_setMe (s : State) (c : Ctx) (n : Nat) : (s.setMe c).cl n = s.cl n := rfl
@[simp] theorem State.cl_setCore (s : State) (k : Nat) (c : Core) (n : Nat) : (s.setCore k c).cl n = s.cl n := rfl
@[simp] theorem State.cl_setSlice (s : State) (k : Nat) (c : Slice) (n : Nat) : (s.setSlice k c).cl n = s.cl n := rfl
@[simp] theorem State.cl_setQueue (s : State) (q : Nat) (c : Queue) (n : Nat) : (s.setQueue q c).cl n = s.cl n := rfl
@[simp] theorem State.cl_setGang (s : State) (x : Gang) (n : Nat) : (s.setGang x).cl n = s.cl n := rfl
@[simp] theorem State.cl_send (s : State) (o : Out) (n : Nat) : (s.send o).cl n = s.cl n := rfl
@[simp] theorem State.cl_tick (s : State) (n : Nat) : (s.tick).cl n = s.cl n := rfl
@[simp] theorem State.slice_setCtx (s : State) (g : Nat) (c : Ctx) (n : Nat) : (s.setCtx g c).slice n = s.slice n := rfl
@[simp] theorem State.slice_setMe (s : State) (c : Ctx) (n : Nat) : (s.setMe c).slice n = s.slice n := rfl
@[simp] theorem State.slice_setCore (s : State) (k : Nat) (c : Core) (n : Nat) : (s.setCore k c).slice n = s.slice n := rfl
@[simp] theorem State.slice_setCl (s : State) (k : Nat) (c : Cluster) (n : Nat) : (s.setCl k c).slice n = s.slice n := rfl
@[simp] theorem State.slice_setQueue (s : State) (q : Nat) (c : Queue) (n : Nat) : (s.setQueue q c).slice n = s.slice n := rfl
@[simp] theorem State.slice_setGang (s : State) (x : Gang) (n : Nat) : (s.setGang x).slice n = s.slice n := rfl
@[simp] theorem State.slice_send (s : State) (o : Out) (n : Nat) : (s.send o).slice n = s.slice n := rfl
@[simp] theorem State.slice_tick (s : State) (n : Nat) : (s.tick).slice n = s.slice n := rfl
@[simp] theorem State.queue_setCtx (s : State) (g : Nat) (c : Ctx) (n : Nat) : (s.setCtx g c).queue n = s.queue n := rfl
@[simp] theorem State.queue_setMe (s : State) (c : Ctx) (n : Nat) : (s.setMe c).queue n = s.queue n := rfl
@[simp] theorem State.queue_setCore (s : State) (k : Nat) (c : Core) (n : Nat) : (s.setCore k c).queue n = s.queue n := rfl
@[simp] theorem State.queue_setCl (s : State) (k : Nat) (c : Cluster) (n : Nat) : (s.setCl k c).queue n = s.queue n := rfl
@[simp] theorem State.queue_setSlice (s : State) (k : Nat) (c : Slice) (n : Nat) : (s.setSlice k c).queue n = s.queue n := rfl
@[simp] theorem State.queue_setGang (s : State) (x : Gang) (n : Nat) : (s.setGang x).queue n = s.queue n := rfl
@[simp] theorem State.queue_send (s : State) (o : Out) (n : Nat) : (s.send o).queue n = s.queue n := rfl
@[simp] theorem State.queue_tick (s : State) (n : Nat) : (s.tick).queue n = s.queue n := rfl

end Sys2Proof.Machine
end

