-- ==== Sys2Proof/Laws/Arch.lean ====
section
/-! SUPPORT. What the operations of memory and of the caches leave alone: the registers of every context, the accumulators and
queues of every cluster, the management space without its queues and
the functions' PCI Express capabilities, and the trust controller. -/

namespace Sys2Proof.Machine
open Sys2Proof

/-- The registers of a context, with its program counter, step and loop. -/
structure CtxArch where
  pc : Word
  s : Vector Word 32
  v : Vector Vec 32
  p : Vector Byte 48
  q : Vector Word 16
  f : Vector Syl 8
  l : Vector (BitVec 32) 6
  bt : Vector Word 4
  win : Vector Window 8
  epc : Word
  estat : Word
  thv : Word
  slim : Word
  ftb : Word
  rqb : Word
  rqn : Word
  world : Word
  rngs : Word
  safeord : Word
  hm : Bool
  eng : Vector (Vector Word 64) 10
  tl : Vector Word 10
  vset : VSet
  loop : Option LoopSt
  xfer : Option Xfer
  steps : Nat
  pend : List Op
  binds : List (Option Bind)
  regs : List PhReg

/-- An operation in progress without what it does to memory. -/
def Op.bare (o : Op) : Op := { o with mem := none }

@[simp] theorem Op.bare_tainted (o : Op) (r : Nat × Nat) : (o.tainted r).bare = o.bare := by
  unfold Op.tainted
  split
  · split <;> rfl
  · rfl

def Ctx.arch (c : Ctx) : CtxArch :=
  ⟨c.pc, c.s, c.v, c.p, c.q, c.f, c.l, c.bt, c.win, c.epc, c.estat, c.thv, c.slim, c.ftb, c.rqb, c.rqn, c.world, c.rngs,
    c.safeord, c.hm, c.eng, c.tl, c.vset, c.loop, c.xfer, c.steps, c.pend.map Op.bare, c.binds, c.regs⟩

/-- What memory operations leave alone of a state. -/
structure Arch where
  ctx : Nat → CtxArch
  cl : Nat → Tab Syl × Latch × List Cmd × List Cmd × Option Nat × Nat × Tab PhRec
  mg : Mgmt
  trust : Trust

def archOf (cs : Tab Ctx) (ks : Tab Cluster) (m : Mgmt) (t : Trust) : Arch :=
  ⟨fun g => (cs.get g Ctx.idle).arch,
    fun k => let c := ks.get k Cluster.init; (c.acc, c.latch, c.mq, c.vq, c.holder, c.tenure, c.active),
    { m with queues := [], pcie := [] }, t⟩

def State.arch (s : State) : Arch := archOf s.ctxs s.clusters s.mg s.trust

@[simp] theorem State.arch_mk (a b c d e f g h i j k m t l n o lo p q r u v w x y z cu is) :
    (State.mk a b c d e f g h i j k m t l n o lo p q r u v w x y z cu is).arch = archOf a c m t := rfl

@[simp] theorem archOf_self (s : State) : archOf s.ctxs s.clusters s.mg s.trust = s.arch := rfl

theorem State.arch_ext {s t : State} (h1 : ∀ g, (s.ctx g).arch = (t.ctx g).arch)
    (h2 : ∀ k, (s.cl k).acc = (t.cl k).acc ∧ (s.cl k).latch = (t.cl k).latch ∧ (s.cl k).mq = (t.cl k).mq ∧
      (s.cl k).vq = (t.cl k).vq ∧ (s.cl k).holder = (t.cl k).holder ∧ (s.cl k).tenure = (t.cl k).tenure ∧
      (s.cl k).active = (t.cl k).active)
    (h3 : { s.mg with queues := [], pcie := [] } = { t.mg with queues := [], pcie := [] }) (h4 : s.trust = t.trust) : s.arch = t.arch := by
  unfold State.arch archOf
  simp only [Arch.mk.injEq, h3, h4, and_true]
  exact ⟨funext h1, funext fun k => by have e := h2 k; simp only [State.cl] at e; simp [e]⟩

@[simp] theorem State.arch_setCtx (s : State) (g : Nat) (c : Ctx) (h : c.arch = (s.ctx g).arch) : (s.setCtx g c).arch = s.arch := by
  apply State.arch_ext <;> try intros
  · rename_i h'; by_cases e : h' = g
    · subst e; simpa using h
    · rw [State.ctx_setCtx_ne _ _ _ _ e]
  all_goals simp [State.cl, State.setCtx]

@[simp] theorem State.arch_setCl (s : State) (k : Nat) (c : Cluster)
    (h : c.acc = (s.cl k).acc ∧ c.latch = (s.cl k).latch ∧ c.mq = (s.cl k).mq ∧ c.vq = (s.cl k).vq ∧
      c.holder = (s.cl k).holder ∧ c.tenure = (s.cl k).tenure ∧ c.active = (s.cl k).active) :
    (s.setCl k c).arch = s.arch := by
  apply State.arch_ext <;> try intros
  · rfl
  · rename_i k'; by_cases e : k' = k
    · subst e; simpa using h
    · rw [State.cl_setCl_ne _ _ _ _ e]; simp
  all_goals rfl

@[simp] theorem State.arch_setCore (s : State) (k : Nat) (c : Core) : (s.setCore k c).arch = s.arch := rfl

@[simp] theorem State.arch_setSlice (s : State) (k : Nat) (c : Slice) : (s.setSlice k c).arch = s.arch := rfl

@[simp] theorem State.arch_send (s : State) (o : Out) : (s.send o).arch = s.arch := rfl

theorem foldl_arch {α : Type} (f : State → α → State) (h : ∀ t x, (f t x).arch = t.arch) (l : List α) (s : State) :
    (l.foldl f s).arch = s.arch := by
  induction l generalizing s with
  | nil => rfl
  | cons a r ih => simp only [List.foldl_cons, ih, h]

theorem foldl_arch1 {α β : Type} (f : State × β → α → State × β) (h : ∀ t x, (f t x).1.arch = t.1.arch) (l : List α)
    (s : State × β) : (l.foldl f s).1.arch = s.1.arch := by
  induction l generalizing s with
  | nil => rfl
  | cons a r ih => simp only [List.foldl_cons, ih, h]

@[simp] theorem State.setSlice_arch (x0 : State) (x1 : Nat) (x2 : Slice) :
    (State.setSlice x0 x1 x2).arch = x0.arch := by
  unfold State.setSlice
  simp

@[simp] theorem State.setQueue_arch (x0 : State) (x1 : Nat) (x2 : Queue) :
    (State.setQueue x0 x1 x2).arch = x0.arch := rfl

@[simp] theorem State.setGang_arch (x0 : State) (x1 : Gang) :
    (State.setGang x0 x1).arch = x0.arch := by
  unfold State.setGang
  simp

@[simp] theorem State.send_arch (x0 : State) (x1 : Out) :
    (State.send x0 x1).arch = x0.arch := by
  unfold State.send
  simp

@[simp] theorem State.noteWalk_arch (x0 : State) (x1 : Nat) :
    (State.noteWalk x0 x1).arch = x0.arch := by
  unfold State.noteWalk
  simp

@[simp] theorem State.memWrite_arch (x0 : State) (x1 : Pte) (x2 : Nat) (x3 : List Byte) :
    (State.memWrite x0 x1 x2 x3).arch = x0.arch := by
  unfold State.memWrite
  grind [State.arch]

@[simp] theorem State.raiseHint_arch (x0 : State) (x1 : Nat) (x2 : BEvent) :
    (State.raiseHint x0 x1 x2).arch = x0.arch := by
  unfold State.raiseHint
  grind [State.arch, State.setSlice_arch]

@[simp] theorem State.wake_arch (x0 : State) (x1 : Nat) :
    (State.wake x0 x1).arch = x0.arch := by
  have h : ∀ (t : Tab Ctx) (g : Nat), (Tab.get (t.map fun (e : Nat × Ctx) =>
      match e.2.monitor with
      | some m => if m.line = x1 then (e.1, { e.2 with monitor := some { m with woken := true } }) else e
      | none => e) g Ctx.idle).arch = (Tab.get t g Ctx.idle).arch := by
    intro t g
    induction t with
    | nil => rfl
    | cons e r ih =>
      rw [List.map_cons]
      generalize hf : (match e.2.monitor with
        | some m => if m.line = x1 then (e.1, { e.2 with monitor := some { m with woken := true } }) else e
        | none => e) = e'
      have h1 : e'.1 = e.1 ∧ e'.2.arch = e.2.arch := by
        rw [← hf]
        split
        · split <;> exact ⟨rfl, rfl⟩
        · exact ⟨rfl, rfl⟩
      simp only [Tab.get, h1.1]
      split
      · exact h1.2
      · exact ih
  apply State.arch_ext
  · intro g; exact h x0.ctxs g
  all_goals simp [State.wake, State.cl]

@[simp] theorem State.writeBack_arch (x0 : State) (x1 : Nat) (x2 : Line) (x3 : Nat) (x4 : Nat) :
    (State.writeBack x0 x1 x2 x3 x4).arch = x0.arch := by
  induction x4 generalizing x0 x3 with
  | zero => rfl
  | succ n ih =>
    unfold State.writeBack
    rw [ih]
    split
    · simp only []
      split <;> simp
    · rfl

@[simp] theorem State.evict_arch (x0 : State) (x1 : Nat) (x2 : Nat) :
    (State.evict x0 x1 x2).arch = x0.arch := by
  unfold State.evict
  grind [State.arch, State.wake_arch, State.raiseHint_arch, State.setSlice_arch, State.writeBack_arch]

@[simp] theorem State.makeRoom_arch (x0 : State) (x1 : Nat) (x2 : Nat) (x3 : Machine.Acc) (x4 : BitVec 2) (x5 : Bool) :
    (State.makeRoom x0 x1 x2 x3 x4 x5).1.arch = x0.arch := by
  unfold State.makeRoom
  grind [State.arch, State.evict_arch]

@[simp] theorem State.newLine_arch (x0 : State) (x1 : Nat) (x2 : Nat) (x3 : Machine.Acc) (x4 : BitVec 2) :
    (State.newLine x0 x1 x2 x3 x4).arch = x0.arch := by
  unfold State.newLine
  simp

@[simp] theorem State.fillSector_arch (x0 : State) (x1 : Nat) (x2 : Nat) (x3 : Pte) (x4 : Machine.Acc) :
    (State.fillSector x0 x1 x2 x3 x4).arch = x0.arch := by
  unfold State.fillSector
  grind [State.arch, State.raiseHint_arch, State.setSlice_arch]

@[simp] theorem State.heal_arch (x0 : State) (x1 : Nat) (x2 : Machine.Acc) :
    (State.heal x0 x1 x2).arch = x0.arch := by
  unfold State.heal
  grind [State.arch, State.fillSector_arch, State.noteWalk_arch]

@[simp] theorem State.fetch_arch (x0 : State) (x1 : Nat) (x2 : Machine.Acc) (x3 : Bool) (x4 : Bool) (x5 : Bool) :
    (State.fetch x0 x1 x2 x3 x4 x5).1.arch = x0.arch := by
  unfold State.fetch
  grind [State.arch, State.newLine_arch, State.raiseHint_arch, State.makeRoom_arch, State.fillSector_arch,
    State.noteWalk_arch]

@[simp] theorem State.arrive_arch (x0 : State) (x1 : Nat) (x2 : Fill) :
    (State.arrive x0 x1 x2).arch = x0.arch := by
  unfold State.arrive
  grind [State.arch, State.fetch_arch, State.setSlice_arch]

@[simp] theorem State.awaitFill_arch (x0 : State) (x1 : Nat) :
    (State.awaitFill x0 x1).arch = x0.arch := by
  unfold State.awaitFill
  grind [State.arch, State.arrive_arch]

@[simp] theorem State.bring_arch (x0 : State) (x1 : Nat) (x2 : Machine.Acc) (x3 : Bool) (x4 : Bool) (x5 : Bool) :
    (State.bring x0 x1 x2 x3 x4 x5).1.arch = x0.arch := by
  unfold State.bring
  grind [State.arch, State.awaitFill_arch, State.heal_arch, State.fetch_arch]

@[simp] theorem State.place_arch (x0 : State) (x1 : Nat) (x2 : Machine.Acc) (x3 : Bool) :
    (State.place x0 x1 x2 x3).1.arch = x0.arch := by
  unfold State.place
  grind [State.arch, State.newLine_arch, State.awaitFill_arch, State.raiseHint_arch, State.makeRoom_arch,
    State.setSlice_arch, State.noteWalk_arch]

@[simp] theorem State.touch_arch (x0 : State) (x1 : Nat) :
    (State.touch x0 x1).arch = x0.arch := by
  unfold State.touch
  grind [State.arch, State.setSlice_arch]

@[simp] theorem State.homeRead_arch (x0 : State) (x1 : Nat) (x2 : Nat) (x3 : Machine.Acc) (x4 : Bool) (x5 : optParam Bool
  Bool.false) :
    (State.homeRead x0 x1 x2 x3 x4 x5).1.arch = x0.arch := by
  unfold State.homeRead
  grind [State.arch, State.touch_arch, State.bring_arch]

@[simp] theorem State.l1Update_arch (x0 : State) (x1 : Nat) (x2 : Nat) (x3 : List Byte) (x4 : Byte) :
    (State.l1Update x0 x1 x2 x3 x4).arch = x0.arch := by
  unfold State.l1Update
  simp only []
  (repeat' split) <;> first | (simp []; done) | grind [State.arch]

@[simp] theorem State.answer_arch (x0 : State) (x1 : Nat) (x2 : Nat) (x3 : Word) (x4 : Nat) :
    (State.answer x0 x1 x2 x3 x4).arch = x0.arch := by
  unfold State.answer
  exact State.arch_setCtx _ _ _ rfl

@[simp] theorem State.answerDeferred_arch (x0 : State) (x1 : Nat) (x2 : Nat) (x3 : Nat) (x4 : List Defer) :
    (State.answerDeferred x0 x1 x2 x3 x4).arch = x0.arch := by
  fun_induction State.answerDeferred x0 x1 x2 x3 x4 <;> first
    | (simp_all; done)
    | (simp_all; done)
    | grind [State.arch, State.answer_arch, State.l1Update_arch, State.setSlice_arch]

@[simp] theorem State.putBlock_arch (x0 : State) (x1 : Nat) (x2 : Byte) (x3 : List (Nat × Byte)) :
    (State.putBlock x0 x1 x2 x3).arch = x0.arch := by
  unfold State.putBlock
  grind [State.arch, State.setSlice_arch]

@[simp] theorem State.putBlockMem_arch (x0 : State) (x1 : Nat) (x2 : Byte) (x3 : List (Nat × Byte)) :
    (State.putBlockMem x0 x1 x2 x3).arch = x0.arch := by
  unfold State.putBlockMem
  grind [State.arch, State.memWrite_arch]

@[simp] theorem State.bringAll_arch (x0 : State) (x1 : Machine.Acc) (x2 : Bool) (x3 : List (Nat × Byte)) (x4 : List Nat) :
    (State.bringAll x0 x1 x2 x3 x4).1.arch = x0.arch := by
  fun_induction State.bringAll x0 x1 x2 x3 x4 <;> first
    | (simp_all [Prod.ext_iff]; done)
    | (simp_all; done)
    | grind [State.arch, State.place_arch, State.bring_arch]

@[simp] theorem State.afterWrite_arch (x0 : State) (x1 : Nat) (x2 : Nat) (x3 : Machine.Acc) :
    (State.afterWrite x0 x1 x2 x3).arch = x0.arch := by
  unfold State.afterWrite
  grind [State.arch, State.answerDeferred_arch, State.wake_arch, State.setSlice_arch]

@[simp] theorem State.performTxn_arch (x0 : State) (x1 : Machine.Acc) (x2 : List (Nat × Byte)) (x3 : Bool) (x4 : Nat) :
    (State.performTxn x0 x1 x2 x3 x4).1.arch = x0.arch := by
  have h := State.bringAll_arch x0 x1 x3 x2 (sectorsOf x2)
  unfold State.performTxn
  split
  · rfl
  · split <;> rename_i e <;> rw [e] at h <;> simp only [] at h ⊢ <;> try exact h
    split <;> simp [foldl_arch, h]

@[simp] theorem State.writeTxn_arch (x0 : State) (x1 : Acc) (x2 : List (Nat × Byte)) (x3 : Bool) (x4 : Nat) (x5 : LateEnd) :
    (State.writeTxn x0 x1 x2 x3 x4 x5).1.arch = x0.arch := by
  unfold State.writeTxn
  grind [State.arch, State.performTxn_arch]

@[simp] theorem State.versionOf_arch (x0 : State) (x1 : Nat) (x2 : Machine.Acc) :
    (State.versionOf x0 x1 x2).1.arch = x0.arch := by
  unfold State.versionOf
  grind [State.arch, State.bring_arch]

@[simp] theorem State.homeBytes_arch (x0 : State) (x1 : Machine.Acc) (x2 : Nat) (x3 : Nat) (x4 : Nat) :
    (State.homeBytes x0 x1 x2 x3 x4).1.arch = x0.arch := by
  induction x2 generalizing x0 x3 x4 with
  | zero => rfl
  | succ n ih =>
    unfold State.homeBytes
    simp only []
    repeat' split
    all_goals grind [State.homeRead_arch]

@[simp] theorem State.homeMany_arch (x0 : State) (x1 : Machine.Acc) (x2 : Nat) (x3 : Nat) :
    (State.homeMany x0 x1 x2 x3).1.arch = x0.arch := by
  unfold State.homeMany
  simp

@[simp] theorem State.sectorWrites_arch (x0 : State) (x1 : Acc) (x2 : LateEnd) (x3 : Nat) (x4 : Nat) (x5 : List Byte) :
    (State.sectorWrites x0 x1 x2 x3 x4 x5).1.arch = x0.arch := by
  induction x3 generalizing x0 x4 x5 with
  | zero => rfl
  | succ n ih =>
    unfold State.sectorWrites
    simp only []
    repeat' split
    all_goals grind [State.writeTxn_arch]

@[simp] theorem State.setAsync_arch (x0 : State) (x1 : Nat) (x2 : Nat) :
    (State.setAsync x0 x1 x2).arch = x0.arch := by
  unfold State.setAsync
  dsimp only
  split <;> first | rfl | exact State.arch_setCtx _ _ _ rfl

@[simp] theorem State.l1Send_arch (x0 : State) (x1 : Nat) (x2 : Nat) (x3 : BitVec 256) (x4 : Scope × Nat) :
    (State.l1Send x0 x1 x2 x3 x4).arch = x0.arch := by
  unfold State.l1Send
  dsimp only
  split
  · rfl
  · split
    · rfl
    · have k := fun t a ws => State.writeTxn_arch t a ws false
      split <;> rename_i e <;> have h := congrArg (fun z => z.1.arch) e <;>
        simp only [k, State.arch_setCore] at h <;> simp [← h]

@[simp] theorem State.l1WriteBack_arch (x0 : State) (x1 : Nat) (x2 : Nat) (x3 : Scope × Nat) :
    (State.l1WriteBack x0 x1 x2 x3).arch = x0.arch := by
  unfold State.l1WriteBack
  simp

@[simp] theorem State.l1Inval_arch (x0 : State) (x1 : Nat) (x2 : Nat) (x3 : Scope × Nat) :
    (State.l1Inval x0 x1 x2 x3).arch = x0.arch := by
  unfold State.l1Inval
  simp only []
  (repeat' split) <;> first | (simp [State.l1WriteBack_arch]; done) | grind [State.arch, State.l1WriteBack_arch]

@[simp] theorem State.l1Evict_arch (x0 : State) (x1 : Nat) (x2 : Nat) :
    (State.l1Evict x0 x1 x2).arch = x0.arch := by
  unfold State.l1Evict
  (repeat' split) <;> simp

@[simp] theorem State.l1Room_arch (x0 : State) (x1 : Nat) (x2 : Nat) :
    (State.l1Room x0 x1 x2).1.arch = x0.arch := by
  unfold State.l1Room
  grind [State.arch, State.l1Evict_arch]

@[simp] theorem State.checkFill_arch (x0 : State) (x1 : Nat) (x2 : Nat) :
    (State.checkFill x0 x1 x2).1.arch = x0.arch := by
  unfold State.checkFill
  grind [State.arch, State.setSlice_arch]

@[simp] theorem State.l1Load_arch (x0 : State) (x1 : Nat) (x2 : Nat) (x3 : Nat) (x4 : Nat) (x5 : Acc) :
    (State.l1Load x0 x1 x2 x3 x4 x5).1.arch = x0.arch := by
  unfold State.l1Load
  (try dsimp only) <;> grind (splits := 30) [Ctx.arch, State.arch_setCtx, State.arch_setCl, State.arch_setCore,
    State.arch_send, State.arch_setSlice, State.arch_mk, archOf_self, State.homeRead_arch, State.l1Room_arch,
      State.checkFill_arch]

@[simp] theorem State.l1Store_arch (x0 : State) (x1 : Nat) (x2 : Nat) (x3 : Nat) (x4 : List Byte) (x5 : Acc) (x6 : Bool) :
    (State.l1Store x0 x1 x2 x3 x4 x5 x6).1.arch = x0.arch := by
  unfold State.l1Store
  (try dsimp only) <;> grind (splits := 30) [Ctx.arch, State.arch_setCtx, State.arch_setCl, State.arch_setCore,
    State.arch_send, State.arch_setSlice, State.arch_mk, archOf_self, State.writeTxn_arch, State.setAsync_arch,
      State.l1Room_arch]

@[simp] theorem State.dropBuffered_arch (x0 : State) (x1 : Nat) :
    (State.dropBuffered x0 x1).arch = x0.arch := by
  unfold State.dropBuffered
  simp

@[simp] theorem State.sendFirst_arch (x0 : State) (x1 : Nat) (x2 : Nat) (x3 : Byte) (x4 : Nat) :
    (State.sendFirst x0 x1 x2 x3 x4).arch = x0.arch := by
  unfold State.sendFirst
  simp

@[simp] theorem State.l1SendRange_arch (x0 : State) (x1 : Nat) (x2 : Nat) (x3 : Nat) (x4 : Scope × Nat) :
    (State.l1SendRange x0 x1 x2 x3 x4).arch = x0.arch := by
  unfold State.l1SendRange
  (repeat' split) <;> simp [foldl_arch]

@[simp] theorem State.l1InvalRange_arch (x0 : State) (x1 : Nat) (x2 : Nat) (x3 : Nat) (x4 : Scope × Nat) :
    (State.l1InvalRange x0 x1 x2 x3 x4).arch = x0.arch := by
  unfold State.l1InvalRange
  (repeat' split) <;> simp [foldl_arch]

@[simp] theorem State.l1FlushAll_arch (x0 : State) (x1 : Nat) (x2 : Scope × Nat) :
    (State.l1FlushAll x0 x1 x2).arch = x0.arch := by
  unfold State.l1FlushAll
  (repeat' split) <;> simp [foldl_arch]

@[simp] theorem State.releaseMarks_arch (x0 : State) (x1 : Nat) :
    (State.releaseMarks x0 x1).arch = x0.arch := by
  unfold State.releaseMarks
  simp

@[simp] theorem State.setPfn_arch (x0 : State) (x1 : Option Nat) (x2 : PcieFn) :
    (State.setPfn x0 x1 x2).arch = x0.arch := rfl

@[simp] theorem State.raise_arch (x0 : State) (x1 : Option Nat) (x2 : Nat) :
    (State.raise x0 x1 x2).arch = x0.arch := by
  unfold State.raise
  grind [State.arch, State.setPfn_arch, State.send_arch]

@[simp] theorem State.journalMsg_arch (x0 : State) (x1 : Nat) :
    (State.journalMsg x0 x1).arch = x0.arch := by
  unfold State.journalMsg
  grind [State.arch, State.raise_arch]

@[simp] theorem State.ringWrite_arch (x0 : State) (x1 : Nat) (x2 : Word) (x3 : Nat) (x4 : List Byte) :
    (State.ringWrite x0 x1 x2 x3 x4).1.arch = x0.arch := by
  unfold State.ringWrite
  (try dsimp only) <;> grind (splits := 30) [Ctx.arch, State.arch_setCtx, State.arch_setCl, State.arch_setCore,
    State.arch_send, State.arch_setSlice, State.arch_mk, archOf_self, State.writeTxn_arch]

@[simp] theorem State.jput_arch (x0 : State) (x1 : Nat) (x2 : List Byte) :
    (State.jput x0 x1 x2).arch = x0.arch := by
  unfold State.jput
  grind [State.arch, State.setQueue_arch, State.journalMsg_arch, State.ringWrite_arch]

@[simp] theorem State.journal_arch (x0 : State) (x1 : Nat) (x2 : Word) (x3 : Nat) (x4 : Nat) (x5 : Nat) (x6 : Word) :
    (State.journal x0 x1 x2 x3 x4 x5 x6).arch = x0.arch := by
  unfold State.journal
  grind [State.arch, State.setQueue_arch, State.place_arch, State.jput_arch]

@[simp] theorem State.notice_arch (x0 : State) (x1 : Nat) (x2 : Nat) (x3 : Word) :
    (State.notice x0 x1 x2 x3).arch = x0.arch := by
  unfold State.notice
  grind [State.arch, State.setQueue_arch, State.journal_arch]

@[simp] theorem State.lateDone_arch (x0 : State) (x1 : Nat) (x2 : LateEnd) (x3 : Res Unit) :
    (State.lateDone x0 x1 x2 x3).arch = x0.arch := by
  unfold State.lateDone
  grind [State.arch, State.setAsync_arch, State.notice_arch]

@[simp] theorem State.retryLate_arch (x0 : State) (x1 : LateTxn) :
    (State.retryLate x0 x1).arch = x0.arch := by
  unfold State.retryLate
  grind [State.arch, State.homeRead_arch, State.performTxn_arch, State.setAsync_arch, State.lateDone_arch]

@[simp] theorem State.pfMsg_arch (x0 : State) (x1 : Nat) :
    (State.pfMsg x0 x1).arch = x0.arch := by
  unfold State.pfMsg
  simp

@[simp] theorem State.noticeAll_arch (x0 : State) (x1 : Nat) (x2 : Word) :
    (State.noticeAll x0 x1 x2).arch = x0.arch := by
  unfold State.noticeAll
  (repeat' split) <;> simp [foldl_arch]

@[simp] theorem State.owlPut_arch (x0 : State) (x1 : Nat) (x2 : List Byte) :
    (State.owlPut x0 x1 x2).arch = x0.arch := by
  unfold State.owlPut
  (try dsimp only) <;> grind (splits := 30) [Ctx.arch, State.arch_setCtx, State.arch_setCl, State.arch_setCore,
    State.arch_send, State.arch_setSlice, State.arch_mk, archOf_self, State.writeTxn_arch]

@[simp] theorem State.owlLost_arch (x0 : State) (x1 : Nat) (x2 : Nat) :
    (State.owlLost x0 x1 x2).arch = x0.arch := by
  unfold State.owlLost
  extract_lets
  split
  · rfl
  · exact (State.arch_setCl _ _ _ (by exact ⟨rfl, rfl, rfl, rfl, rfl, rfl, rfl⟩)).trans (State.owlPut_arch _ _ _)

@[simp] theorem State.owlAt_arch (x0 : State) (x1 : Nat) (x2 : Nat) (x3 : Nat) (x4 : Nat) (x5 : Nat) (x6 : List Byte) :
    (State.owlAt x0 x1 x2 x3 x4 x5 x6).arch = x0.arch := by
  unfold State.owlAt
  extract_lets
  split
  · rfl
  · split
    · exact (State.arch_setCl _ _ _ (by exact ⟨rfl, rfl, rfl, rfl, rfl, rfl, rfl⟩)).trans (State.owlLost_arch _ _ _)
    · exact (State.owlPut_arch _ _ _).trans (State.owlLost_arch _ _ _)

@[simp] theorem State.owl_arch (x0 : State) (x1 : Nat) (x2 : Nat) (x3 : Nat) (x4 : Nat) (x5 : List Byte) :
    (State.owl x0 x1 x2 x3 x4 x5).arch = x0.arch := by
  unfold State.owl
  simp

@[simp] theorem State.scopeRecord_arch (x0 : State) (x1 : Nat) (x2 : Nat × Nat × Nat) :
    (State.scopeRecord x0 x1 x2).arch = x0.arch := by
  unfold State.scopeRecord
  simp

@[simp] theorem State.wrapped_arch (x0 : State) (x1 : CntEv) (x2 : Nat) :
    (State.wrapped x0 x1 x2).arch = x0.arch := by
  unfold State.wrapped
  refine (State.arch_setCl x0 (clusterOf x1.g) _ ?_ : (x0.setCl (clusterOf x1.g) _).arch = _)
  exact ⟨rfl, rfl, rfl, rfl, rfl, rfl, rfl⟩

@[simp] theorem State.countOne_arch (x0 : State) (x1 : CntEv) (x2 : Nat) :
    (State.countOne x0 x1 x2).arch = x0.arch := by
  unfold State.countOne
  simp only []
  (repeat' split) <;> first | (simp [State.wrapped_arch]; done) | grind [State.arch, State.wrapped_arch]

@[simp] theorem State.countEvent_arch (x0 : State) (x1 : CntEv) :
    (State.countEvent x0 x1).arch = x0.arch := by
  unfold State.countEvent
  (repeat' split) <;> simp [foldl_arch]

@[simp] theorem State.haltPool_arch (x0 : State) (x1 : Nat) (x2 : Nat) (x3 : Nat) (x4 : Nat) (x5 : Nat) :
    (State.haltPool x0 x1 x2 x3 x4 x5).arch = x0.arch := by
  unfold State.haltPool
  grind [State.arch, State.setGang_arch, State.writeTxn_arch, State.notice_arch]

@[simp] theorem State.taskFail_arch (x0 : State) (x1 : Nat) (x2 : Bool) :
    (State.taskFail x0 x1 x2).arch = x0.arch := by
  unfold State.taskFail
  dsimp only
  have h : ((x0.setCtx x1 { x0.ctx x1 with task := none }).dropBuffered x1).arch = x0.arch := by
    rw [State.dropBuffered_arch]
    exact State.arch_setCtx _ _ _ rfl
  (repeat' split) <;> first | rfl | exact h | simp only [State.haltPool_arch, State.setGang_arch, h]

@[simp] theorem State.sendRemote_arch (x0 : State) (x1 : Nat) (x2 : Nat) (x3 : Window) (x4 : List Byte) :
    (State.sendRemote x0 x1 x2 x3 x4).arch = x0.arch := by
  unfold State.sendRemote
  simp

@[simp] theorem State.taintRanges_arch (x0 : State) (x1 : Nat) (x2 : Nat) (x3 : Nat) :
    (State.taintRanges x0 x1 x2 x3).arch = x0.arch := by
  unfold State.taintRanges
  dsimp only
  rw [State.arch_setCtx]
  · rfl
  · simp [Ctx.arch, Function.comp_def]

@[simp] theorem State.bankWrite_arch (x0 : State) (x1 : Nat) (x2 : Nat) (x3 : List Byte) :
    (State.bankWrite x0 x1 x2 x3).arch = x0.arch := by
  unfold State.bankWrite
  simp

@[simp] theorem State.breakPhasers_arch (x0 : State) (x1 : Nat) (x2 : Nat) (x3 : Nat) :
    (State.breakPhasers x0 x1 x2 x3).arch = x0.arch := by
  unfold State.breakPhasers
  simp only []
  (repeat' split) <;> first | (simp []; done) | grind [State.arch]

@[simp] theorem State.bankStore_arch (x0 : State) (x1 : Nat) (x2 : Nat) (x3 : Nat) (x4 : List Byte) :
    (State.bankStore x0 x1 x2 x3 x4).arch = x0.arch := by
  unfold State.bankStore
  grind [State.arch, State.bankWrite_arch, State.breakPhasers_arch, State.taintRanges_arch]

@[simp] theorem State.setLdf_arch (x0 : State) (x1 : Nat) (x2 : Nat) (x3 : Ldf → Ldf) :
    (State.setLdf x0 x1 x2 x3).arch = x0.arch := by
  unfold State.setLdf
  exact State.arch_setCtx _ _ _ rfl

@[simp] theorem State.performLdf_arch (x0 : State) (x1 : Nat) (x2 : Nat) :
    (State.performLdf x0 x1 x2).arch = x0.arch := by
  unfold State.performLdf
  (try dsimp only) <;> grind (splits := 30) [Ctx.arch, State.arch_setCtx, State.arch_setCl, State.arch_setCore,
    State.arch_send, State.arch_setSlice, State.arch_mk, archOf_self, State.homeRead_arch, State.answer_arch,
      State.setAsync_arch, State.sendFirst_arch, State.l1Update_arch, State.setLdf_arch]

@[simp] theorem State.performLdfs_arch (x0 : State) (x1 : Nat) (x2 : Ldf → Bool) :
    (State.performLdfs x0 x1 x2).arch = x0.arch := by
  unfold State.performLdfs
  (repeat' split) <;> simp [foldl_arch]

@[simp] theorem State.sendSpans_arch (x0 : State) (x1 : Nat) (x2 : Scope) (x3 : List (Nat × Nat)) :
    (State.sendSpans x0 x1 x2 x3).arch = x0.arch := by
  unfold State.sendSpans
  (repeat' split) <;> simp [foldl_arch]

@[simp] theorem State.dropSpans_arch (x0 : State) (x1 : Nat) (x2 : List (Nat × Nat)) :
    (State.dropSpans x0 x1 x2).arch = x0.arch := by
  unfold State.dropSpans
  (repeat' split) <;> simp [foldl_arch]

@[simp] theorem State.release_arch (x0 : State) (x1 : Nat) (x2 : ObjId) :
    (State.release x0 x1 x2).arch = x0.arch := by
  unfold State.release
  simp only []
  (repeat' split) <;> first
    | (simp_all [foldl_arch, apply_ite State.arch]; done)
    | (simp_all [Prod.ext_iff, foldl_arch]; (repeat' split) <;> simp; done)

@[simp] theorem State.acquire_arch (x0 : State) (x1 : Nat) (x2 : ObjId) :
    (State.acquire x0 x1 x2).arch = x0.arch := by
  unfold State.acquire
  simp only []
  (repeat' split) <;> first
    | (simp_all [foldl_arch, apply_ite State.arch]; done)
    | (simp_all [Prod.ext_iff, foldl_arch]; (repeat' split) <;> simp; done)

@[simp] theorem State.before_arch (x0 : State) (x1 : Nat) (x2 : Place) (x3 : Bool) :
    (State.before x0 x1 x2 x3).arch = x0.arch := by
  unfold State.before
  grind [State.arch, State.release_arch]

@[simp] theorem State.after_arch (x0 : State) (x1 : Nat) (x2 : Place) (x3 : Bool) :
    (State.after x0 x1 x2 x3).arch = x0.arch := by
  unfold State.after
  grind [State.arch, State.acquire_arch]

@[simp] theorem State.noteReport_arch (x0 : State) (x1 : Nat) (x2 : Nat) (x3 : Option (Scope × Nat)) :
    (State.noteReport x0 x1 x2 x3).arch = x0.arch := by
  unfold State.noteReport
  dsimp only
  (repeat' split) <;> first | rfl | exact State.arch_setCtx _ _ _ rfl | simp

@[simp] theorem State.failed_arch {α : Type} (x1 : State) (x2 : Nat) (x3 : Res α) :
    (State.failed x1 x2 x3).arch = x1.arch := by
  unfold State.failed
  grind [State.arch, State.setAsync_arch]

@[simp] theorem State.ahead_arch (x0 : State) (x1 : Nat) (x2 : Nat) (x3 : Byte) :
    (State.ahead x0 x1 x2 x3).arch = x0.arch := by
  unfold State.ahead
  simp

@[simp] theorem State.overlapped_arch (x0 : State) (x1 : Nat) (x2 : Nat) (x3 : Nat) :
    (State.overlapped x0 x1 x2 x3).arch = x0.arch := by
  unfold State.overlapped
  simp

@[simp] theorem State.homeLoad_arch (x0 : State) (x1 : Nat) (x2 : Nat) (x3 : Nat) (x4 : Machine.Acc) (x5 : Bool) (x6 :
  optParam Bool Bool.false) :
    (State.homeLoad x0 x1 x2 x3 x4 x5 x6).1.arch = x0.arch := by
  unfold State.homeLoad
  grind [State.arch, State.ahead_arch, State.l1Update_arch, State.homeRead_arch]

@[simp] theorem State.loadAt_arch (x0 : State) (x1 : Nat) (x2 : Place) (x3 : Nat) (x4 : Bool) :
    (State.loadAt x0 x1 x2 x3 x4).1.arch = x0.arch := by
  unfold State.loadAt
  grind [State.arch, State.overlapped_arch, State.checkFill_arch, State.homeLoad_arch, State.failed_arch,
    State.noteReport_arch, State.l1Load_arch]

@[simp] theorem State.homeStore_arch (x0 : State) (x1 : Nat) (x2 : Nat) (x3 : List Byte) (x4 : Acc) (x5 : Bool) :
    (State.homeStore x0 x1 x2 x3 x4 x5).arch = x0.arch := by
  unfold State.homeStore
  grind [State.arch, State.l1Update_arch, State.writeTxn_arch, State.setAsync_arch, State.ahead_arch]

@[simp] theorem State.storeAt_arch (x0 : State) (x1 : Nat) (x2 : Place) (x3 : List Byte) (x4 : Bool) (x5 : Bool) :
    (State.storeAt x0 x1 x2 x3 x4 x5).arch = x0.arch := by
  unfold State.storeAt
  grind [State.arch, State.l1Store_arch, State.taskFail_arch, State.sendRemote_arch, State.bankStore_arch,
    State.overlapped_arch, State.homeStore_arch]

@[simp] theorem State.sendOp_arch (x0 : State) (x1 : Nat) (x2 : Nat) (x3 : Byte) (x4 : Syl) (x5 : Word) (x6 : Word) :
    (State.sendOp x0 x1 x2 x3 x4 x5 x6).arch = x0.arch := by
  unfold State.sendOp
  grind [State.arch, State.send_arch]

@[simp] theorem State.flushComb_arch (x0 : State) (x1 : Nat) (x2 : Nat) :
    (State.flushComb x0 x1 x2).arch = x0.arch := by
  unfold State.flushComb
  simp only []
  (repeat' split) <;> first
    | (simp [State.retryLate_arch]; done)
    | grind [State.arch, State.retryLate_arch, State.send_arch]

@[simp] theorem State.flushCombs_arch (x0 : State) (x1 : Nat) :
    (State.flushCombs x0 x1).arch = x0.arch := by
  unfold State.flushCombs
  (repeat' split) <;> simp [foldl_arch]

@[simp] theorem State.fenceAt_arch (x0 : State) (x1 : Nat) (x2 : Scope) :
    (State.fenceAt x0 x1 x2).arch = x0.arch := by
  unfold State.fenceAt
  grind [State.arch, okey, tkey, State.releaseMarks_arch, State.l1FlushAll_arch, State.flushCombs_arch,
    State.performLdfs_arch]

@[simp] theorem State.wordVer_arch (x0 : State) (x1 : Nat) (x2 : Place) (x3 : Bool) :
    (State.wordVer x0 x1 x2 x3).1.arch = x0.arch := by
  unfold State.wordVer
  grind [State.arch, State.homeLoad_arch, State.failed_arch]

@[simp] theorem State.atomBank_arch (x0 : State) (x1 : Nat) (x2 : Nat) (x3 : Nat) (x4 : Nat) (x5 : Bool) (x6 : Word) (x7
  : Word) :
    (State.atomBank x0 x1 x2 x3 x4 x5 x6 x7).1.arch = x0.arch := by
  unfold State.atomBank
  grind [State.arch, State.bankStore_arch]

@[simp] theorem State.atomHome_arch (x0 : State) (x1 : Nat) (x2 : Nat) (x3 : Machine.Acc) (x4 : Nat) (x5 : Bool) (x6 :
  Bool) (x7 : Word) (x8 : Word) :
    (State.atomHome x0 x1 x2 x3 x4 x5 x6 x7 x8).1.arch = x0.arch := by
  unfold State.atomHome
  grind [State.arch, State.homeStore_arch, State.homeLoad_arch, State.setAsync_arch]

@[simp] theorem State.combTake_arch (x0 : State) (x1 : Nat) (x2 : Nat) (x3 : Word) :
    (State.combTake x0 x1 x2 x3).1.arch = x0.arch := by
  unfold State.combTake
  simp only []
  (repeat' split) <;> first | (simp []; done) | grind [State.arch]

@[simp] theorem State.combFull_arch (x0 : State) (x1 : Nat) (x2 : Nat) :
    (State.combFull x0 x1 x2).arch = x0.arch := by
  unfold State.combFull
  grind [State.arch, State.flushComb_arch]

@[simp] theorem State.atomComb_arch (x0 : State) (x1 : Nat) (x2 : Place) (x3 : Nat) (x4 : Bool) (x5 : Word) :
    (State.atomComb x0 x1 x2 x3 x4 x5).1.arch = x0.arch := by
  unfold State.atomComb
  simp only []
  (repeat' split) <;> first
    | (simp [State.combFull_arch, State.flushComb_arch, State.combTake_arch, State.homeLoad_arch,
      State.failed_arch]; done)
    | grind [State.arch, State.combFull_arch, State.flushComb_arch, State.combTake_arch, State.homeLoad_arch,
      State.failed_arch]

@[simp] theorem State.readControl_arch (x0 : State) (x1 : Nat) (x2 : Nat) (x3 : Nat × Nat) (x4 : Nat) (x5 : Nat) (x6 :
  Machine.Acc) :
    (State.readControl x0 x1 x2 x3 x4 x5 x6).1.arch = x0.arch := by
  unfold State.readControl
  (try dsimp only) <;> grind (splits := 30) [Ctx.arch, State.arch_setCtx, State.arch_setCl, State.arch_setCore,
    State.arch_send, State.arch_setSlice, State.arch_mk, archOf_self, State.homeMany_arch]

@[simp] theorem State.dropCopies_arch (x0 : State) (x1 : Nat) (x2 : Nat) :
    (State.dropCopies x0 x1 x2).arch = x0.arch := by
  unfold State.dropCopies
  simp

@[simp] theorem State.sendLdf_arch (x0 : State) (x1 : Reg) (x2 : Word) (x3 : Place) (x4 : Bool) :
    (State.sendLdf x0 x1 x2 x3 x4).arch = x0.arch := by
  unfold State.sendLdf
  exact State.arch_setCtx _ _ _ rfl

end Sys2Proof.Machine
end

