-- ==== Sys2Proof/Laws/Issue.lean ====
section
/-! SUPPORT. What the shared operations of an issuing syllable do: issuing an operation (R19, R112, R348), the stack-limit
check (R203, R364), and arming a transfer (R142, R147). -/

namespace Sys2Proof.Machine
open Sys2Proof

/-- An operation issued by a bundle, or from the commit buffer, joins the operations in progress. -/
theorem State.emit_issue {s : State} {o : Op} (h : s.iss.mode ≠ .reissue) :
    s.emit o = s.setMe { s.me with pend := s.me.pend ++ [o] } := by
  unfold State.emit
  split <;> simp_all

/-- A reissued operation writes what is not superseded, after which no older LDF's answer writes it, and ORs its flags. -/
theorem State.emit_reissue {s : State} {o : Op} (h : s.iss.mode = .reissue) :
    s.emit o =
      let ws := o.wr.filter fun w => !s.superseded.contains w.reg
      let c := ws.foldl (fun c w => c.putReg w.reg w.val) (s.me.define (ws.map (·.reg)))
      s.setMe ((c.passLdfs s.iss.step s.iss.slot (ws.map (·.reg))).orFlags o.flags) := by
  unfold State.emit
  rw [h]

/-- An A-slot result that the stack limit does not concern is issued as it is. -/
theorem State.emitA_unlimited {s : State} {d : Reg} {v : Word} {n : Nat} {f : RecForm} {x y : Word}
    (h : d ≠ 2#6 ∨ tagOf s.me.slim ≠ 3 ∨ s.me.hm = true) : s.emitA d v n f x y = s.emit (s.op n [wrS d v] 0 f) := by
  unfold State.emitA
  simp only []
  split
  · rename_i hc
    simp only [Bool.and_eq_true, decide_eq_true_eq, Bool.not_eq_true'] at hc
    obtain ⟨⟨⟨h1, h2⟩, h3⟩, -⟩ := hc
    rcases h with h | h | h <;> simp_all
  · rfl

/-- A result for s2 below an active SLIM is the stack-limit stop. -/
theorem State.emitA_stopped {s : State} {v : Word} {n : Nat} {f : RecForm} {x y : Word} (h1 : tagOf s.me.slim = 3)
    (h2 : s.me.hm = false) (h3 : v.toNat < s.me.slim.toNat) : s.emitA 2#6 v n f x y = s.fault (s.sylFault 0x05 x y n []) := by
  unfold State.emitA
  simp [h1, h2, h3]

/-- Whatever a syllable's result comes to, only the current context changes, or a fault is noted in the latch. -/
theorem State.emitA_cases (s : State) (d : Reg) (v : Word) (n : Nat) (f : RecForm) (x y : Word) :
    (∃ c, s.emitA d v n f x y = s.setMe c) ∨ s.emitA d v n f x y = s.fault (s.sylFault 0x05 x y n []) := by
  unfold State.emitA State.emit
  simp only []
  split
  · exact .inr rfl
  · split <;> exact .inl ⟨_, rfl⟩

/-- A transfer armed by its own bundle. -/
theorem State.arm_issue {s : State} {x : Xfer} (h : s.iss.mode ≠ .reissue) :
    s.arm x = s.setMe { s.me with xfer := some x } := by
  unfold State.arm
  split <;> simp_all

end Sys2Proof.Machine
end

