-- ==== Sys2Proof/Laws/Hold.lean ====
section
/-! SUPPORT. The memory queue of a context (R224, R254, R264, R313): when an operation waits, what the issue of an operation or
of a numbered command then comes to; the completion of phases (R302); and the registers of a badger core (R214). -/

namespace Sys2Proof.Machine
open Sys2Proof

@[simp] theorem heldIn_nil : heldIn [] = [] := rfl

@[simp] theorem heldIn_append (a b : List Op) : heldIn (a ++ b) = heldIn a ++ heldIn b := List.filterMap_append

theorem mem_heldIn {m : MemOp} {pend : List Op} : m ∈ heldIn pend ↔ ∃ o ∈ pend, o.mem = some m := List.mem_filterMap

/-- Whatever it is, an operation other than the read of a CALLT and a TLWAIT waits behind an acquire. -/
theorem State.mustHold_acquire {s : State} {g : Nat} {earlier : List MemOp} {e m : MemOp} (hm : m.afterCbsync = false)
    (he : e ∈ earlier) (ha : e.acq = true) : s.mustHold g earlier m = true := by
  have : earlier.any (fun e => e.acq || s.follows e m) = true := List.any_eq_true.2 ⟨e, he, by simp [ha]⟩
  simp [State.mustHold, hm, this]

/-- A release waits behind whatever waits. -/
theorem State.mustHold_release {s : State} {g : Nat} {earlier : List MemOp} {m : MemOp} (hm : m.afterCbsync = false)
    (he : earlier ≠ []) (hr : m.rls = true) : s.mustHold g earlier m = true := by
  cases earlier with
  | nil => exact absurd rfl he
  | cons e r => simp [State.mustHold, hm, hr]

/-- The read of a CALLT and a TLWAIT wait behind a CBSYNC alone. -/
theorem State.mustHold_afterCbsync {s : State} {g : Nat} {earlier : List MemOp} {m : MemOp} (hm : m.afterCbsync = true) :
    s.mustHold g earlier m = earlier.any (·.isCbsync) := by
  simp [State.mustHold, hm]

/-- An operation that must wait joins the operations in progress with its entry of the queue; where it writes registers, it
is late. -/
theorem State.emitHeld_issue {s : State} {o : Op} {m : MemOp} (h : s.iss.mode ≠ .reissue) :
    s.emitHeld o m =
      s.setMe { s.me with pend := s.me.pend ++ [{ o with mem := some m, late := o.late || !o.dests.isEmpty }] } := by
  unfold State.emitHeld
  split <;> simp_all

/-- A numbered command takes its number, and is performed after the release of its timeline or waits: nothing else. -/
theorem State.issueCmd_cases (s : State) (e : Nat) (c : SyncCmd) (waits : State → Bool) (run : State → Word → State) :
    let v := s.number s.cur e
    let n := v.me.issued e
    let m := v.syncOp e n c
    s.issueCmd e c waits run = run (v.release s.cur (.timeline e)) n ∨
      s.issueCmd e c waits run = v.emitHeld { v.op (if m.dests.isEmpty then 0 else 64) [] 0 .stays with dests := m.dests } m := by
  simp only [State.issueCmd]
  split
  · exact .inr rfl
  · exact .inl rfl

/-- No phase completes while an arrival is missing. -/
theorem PhRec.complete_missing {p : PhRec} (h : p.narr ≠ p.nreg) : ∀ k, p.complete k = p
  | 0 => rfl
  | k + 1 => by simp [PhRec.complete, h]

@[simp] theorem Rv.get_zero (c : Rv) : c.get 0 = 0 := rfl

@[simp] theorem Rv.put_zero (c : Rv) (v : Word) : c.put 0 v = c := rfl

@[simp] theorem Rv.pc_put (c : Rv) (r : Nat) (v : Word) : (c.put r v).pc = c.pc := by
  unfold Rv.put; split <;> rfl

theorem Rv.get_put_self {c : Rv} {r : Nat} {v : Word} (h0 : 0 < r) (h : r < 32) : (c.put r v).get r = v := by
  have h0' : r ≠ 0 := by omega
  simp [Rv.put, Rv.get, h0', vget_vput, h]

end Sys2Proof.Machine
end

