-- ==== Sys2Proof/Laws/Memory.lean ====
section
/-! SUPPORT. The laws of a memory in canonical form: what a read gives after a write, and that every operation keeps the
form. -/

namespace Sys2Proof.Machine
open Sys2Proof

@[simp] theorem Mem.wf_nil : Mem.wf [] := ⟨.nil, by intro c h; cases h⟩

theorem Mem.mem_ins {m : Mem} {a : Nat} {b : Byte} {c : Host.Cell} (h : c ∈ m.ins a b) : c = (a, b) ∨ c ∈ m := by
  induction m with
  | nil => simpa [Mem.ins] using h
  | cons e r ih =>
    unfold Mem.ins at h
    split at h
    · simpa using h
    · split at h
      · rcases List.mem_cons.1 h with h | h
        · exact .inl h
        · exact .inr (List.mem_cons_of_mem _ h)
      · rcases List.mem_cons.1 h with h | h
        · exact .inr (h ▸ List.mem_cons_self)
        · exact (ih h).imp id (List.mem_cons_of_mem _)

theorem Mem.wf_tail {e : Host.Cell} {r : Mem} (h : Mem.wf (e :: r)) : Mem.wf r :=
  ⟨(List.pairwise_cons.1 h.1).2, fun c hc => h.2 c (List.mem_cons_of_mem _ hc)⟩

theorem Mem.wf_ins {m : Mem} (h : m.wf) (a : Nat) (b : Byte) (hb : b ≠ 0#8) : (m.ins a b).wf := by
  induction m with
  | nil => exact ⟨List.pairwise_singleton _ _, by intro c hc; simp [Mem.ins] at hc; exact hc ▸ hb⟩
  | cons e r ih =>
    obtain ⟨hp, hn⟩ := h
    have hp' := List.pairwise_cons.1 hp
    unfold Mem.ins
    split
    · rename_i hlt
      refine ⟨List.pairwise_cons.2 ⟨fun c hc => ?_, hp⟩, fun c hc => ?_⟩
      · rcases List.mem_cons.1 hc with hc | hc
        · exact hc ▸ hlt
        · exact Nat.lt_trans hlt (hp'.1 c hc)
      · rcases List.mem_cons.1 hc with hc | hc
        · exact hc ▸ hb
        · exact hn c hc
    · split
      · rename_i heq
        refine ⟨List.pairwise_cons.2 ⟨fun c hc => heq ▸ hp'.1 c hc, hp'.2⟩, fun c hc => ?_⟩
        rcases List.mem_cons.1 hc with hc | hc
        · exact hc ▸ hb
        · exact hn c (List.mem_cons_of_mem _ hc)
      · rename_i h1 h2
        have hr := ih (Mem.wf_tail ⟨hp, hn⟩)
        refine ⟨List.pairwise_cons.2 ⟨fun c hc => ?_, hr.1⟩, fun c hc => ?_⟩
        · rcases Mem.mem_ins hc with hc | hc
          · subst hc
            show e.1 < a
            omega
          · exact hp'.1 c hc
        · rcases List.mem_cons.1 hc with hc | hc
          · exact hn c (hc ▸ List.mem_cons_self)
          · exact hr.2 c hc

theorem Mem.wf_filter {m : Mem} (h : m.wf) (p : Host.Cell → Bool) : Mem.wf (m.filter p) :=
  ⟨h.1.sublist List.filter_sublist, fun c hc => h.2 c ((List.mem_filter.1 hc).1)⟩

theorem Mem.wf_set {m : Mem} (h : m.wf) (a : Nat) (b : Byte) : (m.set a b).wf := by
  unfold Mem.set
  split
  · exact Mem.wf_filter h _
  · exact Mem.wf_ins h a b ‹_›

theorem Mem.wf_write {m : Mem} (h : m.wf) (a : Nat) (bs : List Byte) : (m.write a bs).wf := by
  induction bs generalizing m a with
  | nil => exact h
  | cons b r ih => exact ih (Mem.wf_set h a b) _

theorem Mem.wf_clear {m : Mem} (h : m.wf) (a n : Nat) : (m.clear a n).wf := Mem.wf_filter h _

theorem Mem.get_ins_self (m : Mem) (a : Nat) (b : Byte) : (m.ins a b).get a = b := by
  induction m with
  | nil => simp [Mem.ins, Mem.get]
  | cons e r ih =>
    unfold Mem.ins
    split
    · simp [Mem.get]
    · split
      · simp [Mem.get]
      · simp_all [Mem.get]

theorem Mem.get_ins_ne (m : Mem) (a c : Nat) (b : Byte) (h : c ≠ a) : (m.ins a b).get c = m.get c := by
  induction m with
  | nil => simp [Mem.ins, Mem.get, Ne.symm h]
  | cons e r ih =>
    unfold Mem.ins
    split
    · simp [Mem.get, Ne.symm h]
    · split
      · rename_i h1 h2
        have : e.1 ≠ c := fun e1 => h (e1 ▸ h2)
        simp [Mem.get, Ne.symm h, this]
      · simp only [Mem.get, ih]

theorem Mem.get_filter (m : Mem) (p : Nat → Bool) (a : Nat) :
    Mem.get (m.filter fun c => p c.1) a = if p a then m.get a else 0 := by
  induction m with
  | nil => simp [Mem.get]
  | cons e r ih =>
    by_cases hp : p e.1 = true
    · rw [List.filter_cons_of_pos (p := fun c : Host.Cell => p c.1) hp]
      simp only [Mem.get]
      split
      · rename_i he
        simp [← he, hp]
      · exact ih
    · rw [List.filter_cons_of_neg (p := fun c : Host.Cell => p c.1) hp, ih]
      by_cases he : e.1 = a
      · have : p a = false := by simpa [he] using hp
        simp [this]
      · simp [Mem.get, he]

/-- A read of the byte just written gives it. -/
@[simp] theorem Mem.get_set_self (m : Mem) (a : Nat) (b : Byte) : (m.set a b).get a = b := by
  unfold Mem.set
  split
  · rename_i hb
    rw [Mem.get_filter m (fun k => k != a) a]
    simp [hb]
  · exact Mem.get_ins_self m a b

/-- A write of a byte leaves every other one. -/
theorem Mem.get_set_ne (m : Mem) (a c : Nat) (b : Byte) (h : c ≠ a) : (m.set a b).get c = m.get c := by
  unfold Mem.set
  split
  · rw [Mem.get_filter m (fun k => k != a) c]
    simp [h]
  · exact Mem.get_ins_ne m a c b h

/-- A write of bytes leaves every byte outside them. -/
theorem Mem.get_write_out (m : Mem) (a c : Nat) (bs : List Byte) (h : c < a ∨ a + bs.length ≤ c) :
    (m.write a bs).get c = m.get c := by
  induction bs generalizing m a with
  | nil => rfl
  | cons b r ih =>
    have hl : (b :: r).length = r.length + 1 := rfl
    show Mem.get (Mem.write (m.set a b) (a + 1) r) c = _
    rw [ih _ _ (by omega), Mem.get_set_ne _ _ _ _ (by omega)]

/-- A write of bytes gives each of them. -/
theorem Mem.get_write_in (m : Mem) (a i : Nat) (bs : List Byte) (h : i < bs.length) :
    (m.write a bs).get (a + i) = bs[i] := by
  induction bs generalizing m a i with
  | nil => exact absurd h (Nat.not_lt_zero _)
  | cons b r ih =>
    show Mem.get (Mem.write (m.set a b) (a + 1) r) (a + i) = _
    cases i with
    | zero => rw [Nat.add_zero, Mem.get_write_out _ _ _ _ (by omega)]; exact Mem.get_set_self _ _ _
    | succ j =>
      have := ih (m.set a b) (a + 1) j (by simpa using h)
      rw [show a + (j + 1) = a + 1 + j by omega, this]
      rfl

/-- Bytes cleared read 0, and every other byte stays. -/
theorem Mem.get_clear (m : Mem) (a n c : Nat) : (m.clear a n).get c = if a ≤ c ∧ c < a + n then 0 else m.get c := by
  unfold Mem.clear
  rw [Mem.get_filter m (fun k => !(decide (a ≤ k) && decide (k < a + n))) c]
  by_cases h1 : a ≤ c <;> by_cases h2 : c < a + n <;> simp [h1, h2]

/-- Two memories in canonical form that read the same are the same. -/
theorem Mem.ext {m n : Mem} (hm : m.wf) (hn : n.wf) (h : ∀ a, m.get a = n.get a) : m = n := by
  induction m generalizing n with
  | nil =>
    cases n with
    | nil => rfl
    | cons e r =>
      have := h e.1
      simp only [Mem.get, if_true] at this
      exact absurd this.symm (hn.2 e List.mem_cons_self)
  | cons e r ih =>
    have below : ∀ {k : Mem} {a : Nat}, (∀ c ∈ k, a < c.1) → k.get a = 0 := by
      intro k a hk
      induction k with
      | nil => rfl
      | cons c t it =>
        have := hk c List.mem_cons_self
        simp only [Mem.get]
        rw [if_neg (by omega)]
        exact it fun d hd => hk d (List.mem_cons_of_mem _ hd)
    have he : e.2 ≠ 0#8 := hm.2 e List.mem_cons_self
    have hr := (List.pairwise_cons.1 hm.1).1
    cases n with
    | nil =>
      have := h e.1
      simp only [Mem.get, if_true] at this
      exact absurd this he
    | cons f t =>
      have hf : f.2 ≠ 0#8 := hn.2 f List.mem_cons_self
      have ht := (List.pairwise_cons.1 hn.1).1
      have h1 := h e.1
      have h2 := h f.1
      simp only [Mem.get, if_true] at h1 h2
      have hk : e.1 = f.1 := by
        rcases Nat.lt_trichotomy e.1 f.1 with hlt | heq | hgt
        · rw [if_neg (by omega), below fun c hc => Nat.lt_trans hlt (ht c hc)] at h1
          exact absurd h1 he
        · exact heq
        · rw [if_neg (by omega), below fun c hc => Nat.lt_trans hgt (hr c hc)] at h2
          exact absurd h2.symm hf
      have hb : e.2 = f.2 := by rw [if_pos hk.symm] at h1; exact h1
      have hef : e = f := Prod.ext hk hb
      refine List.cons_eq_cons.2 ⟨hef, ih (Mem.wf_tail hm) (Mem.wf_tail hn) fun a => ?_⟩
      have ha := h a
      simp only [Mem.get, ← hk] at ha
      by_cases hq : e.1 = a
      · rw [below fun c hc => hq ▸ hr c hc, below fun c hc => hq ▸ hk ▸ ht c hc]
      · rwa [if_neg hq, if_neg hq] at ha

end Sys2Proof.Machine
end

