-- ==== Sys2Proof/Laws/PerInstr.lean ====
section
/-! SUPPORT. Decoding gives back what was encoded: the fields of each form of word, and one lemma for each constructor
of `Instr` (R41, R48 to R55). -/

namespace Sys2Proof.Laws.RoundTrip
open Sys2Proof

/-- What the word of a well-formed instruction decodes to. -/
def Statement (i : Instr) : Prop :=
  i.wf = true → ∀ w, encode i = some w →
    match i with
    | .nop stop gn gp hint bimm =>
      decodeBundle (bytesOfWord w) = ⟨⟨0, stop, gn, gp, hint, bimm⟩, []⟩ ∧ firstIllegal ⟨⟨0, stop, gn, gp, hint, bimm⟩, []⟩ = none
    | _ => (∃ k : Slot, classOf (opOf w) = some k.cls) ∧
        ∀ k : Slot, classOf (opOf w) = some k.cls → decodeSyl k w = .ok i

/-! ### Fields -/

@[simp] theorem opOf_rr (op : Byte) (d a b f : BitVec 6) : opOf (rrWord op d a b f) = op := by
  ext i hi
  simp only [opOf, rrWord, BitVec.getElem_extractLsb', BitVec.getLsbD_append]
  repeat' split
  all_goals first | omega | (congr 1; omega) | (rw [BitVec.getLsbD_eq_getElem (by omega)]; congr 1; omega) | simp

@[simp] theorem dOf_rr (op : Byte) (d a b f : BitVec 6) : dOf (rrWord op d a b f) = d := by
  ext i hi
  simp only [dOf, rrWord, BitVec.getElem_extractLsb', BitVec.getLsbD_append]
  repeat' split
  all_goals first | omega | (congr 1; omega) | (rw [BitVec.getLsbD_eq_getElem (by omega)]; congr 1; omega) | simp

@[simp] theorem aOf_rr (op : Byte) (d a b f : BitVec 6) : aOf (rrWord op d a b f) = a := by
  ext i hi
  simp only [aOf, rrWord, BitVec.getElem_extractLsb', BitVec.getLsbD_append]
  repeat' split
  all_goals first | omega | (congr 1; omega) | (rw [BitVec.getLsbD_eq_getElem (by omega)]; congr 1; omega) | simp

@[simp] theorem bOf_rr (op : Byte) (d a b f : BitVec 6) : bOf (rrWord op d a b f) = b := by
  ext i hi
  simp only [bOf, rrWord, BitVec.getElem_extractLsb', BitVec.getLsbD_append]
  repeat' split
  all_goals first | omega | (congr 1; omega) | (rw [BitVec.getLsbD_eq_getElem (by omega)]; congr 1; omega) | simp

@[simp] theorem fOf_rr (op : Byte) (d a b f : BitVec 6) : fOf (rrWord op d a b f) = f := by
  ext i hi
  simp only [fOf, rrWord, BitVec.getElem_extractLsb', BitVec.getLsbD_append]
  repeat' split
  all_goals first | omega | (congr 1; omega) | (rw [BitVec.getLsbD_eq_getElem (by omega)]; congr 1; omega) | simp

@[simp] theorem immOf_rr (op : Byte) (d a : BitVec 6) : immOf (rrWord op d a 0#6 0#6) = 0#12 := by
  ext i hi
  simp only [immOf, rrWord, BitVec.getElem_extractLsb', BitVec.getLsbD_append]
  repeat' split
  all_goals first | omega | (congr 1; omega) | (rw [BitVec.getLsbD_eq_getElem (by omega)]; congr 1; omega) | simp

@[simp] theorem opOf_ri (op : Byte) (d a : BitVec 6) (x : BitVec 12) : opOf (riWord op d a x) = op := by
  ext i hi
  simp only [opOf, riWord, BitVec.getElem_extractLsb', BitVec.getLsbD_append]
  repeat' split
  all_goals first | omega | (congr 1; omega) | (rw [BitVec.getLsbD_eq_getElem (by omega)]; congr 1; omega) | simp

@[simp] theorem dOf_ri (op : Byte) (d a : BitVec 6) (x : BitVec 12) : dOf (riWord op d a x) = d := by
  ext i hi
  simp only [dOf, riWord, BitVec.getElem_extractLsb', BitVec.getLsbD_append]
  repeat' split
  all_goals first | omega | (congr 1; omega) | (rw [BitVec.getLsbD_eq_getElem (by omega)]; congr 1; omega) | simp

@[simp] theorem aOf_ri (op : Byte) (d a : BitVec 6) (x : BitVec 12) : aOf (riWord op d a x) = a := by
  ext i hi
  simp only [aOf, riWord, BitVec.getElem_extractLsb', BitVec.getLsbD_append]
  repeat' split
  all_goals first | omega | (congr 1; omega) | (rw [BitVec.getLsbD_eq_getElem (by omega)]; congr 1; omega) | simp

@[simp] theorem immOf_ri (op : Byte) (d a : BitVec 6) (x : BitVec 12) : immOf (riWord op d a x) = x := by
  ext i hi
  simp only [immOf, riWord, BitVec.getElem_extractLsb', BitVec.getLsbD_append]
  repeat' split
  all_goals first | omega | (congr 1; omega) | (rw [BitVec.getLsbD_eq_getElem (by omega)]; congr 1; omega) | simp

@[simp] theorem low_ri (op : Byte) (d a : BitVec 6) (x : BitVec 12) : (riWord op d a x).extractLsb' 0 3 = x.extractLsb' 0 3 := by
  ext i hi
  simp only [riWord, BitVec.getElem_extractLsb', BitVec.getLsbD_append]
  repeat' split
  all_goals first | omega | (congr 1; omega) | (rw [BitVec.getLsbD_eq_getElem (by omega)]; congr 1; omega) | simp

@[simp] theorem mid_ri (op : Byte) (d a : BitVec 6) (x : BitVec 12) : (riWord op d a x).extractLsb' 3 9 = x.extractLsb' 3 9 := by
  ext i hi
  simp only [riWord, BitVec.getElem_extractLsb', BitVec.getLsbD_append]
  repeat' split
  all_goals first | omega | (congr 1; omega) | (rw [BitVec.getLsbD_eq_getElem (by omega)]; congr 1; omega) | simp

@[simp] theorem tail_ri (op : Byte) (d : BitVec 6) : (riWord op d 0#6 0#12).extractLsb' 0 18 = 0#18 := by
  ext i hi
  simp only [riWord, BitVec.getElem_extractLsb', BitVec.getLsbD_append]
  repeat' split
  all_goals first | omega | (congr 1; omega) | (rw [BitVec.getLsbD_eq_getElem (by omega)]; congr 1; omega) | simp

@[simp] theorem lowOf_ri (op : Byte) : lowOf (riWord op 0#6 0#6 0#12) = 0#24 := by
  ext i hi
  simp only [lowOf, riWord, BitVec.getElem_extractLsb', BitVec.getLsbD_append]
  repeat' split
  all_goals first | omega | (congr 1; omega) | (rw [BitVec.getLsbD_eq_getElem (by omega)]; congr 1; omega) | simp

@[simp] theorem opOf_m (op : Byte) (d a : BitVec 6) (x : Byte) (o : BitVec 3) : opOf (mWord op d a x o) = op := by
  ext i hi
  simp only [opOf, mWord, BitVec.getElem_extractLsb', BitVec.getLsbD_append]
  repeat' split
  all_goals first | omega | (congr 1; omega) | (rw [BitVec.getLsbD_eq_getElem (by omega)]; congr 1; omega) | simp

@[simp] theorem dOf_m (op : Byte) (d a : BitVec 6) (x : Byte) (o : BitVec 3) : dOf (mWord op d a x o) = d := by
  ext i hi
  simp only [dOf, mWord, BitVec.getElem_extractLsb', BitVec.getLsbD_append]
  repeat' split
  all_goals first | omega | (congr 1; omega) | (rw [BitVec.getLsbD_eq_getElem (by omega)]; congr 1; omega) | simp

@[simp] theorem aOf_m (op : Byte) (d a : BitVec 6) (x : Byte) (o : BitVec 3) : aOf (mWord op d a x o) = a := by
  ext i hi
  simp only [aOf, mWord, BitVec.getElem_extractLsb', BitVec.getLsbD_append]
  repeat' split
  all_goals first | omega | (congr 1; omega) | (rw [BitVec.getLsbD_eq_getElem (by omega)]; congr 1; omega) | simp

@[simp] theorem offOf_m (op : Byte) (d a : BitVec 6) (x : Byte) (o : BitVec 3) : offOf (mWord op d a x o) = x := by
  ext i hi
  simp only [offOf, mWord, BitVec.getElem_extractLsb', BitVec.getLsbD_append]
  repeat' split
  all_goals first | omega | (congr 1; omega) | (rw [BitVec.getLsbD_eq_getElem (by omega)]; congr 1; omega) | simp

@[simp] theorem ordOf_m (op : Byte) (d a : BitVec 6) (x : Byte) (o : BitVec 3) : ordOf (mWord op d a x o) = o := by
  ext i hi
  simp only [ordOf, mWord, BitVec.getElem_extractLsb', BitVec.getLsbD_append]
  repeat' split
  all_goals first | omega | (congr 1; omega) | (rw [BitVec.getLsbD_eq_getElem (by omega)]; congr 1; omega) | simp

@[simp] theorem m0Of_m (op : Byte) (d a : BitVec 6) (x : Byte) (o : BitVec 3) : m0Of (mWord op d a x o) = 0#1 := by
  ext i hi
  simp only [m0Of, mWord, BitVec.getElem_extractLsb', BitVec.getLsbD_append]
  repeat' split
  all_goals first | omega | (congr 1; omega) | (rw [BitVec.getLsbD_eq_getElem (by omega)]; congr 1; omega) | simp

@[simp] theorem opOf_x (op : Byte) (e : BitVec 4) (a b : BitVec 6) (c : Byte) : opOf (xWord op e a b c) = op := by
  ext i hi
  simp only [opOf, xWord, BitVec.getElem_extractLsb', BitVec.getLsbD_append]
  repeat' split
  all_goals first | omega | (congr 1; omega) | (rw [BitVec.getLsbD_eq_getElem (by omega)]; congr 1; omega) | simp

@[simp] theorem engOf_x (op : Byte) (e : BitVec 4) (a b : BitVec 6) (c : Byte) : engOf (xWord op e a b c) = e := by
  ext i hi
  simp only [engOf, xWord, BitVec.getElem_extractLsb', BitVec.getLsbD_append]
  repeat' split
  all_goals first | omega | (congr 1; omega) | (rw [BitVec.getLsbD_eq_getElem (by omega)]; congr 1; omega) | simp

@[simp] theorem xaOf_x (op : Byte) (e : BitVec 4) (a b : BitVec 6) (c : Byte) : xaOf (xWord op e a b c) = a := by
  ext i hi
  simp only [xaOf, xWord, BitVec.getElem_extractLsb', BitVec.getLsbD_append]
  repeat' split
  all_goals first | omega | (congr 1; omega) | (rw [BitVec.getLsbD_eq_getElem (by omega)]; congr 1; omega) | simp

@[simp] theorem xbOf_x (op : Byte) (e : BitVec 4) (a b : BitVec 6) (c : Byte) : xbOf (xWord op e a b c) = b := by
  ext i hi
  simp only [xbOf, xWord, BitVec.getElem_extractLsb', BitVec.getLsbD_append]
  repeat' split
  all_goals first | omega | (congr 1; omega) | (rw [BitVec.getLsbD_eq_getElem (by omega)]; congr 1; omega) | simp

@[simp] theorem cmdOf_x (op : Byte) (e : BitVec 4) (a b : BitVec 6) (c : Byte) : cmdOf (xWord op e a b c) = c := by
  ext i hi
  simp only [cmdOf, xWord, BitVec.getElem_extractLsb', BitVec.getLsbD_append]
  repeat' split
  all_goals first | omega | (congr 1; omega) | (rw [BitVec.getLsbD_eq_getElem (by omega)]; congr 1; omega) | simp

@[simp] theorem fOf_x (op : Byte) (e : BitVec 4) (a b : BitVec 6) (c : Byte) : fOf (xWord op e a b c) = c.extractLsb' 0 6 := by
  ext i hi
  simp only [fOf, xWord, BitVec.getElem_extractLsb', BitVec.getLsbD_append]
  repeat' split
  all_goals first | omega | (congr 1; omega) | (rw [BitVec.getLsbD_eq_getElem (by omega)]; congr 1; omega) | simp

@[simp] theorem at6_x (op : Byte) (e : BitVec 4) (a b : BitVec 6) (c : Byte) : (xWord op e a b c).extractLsb' 6 2 = c.extractLsb' 6 2 := by
  ext i hi
  simp only [xWord, BitVec.getElem_extractLsb', BitVec.getLsbD_append]
  repeat' split
  all_goals first | omega | (congr 1; omega) | (rw [BitVec.getLsbD_eq_getElem (by omega)]; congr 1; omega) | simp

@[simp] theorem at4_x (op : Byte) (e : BitVec 4) (a b : BitVec 6) (c : Byte) : (xWord op e a b c).extractLsb' 4 4 = c.extractLsb' 4 4 := by
  ext i hi
  simp only [xWord, BitVec.getElem_extractLsb', BitVec.getLsbD_append]
  repeat' split
  all_goals first | omega | (congr 1; omega) | (rw [BitVec.getLsbD_eq_getElem (by omega)]; congr 1; omega) | simp

@[simp] theorem at0_x (op : Byte) (e : BitVec 4) (a b : BitVec 6) (c : Byte) : (xWord op e a b c).extractLsb' 0 4 = c.extractLsb' 0 4 := by
  ext i hi
  simp only [xWord, BitVec.getElem_extractLsb', BitVec.getLsbD_append]
  repeat' split
  all_goals first | omega | (congr 1; omega) | (rw [BitVec.getLsbD_eq_getElem (by omega)]; congr 1; omega) | simp

@[simp] theorem opOf_q (op : Byte) (e : BitVec 4) (a : BitVec 6) (x : BitVec 12) : opOf (qWord op e a x) = op := by
  ext i hi
  simp only [opOf, qWord, BitVec.getElem_extractLsb', BitVec.getLsbD_append]
  repeat' split
  all_goals first | omega | (congr 1; omega) | (rw [BitVec.getLsbD_eq_getElem (by omega)]; congr 1; omega) | simp

@[simp] theorem engOf_q (op : Byte) (e : BitVec 4) (a : BitVec 6) (x : BitVec 12) : engOf (qWord op e a x) = e := by
  ext i hi
  simp only [engOf, qWord, BitVec.getElem_extractLsb', BitVec.getLsbD_append]
  repeat' split
  all_goals first | omega | (congr 1; omega) | (rw [BitVec.getLsbD_eq_getElem (by omega)]; congr 1; omega) | simp

@[simp] theorem aOf_q (op : Byte) (e : BitVec 4) (a : BitVec 6) (x : BitVec 12) : aOf (qWord op e a x) = a := by
  ext i hi
  simp only [aOf, qWord, BitVec.getElem_extractLsb', BitVec.getLsbD_append]
  repeat' split
  all_goals first | omega | (congr 1; omega) | (rw [BitVec.getLsbD_eq_getElem (by omega)]; congr 1; omega) | simp

@[simp] theorem immOf_q (op : Byte) (e : BitVec 4) (a : BitVec 6) (x : BitVec 12) : immOf (qWord op e a x) = x := by
  ext i hi
  simp only [immOf, qWord, BitVec.getElem_extractLsb', BitVec.getLsbD_append]
  repeat' split
  all_goals first | omega | (congr 1; omega) | (rw [BitVec.getLsbD_eq_getElem (by omega)]; congr 1; omega) | simp

@[simp] theorem q0Of_q (op : Byte) (e : BitVec 4) (a : BitVec 6) (x : BitVec 12) : q0Of (qWord op e a x) = 0#2 := by
  ext i hi
  simp only [q0Of, qWord, BitVec.getElem_extractLsb', BitVec.getLsbD_append]
  repeat' split
  all_goals first | omega | (congr 1; omega) | (rw [BitVec.getLsbD_eq_getElem (by omega)]; congr 1; omega) | simp

@[simp] theorem cmdOf_q (op : Byte) (e : BitVec 4) (a : BitVec 6) (x : BitVec 12) : cmdOf (qWord op e a x) = x.extractLsb' 0 8 := by
  ext i hi
  simp only [cmdOf, qWord, BitVec.getElem_extractLsb', BitVec.getLsbD_append]
  repeat' split
  all_goals first | omega | (congr 1; omega) | (rw [BitVec.getLsbD_eq_getElem (by omega)]; congr 1; omega) | simp

@[simp] theorem at8_q (op : Byte) (e : BitVec 4) (a : BitVec 6) (x : BitVec 12) : (qWord op e a x).extractLsb' 8 4 = x.extractLsb' 8 4 := by
  ext i hi
  simp only [qWord, BitVec.getElem_extractLsb', BitVec.getLsbD_append]
  repeat' split
  all_goals first | omega | (congr 1; omega) | (rw [BitVec.getLsbD_eq_getElem (by omega)]; congr 1; omega) | simp

@[simp] theorem opOf_c (op : Byte) (x : BitVec 24) : opOf (cWord op x) = op := by
  ext i hi
  simp only [opOf, cWord, BitVec.getElem_extractLsb', BitVec.getLsbD_append]
  repeat' split
  all_goals first | omega | (congr 1; omega) | (rw [BitVec.getLsbD_eq_getElem (by omega)]; congr 1; omega) | simp

@[simp] theorem lowOf_c (op : Byte) (x : BitVec 24) : lowOf (cWord op x) = x := by
  ext i hi
  simp only [lowOf, cWord, BitVec.getElem_extractLsb', BitVec.getLsbD_append]
  repeat' split
  all_goals first | omega | (congr 1; omega) | (rw [BitVec.getLsbD_eq_getElem (by omega)]; congr 1; omega) | simp

@[simp] theorem aOf_c (op : Byte) (x : BitVec 24) : aOf (cWord op x) = x.extractLsb' 12 6 := by
  ext i hi
  simp only [aOf, cWord, BitVec.getElem_extractLsb', BitVec.getLsbD_append]
  repeat' split
  all_goals first | omega | (congr 1; omega) | (rw [BitVec.getLsbD_eq_getElem (by omega)]; congr 1; omega) | simp

@[simp] theorem dOf_c (op : Byte) (x : BitVec 24) : dOf (cWord op x) = x.extractLsb' 18 6 := by
  ext i hi
  simp only [dOf, cWord, BitVec.getElem_extractLsb', BitVec.getLsbD_append]
  repeat' split
  all_goals first | omega | (congr 1; omega) | (rw [BitVec.getLsbD_eq_getElem (by omega)]; congr 1; omega) | simp

@[simp] theorem immOf_c (op : Byte) (x : BitVec 24) : immOf (cWord op x) = x.extractLsb' 0 12 := by
  ext i hi
  simp only [immOf, cWord, BitVec.getElem_extractLsb', BitVec.getLsbD_append]
  repeat' split
  all_goals first | omega | (congr 1; omega) | (rw [BitVec.getLsbD_eq_getElem (by omega)]; congr 1; omega) | simp

@[simp] theorem btOf_c (op : Byte) (x : BitVec 24) : btOf (cWord op x) = x.extractLsb' 22 2 := by
  ext i hi
  simp only [btOf, cWord, BitVec.getElem_extractLsb', BitVec.getLsbD_append]
  repeat' split
  all_goals first | omega | (congr 1; omega) | (rw [BitVec.getLsbD_eq_getElem (by omega)]; congr 1; omega) | simp

@[simp] theorem at0_22_c (op : Byte) (x : BitVec 24) : (cWord op x).extractLsb' 0 22 = x.extractLsb' 0 22 := by
  ext i hi
  simp only [cWord, BitVec.getElem_extractLsb', BitVec.getLsbD_append]
  repeat' split
  all_goals first | omega | (congr 1; omega) | (rw [BitVec.getLsbD_eq_getElem (by omega)]; congr 1; omega) | simp

@[simp] theorem at18_4_c (op : Byte) (x : BitVec 24) : (cWord op x).extractLsb' 18 4 = x.extractLsb' 18 4 := by
  ext i hi
  simp only [cWord, BitVec.getElem_extractLsb', BitVec.getLsbD_append]
  repeat' split
  all_goals first | omega | (congr 1; omega) | (rw [BitVec.getLsbD_eq_getElem (by omega)]; congr 1; omega) | simp

@[simp] theorem at18_2_c (op : Byte) (x : BitVec 24) : (cWord op x).extractLsb' 18 2 = x.extractLsb' 18 2 := by
  ext i hi
  simp only [cWord, BitVec.getElem_extractLsb', BitVec.getLsbD_append]
  repeat' split
  all_goals first | omega | (congr 1; omega) | (rw [BitVec.getLsbD_eq_getElem (by omega)]; congr 1; omega) | simp

@[simp] theorem at0_17_c (op : Byte) (x : BitVec 24) : (cWord op x).extractLsb' 0 17 = x.extractLsb' 0 17 := by
  ext i hi
  simp only [cWord, BitVec.getElem_extractLsb', BitVec.getLsbD_append]
  repeat' split
  all_goals first | omega | (congr 1; omega) | (rw [BitVec.getLsbD_eq_getElem (by omega)]; congr 1; omega) | simp

@[simp] theorem at20_4_c (op : Byte) (x : BitVec 24) : (cWord op x).extractLsb' 20 4 = x.extractLsb' 20 4 := by
  ext i hi
  simp only [cWord, BitVec.getElem_extractLsb', BitVec.getLsbD_append]
  repeat' split
  all_goals first | omega | (congr 1; omega) | (rw [BitVec.getLsbD_eq_getElem (by omega)]; congr 1; omega) | simp

@[simp] theorem at17_3_c (op : Byte) (x : BitVec 24) : (cWord op x).extractLsb' 17 3 = x.extractLsb' 17 3 := by
  ext i hi
  simp only [cWord, BitVec.getElem_extractLsb', BitVec.getLsbD_append]
  repeat' split
  all_goals first | omega | (congr 1; omega) | (rw [BitVec.getLsbD_eq_getElem (by omega)]; congr 1; omega) | simp

@[simp] theorem at12_12_c (op : Byte) (x : BitVec 24) : (cWord op x).extractLsb' 12 12 = x.extractLsb' 12 12 := by
  ext i hi
  simp only [cWord, BitVec.getElem_extractLsb', BitVec.getLsbD_append]
  repeat' split
  all_goals first | omega | (congr 1; omega) | (rw [BitVec.getLsbD_eq_getElem (by omega)]; congr 1; omega) | simp

@[simp] theorem bit20_c (op : Byte) (x : BitVec 24) : (cWord op x).getLsbD 20 = x.getLsbD 20 := by
  unfold cWord
  rw [BitVec.getLsbD_append]
  rfl

@[simp] theorem bit21_c (op : Byte) (x : BitVec 24) : (cWord op x).getLsbD 21 = x.getLsbD 21 := by
  unfold cWord
  rw [BitVec.getLsbD_append]
  rfl

@[simp] theorem p3_3_hi (x : BitVec 3) (y : BitVec 3) : (x ++ y : BitVec 6).extractLsb' 3 3 = x := by
  ext i hi
  simp only [BitVec.getLsbD_append, BitVec.getElem_extractLsb', BitVec.getLsbD_append]
  repeat' split
  all_goals first | omega | (congr 1; omega) | (rw [BitVec.getLsbD_eq_getElem (by omega)]; congr 1; omega) | simp

@[simp] theorem p3_3_lo (x : BitVec 3) (y : BitVec 3) : (x ++ y : BitVec 6).extractLsb' 0 3 = y := by
  ext i hi
  simp only [BitVec.getLsbD_append, BitVec.getElem_extractLsb', BitVec.getLsbD_append]
  repeat' split
  all_goals first | omega | (congr 1; omega) | (rw [BitVec.getLsbD_eq_getElem (by omega)]; congr 1; omega) | simp

@[simp] theorem p4_2_hi (x : BitVec 4) (y : BitVec 2) : (x ++ y : BitVec 6).extractLsb' 2 4 = x := by
  ext i hi
  simp only [BitVec.getLsbD_append, BitVec.getElem_extractLsb', BitVec.getLsbD_append]
  repeat' split
  all_goals first | omega | (congr 1; omega) | (rw [BitVec.getLsbD_eq_getElem (by omega)]; congr 1; omega) | simp

@[simp] theorem p4_2_lo (x : BitVec 4) (y : BitVec 2) : (x ++ y : BitVec 6).extractLsb' 0 2 = y := by
  ext i hi
  simp only [BitVec.getLsbD_append, BitVec.getElem_extractLsb', BitVec.getLsbD_append]
  repeat' split
  all_goals first | omega | (congr 1; omega) | (rw [BitVec.getLsbD_eq_getElem (by omega)]; congr 1; omega) | simp

@[simp] theorem p4_4_hi (x : BitVec 4) (y : BitVec 4) : (x ++ y : BitVec 8).extractLsb' 4 4 = x := by
  ext i hi
  simp only [BitVec.getLsbD_append, BitVec.getElem_extractLsb', BitVec.getLsbD_append]
  repeat' split
  all_goals first | omega | (congr 1; omega) | (rw [BitVec.getLsbD_eq_getElem (by omega)]; congr 1; omega) | simp

@[simp] theorem p4_4_lo (x : BitVec 4) (y : BitVec 4) : (x ++ y : BitVec 8).extractLsb' 0 4 = y := by
  ext i hi
  simp only [BitVec.getLsbD_append, BitVec.getElem_extractLsb', BitVec.getLsbD_append]
  repeat' split
  all_goals first | omega | (congr 1; omega) | (rw [BitVec.getLsbD_eq_getElem (by omega)]; congr 1; omega) | simp

@[simp] theorem p9_3_hi (x : BitVec 9) (y : BitVec 3) : (x ++ y : BitVec 12).extractLsb' 3 9 = x := by
  ext i hi
  simp only [BitVec.getLsbD_append, BitVec.getElem_extractLsb', BitVec.getLsbD_append]
  repeat' split
  all_goals first | omega | (congr 1; omega) | (rw [BitVec.getLsbD_eq_getElem (by omega)]; congr 1; omega) | simp

@[simp] theorem p9_3_lo (x : BitVec 9) (y : BitVec 3) : (x ++ y : BitVec 12).extractLsb' 0 3 = y := by
  ext i hi
  simp only [BitVec.getLsbD_append, BitVec.getElem_extractLsb', BitVec.getLsbD_append]
  repeat' split
  all_goals first | omega | (congr 1; omega) | (rw [BitVec.getLsbD_eq_getElem (by omega)]; congr 1; omega) | simp

@[simp] theorem p2_6_hi (x : BitVec 2) (y : BitVec 6) : (x ++ y : BitVec 8).extractLsb' 6 2 = x := by
  ext i hi
  simp only [BitVec.getLsbD_append, BitVec.getElem_extractLsb', BitVec.getLsbD_append]
  repeat' split
  all_goals first | omega | (congr 1; omega) | (rw [BitVec.getLsbD_eq_getElem (by omega)]; congr 1; omega) | simp

@[simp] theorem p2_6_lo (x : BitVec 2) (y : BitVec 6) : (x ++ y : BitVec 8).extractLsb' 0 6 = y := by
  ext i hi
  simp only [BitVec.getLsbD_append, BitVec.getElem_extractLsb', BitVec.getLsbD_append]
  repeat' split
  all_goals first | omega | (congr 1; omega) | (rw [BitVec.getLsbD_eq_getElem (by omega)]; congr 1; omega) | simp

@[simp] theorem p4_8_hi (x : BitVec 4) (y : BitVec 8) : (x ++ y : BitVec 12).extractLsb' 8 4 = x := by
  ext i hi
  simp only [BitVec.getLsbD_append, BitVec.getElem_extractLsb', BitVec.getLsbD_append]
  repeat' split
  all_goals first | omega | (congr 1; omega) | (rw [BitVec.getLsbD_eq_getElem (by omega)]; congr 1; omega) | simp

@[simp] theorem p4_8_lo (x : BitVec 4) (y : BitVec 8) : (x ++ y : BitVec 12).extractLsb' 0 8 = y := by
  ext i hi
  simp only [BitVec.getLsbD_append, BitVec.getElem_extractLsb', BitVec.getLsbD_append]
  repeat' split
  all_goals first | omega | (congr 1; omega) | (rw [BitVec.getLsbD_eq_getElem (by omega)]; congr 1; omega) | simp

@[simp] theorem p2_22_hi (x : BitVec 2) (y : BitVec 22) : (x ++ y : BitVec 24).extractLsb' 22 2 = x := by
  ext i hi
  simp only [BitVec.getLsbD_append, BitVec.getElem_extractLsb', BitVec.getLsbD_append]
  repeat' split
  all_goals first | omega | (congr 1; omega) | (rw [BitVec.getLsbD_eq_getElem (by omega)]; congr 1; omega) | simp

@[simp] theorem p2_22_lo (x : BitVec 2) (y : BitVec 22) : (x ++ y : BitVec 24).extractLsb' 0 22 = y := by
  ext i hi
  simp only [BitVec.getLsbD_append, BitVec.getElem_extractLsb', BitVec.getLsbD_append]
  repeat' split
  all_goals first | omega | (congr 1; omega) | (rw [BitVec.getLsbD_eq_getElem (by omega)]; congr 1; omega) | simp

@[simp] theorem p12_12_hi (x : BitVec 12) (y : BitVec 12) : (x ++ y : BitVec 24).extractLsb' 12 12 = x := by
  ext i hi
  simp only [BitVec.getLsbD_append, BitVec.getElem_extractLsb', BitVec.getLsbD_append]
  repeat' split
  all_goals first | omega | (congr 1; omega) | (rw [BitVec.getLsbD_eq_getElem (by omega)]; congr 1; omega) | simp

@[simp] theorem p12_12_lo (x : BitVec 12) (y : BitVec 12) : (x ++ y : BitVec 24).extractLsb' 0 12 = y := by
  ext i hi
  simp only [BitVec.getLsbD_append, BitVec.getElem_extractLsb', BitVec.getLsbD_append]
  repeat' split
  all_goals first | omega | (congr 1; omega) | (rw [BitVec.getLsbD_eq_getElem (by omega)]; congr 1; omega) | simp

@[simp] theorem ptr22 (bt : BitVec 2) (a : BitVec 6) : (bt ++ 0#4 ++ a ++ 0#12 : BitVec 24).extractLsb' 22 2 = bt := by
  ext i hi
  simp only [BitVec.getElem_extractLsb', BitVec.getLsbD_append]
  repeat' split
  all_goals first | omega | (congr 1; omega) | (rw [BitVec.getLsbD_eq_getElem (by omega)]; congr 1; omega) | simp

@[simp] theorem ptr18 (bt : BitVec 2) (a : BitVec 6) : (bt ++ 0#4 ++ a ++ 0#12 : BitVec 24).extractLsb' 18 4 = 0#4 := by
  ext i hi
  simp only [BitVec.getElem_extractLsb', BitVec.getLsbD_append]
  repeat' split
  all_goals first | omega | (congr 1; omega) | (rw [BitVec.getLsbD_eq_getElem (by omega)]; congr 1; omega) | simp

@[simp] theorem ptr12 (bt : BitVec 2) (a : BitVec 6) : (bt ++ 0#4 ++ a ++ 0#12 : BitVec 24).extractLsb' 12 6 = a := by
  ext i hi
  simp only [BitVec.getElem_extractLsb', BitVec.getLsbD_append]
  repeat' split
  all_goals first | omega | (congr 1; omega) | (rw [BitVec.getLsbD_eq_getElem (by omega)]; congr 1; omega) | simp

@[simp] theorem ptr0 (bt : BitVec 2) (a : BitVec 6) : (bt ++ 0#4 ++ a ++ 0#12 : BitVec 24).extractLsb' 0 12 = 0#12 := by
  ext i hi
  simp only [BitVec.getElem_extractLsb', BitVec.getLsbD_append]
  repeat' split
  all_goals first | omega | (congr 1; omega) | (rw [BitVec.getLsbD_eq_getElem (by omega)]; congr 1; omega) | simp

@[simp] theorem br22 (bt : BitVec 2) (x y : BitVec 1) (p : BitVec 6) : (bt ++ x ++ y ++ 0#2 ++ p ++ 0#12 : BitVec 24).extractLsb' 22 2 = bt := by
  ext i hi
  simp only [BitVec.getElem_extractLsb', BitVec.getLsbD_append]
  repeat' split
  all_goals first | omega | (congr 1; omega) | (rw [BitVec.getLsbD_eq_getElem (by omega)]; congr 1; omega) | simp

@[simp] theorem br21 (bt : BitVec 2) (x y : BitVec 1) (p : BitVec 6) : (bt ++ x ++ y ++ 0#2 ++ p ++ 0#12 : BitVec 24).extractLsb' 21 1 = x := by
  ext i hi
  simp only [BitVec.getElem_extractLsb', BitVec.getLsbD_append]
  repeat' split
  all_goals first | omega | (congr 1; omega) | (rw [BitVec.getLsbD_eq_getElem (by omega)]; congr 1; omega) | simp

@[simp] theorem br20 (bt : BitVec 2) (x y : BitVec 1) (p : BitVec 6) : (bt ++ x ++ y ++ 0#2 ++ p ++ 0#12 : BitVec 24).extractLsb' 20 1 = y := by
  ext i hi
  simp only [BitVec.getElem_extractLsb', BitVec.getLsbD_append]
  repeat' split
  all_goals first | omega | (congr 1; omega) | (rw [BitVec.getLsbD_eq_getElem (by omega)]; congr 1; omega) | simp

@[simp] theorem br18 (bt : BitVec 2) (x y : BitVec 1) (p : BitVec 6) : (bt ++ x ++ y ++ 0#2 ++ p ++ 0#12 : BitVec 24).extractLsb' 18 2 = 0#2 := by
  ext i hi
  simp only [BitVec.getElem_extractLsb', BitVec.getLsbD_append]
  repeat' split
  all_goals first | omega | (congr 1; omega) | (rw [BitVec.getLsbD_eq_getElem (by omega)]; congr 1; omega) | simp

@[simp] theorem br12 (bt : BitVec 2) (x y : BitVec 1) (p : BitVec 6) : (bt ++ x ++ y ++ 0#2 ++ p ++ 0#12 : BitVec 24).extractLsb' 12 6 = p := by
  ext i hi
  simp only [BitVec.getElem_extractLsb', BitVec.getLsbD_append]
  repeat' split
  all_goals first | omega | (congr 1; omega) | (rw [BitVec.getLsbD_eq_getElem (by omega)]; congr 1; omega) | simp

@[simp] theorem br0 (bt : BitVec 2) (x y : BitVec 1) (p : BitVec 6) : (bt ++ x ++ y ++ 0#2 ++ p ++ 0#12 : BitVec 24).extractLsb' 0 12 = 0#12 := by
  ext i hi
  simp only [BitVec.getElem_extractLsb', BitVec.getLsbD_append]
  repeat' split
  all_goals first | omega | (congr 1; omega) | (rw [BitVec.getLsbD_eq_getElem (by omega)]; congr 1; omega) | simp

@[simp] theorem callt18 (a : BitVec 6) (x : BitVec 12) : (0#6 ++ a ++ x : BitVec 24).extractLsb' 18 6 = 0#6 := by
  ext i hi
  simp only [BitVec.getElem_extractLsb', BitVec.getLsbD_append]
  repeat' split
  all_goals first | omega | (congr 1; omega) | (rw [BitVec.getLsbD_eq_getElem (by omega)]; congr 1; omega) | simp

@[simp] theorem callt12 (a : BitVec 6) (x : BitVec 12) : (0#6 ++ a ++ x : BitVec 24).extractLsb' 12 6 = a := by
  ext i hi
  simp only [BitVec.getElem_extractLsb', BitVec.getLsbD_append]
  repeat' split
  all_goals first | omega | (congr 1; omega) | (rw [BitVec.getLsbD_eq_getElem (by omega)]; congr 1; omega) | simp

@[simp] theorem callt0 (a : BitVec 6) (x : BitVec 12) : (0#6 ++ a ++ x : BitVec 24).extractLsb' 0 12 = x := by
  ext i hi
  simp only [BitVec.getElem_extractLsb', BitVec.getLsbD_append]
  repeat' split
  all_goals first | omega | (congr 1; omega) | (rw [BitVec.getLsbD_eq_getElem (by omega)]; congr 1; omega) | simp

@[simp] theorem loop20 (l : BitVec 4) (d : BitVec 3) : (l ++ d ++ 0#17 : BitVec 24).extractLsb' 20 4 = l := by
  ext i hi
  simp only [BitVec.getElem_extractLsb', BitVec.getLsbD_append]
  repeat' split
  all_goals first | omega | (congr 1; omega) | (rw [BitVec.getLsbD_eq_getElem (by omega)]; congr 1; omega) | simp

@[simp] theorem loop17 (l : BitVec 4) (d : BitVec 3) : (l ++ d ++ 0#17 : BitVec 24).extractLsb' 17 3 = d := by
  ext i hi
  simp only [BitVec.getElem_extractLsb', BitVec.getLsbD_append]
  repeat' split
  all_goals first | omega | (congr 1; omega) | (rw [BitVec.getLsbD_eq_getElem (by omega)]; congr 1; omega) | simp

@[simp] theorem loop0 (l : BitVec 4) (d : BitVec 3) : (l ++ d ++ 0#17 : BitVec 24).extractLsb' 0 17 = 0#17 := by
  ext i hi
  simp only [BitVec.getElem_extractLsb', BitVec.getLsbD_append]
  repeat' split
  all_goals first | omega | (congr 1; omega) | (rw [BitVec.getLsbD_eq_getElem (by omega)]; congr 1; omega) | simp

@[simp] theorem part2 (x : BitVec 1) : (0#5 ++ x : BitVec 6).extractLsb' 2 4 = 0#4 := by
  ext i hi
  simp only [BitVec.getElem_extractLsb', BitVec.getLsbD_append]
  repeat' split
  all_goals first | omega | (congr 1; omega) | (rw [BitVec.getLsbD_eq_getElem (by omega)]; congr 1; omega) | simp

@[simp] theorem part1 (x : BitVec 1) : (0#5 ++ x : BitVec 6).extractLsb' 1 1 = 0#1 := by
  ext i hi
  simp only [BitVec.getElem_extractLsb', BitVec.getLsbD_append]
  repeat' split
  all_goals first | omega | (congr 1; omega) | (rw [BitVec.getLsbD_eq_getElem (by omega)]; congr 1; omega) | simp

@[simp] theorem cvt5 (x : BitVec 1) (y : BitVec 4) : (0#1 ++ x ++ y : BitVec 6).extractLsb' 5 1 = 0#1 := by
  ext i hi
  simp only [BitVec.getElem_extractLsb', BitVec.getLsbD_append]
  repeat' split
  all_goals first | omega | (congr 1; omega) | (rw [BitVec.getLsbD_eq_getElem (by omega)]; congr 1; omega) | simp

@[simp] theorem cvt0 (x : BitVec 1) (y : BitVec 4) : (0#1 ++ x ++ y : BitVec 6).extractLsb' 0 4 = y := by
  ext i hi
  simp only [BitVec.getElem_extractLsb', BitVec.getLsbD_append]
  repeat' split
  all_goals first | omega | (congr 1; omega) | (rw [BitVec.getLsbD_eq_getElem (by omega)]; congr 1; omega) | simp

@[simp] theorem winsetBit (p : Bool) : (0#5 ++ BitVec.ofBool p : BitVec 6)[0] = p := by cases p <;> rfl

@[simp] theorem cvtBit (p : Bool) (x : BitVec 4) : (0#1 ++ BitVec.ofBool p ++ x : BitVec 6)[4] = p := by
  revert x
  cases p <;> decide

@[simp] theorem brBit21 (op : Byte) (bt : BitVec 2) (x y : Bool) (p : BitVec 6) :
    (cWord op (bt ++ BitVec.ofBool x ++ BitVec.ofBool y ++ 0#2 ++ p ++ 0#12))[21] = x := by
  rw [← BitVec.getLsbD_eq_getElem (by decide)]
  unfold cWord
  simp only [BitVec.getLsbD_append]
  cases x <;> cases y <;> rfl

@[simp] theorem brBit20 (op : Byte) (bt : BitVec 2) (x y : Bool) (p : BitVec 6) :
    (cWord op (bt ++ BitVec.ofBool x ++ BitVec.ofBool y ++ 0#2 ++ p ++ 0#12))[20] = y := by
  rw [← BitVec.getLsbD_eq_getElem (by decide)]
  unfold cWord
  simp only [BitVec.getLsbD_append]
  cases x <;> cases y <;> rfl

theorem wordRound (w : Syl) : wordOfBytes ((bytesOfWord w).take 4) = w := by
  show w.extractLsb' 24 8 ++ w.extractLsb' 16 8 ++ w.extractLsb' 8 8 ++ w.extractLsb' 0 8 = w
  apply BitVec.eq_of_getLsbD_eq
  intro i hi
  rw [BitVec.getLsbD_append, BitVec.getLsbD_append, BitVec.getLsbD_append]
  simp only [BitVec.getLsbD_extractLsb']
  repeat' split
  all_goals
    rw [decide_eq_true (by omega), Bool.true_and]
    congr 1
    omega

theorem bitAt {n m : Nat} (x : BitVec n) (y : BitVec m) (i : Nat) : (x ++ y).getLsbD i = if i < m then y.getLsbD i else x.getLsbD (i - m) := BitVec.getLsbD_append

theorem bit0 (b : Bool) : (BitVec.ofBool b).getLsbD 0 = b := by cases b <;> rfl

theorem headerRound (h : Header) : headerOf (hdrWord h) = h := by
  obtain ⟨mask, stop, gn, gp, hint, bimm⟩ := h
  unfold headerOf hdrWord
  congr 1
  · ext i hi
    simp only [BitVec.getElem_extractLsb', BitVec.getLsbD_append]
    repeat' split
    all_goals first | omega | (congr 1; omega) | (rw [BitVec.getLsbD_eq_getElem (by omega)]; congr 1; omega) | simp
  · rw [bitAt, bitAt, bitAt, bitAt, if_neg (by decide), if_neg (by decide), if_neg (by decide), if_neg (by decide), bitAt, if_pos (by decide)]
    exact bit0 stop
  · rw [bitAt, bitAt, bitAt, if_neg (by decide), if_neg (by decide), if_neg (by decide), bitAt, if_pos (by decide)]
    exact bit0 gn
  all_goals
    ext i hi
    simp only [BitVec.getElem_extractLsb', BitVec.getLsbD_append]
    repeat' split
    all_goals first | omega | (congr 1; omega) | (rw [BitVec.getLsbD_eq_getElem (by omega)]; congr 1; omega) | simp

/-! ### Codes -/

@[simp] theorem itRound (t : ITy) : ityOf t.code = t := by cases t <;> rfl
@[simp] theorem condRound (t : Cond) : condOf t.code = some t := by cases t <;> rfl
@[simp] theorem ftRound (t : FTy) : ftyOf t.code = some t := by
  cases t with
  | narrow k => revert k; decide
  | _ => rfl
@[simp] theorem rmRound (t : Rm) : rmOf t.code = t := by cases t <;> rfl
@[simp] theorem ordRound (t : Ord) : ordCode t.code = t := by cases t <;> rfl
@[simp] theorem scopeRound (t : Scope) : scopeOf t.code = some t := by cases t <;> rfl
@[simp] theorem cregRound (t : CReg) : cregOf t.code = some t := by cases t <;> rfl
@[simp] theorem sgnRound (t : SgnOp) : sgnOf t.code = some t := by cases t <;> rfl
@[simp] theorem fcondRound (t : FCond) : fcondOf t.code = t := by cases t <;> rfl
@[simp] theorem spaceRound (t : Space) : spaceOf t.code = some t := by cases t <;> rfl
@[simp] theorem vopRound (t : VOp) : vopOf t.code = some t := by cases t <;> rfl
@[simp] theorem copRound (t : COp) : copOf t.code = some t := by cases t <;> rfl
theorem srcRound (b : Src) (h : b.ok = true) : srcOf b.code = b := by
  cases b with
  | bimm => rfl
  | reg r =>
    simp only [Src.ok, Reg.isS, decide_eq_true_eq] at h
    have : r ≠ 62#6 := by rintro rfl; exact absurd h (by decide)
    simp [srcOf, Src.code, this]

/-- A word whose class map gives an instruction decodes to it in every slot of that class. -/
theorem inSlot (k y : Slot) (D : Syl → Except Reason Instr) (w : Syl) (op : Byte) (i : Instr) (ho : opOf w = op)
    (hy : classOf op = some y) (hk : classOf (opOf w) = some k.cls) (hD : ∀ k' : Slot, k'.cls = y → decodeClass k' w = D w)
    (hd : D w = .ok i) : decodeSyl k w = .ok i := by
  have e : k.cls = y := by
    rw [ho, hy] at hk
    exact (Option.some.inj hk).symm
  simp only [decodeSyl, hk, ↓reduceIte, hD k e, hd]

/-! ### Rows of the maps -/

theorem decodeC_00 (w : Syl) (h : opOf w = 0x00#8) : decodeC w =
    judge true true (some (.pt (btOf w) (w.extractLsb' 0 22))) := by
  unfold decodeC
  rw [h]
  rfl

theorem decodeC_01 (w : Syl) (h : opOf w = 0x01#8) : decodeC w =
    judge (aOf w).isS (decide (w.extractLsb' 18 4 = 0#4) && decide (immOf w = 0#12))
      (some (.ptr (btOf w) (aOf w))) := by
  unfold decodeC
  rw [h]
  rfl

theorem decodeC_02 (w : Syl) (h : opOf w = 0x02#8) : decodeC w =
    judge (aOf w).isP (decide (w.extractLsb' 18 2 = 0#2) && decide (immOf w = 0#12))
      (some (.br (btOf w) (w.getLsbD 21) (w.getLsbD 20) (aOf w))) := by
  unfold decodeC
  rw [h]
  rfl

theorem decodeC_03 (w : Syl) (h : opOf w = 0x03#8) : decodeC w =
    decBT w .call := by
  unfold decodeC
  rw [h]
  rfl

theorem decodeC_04 (w : Syl) (h : opOf w = 0x04#8) : decodeC w =
    judge (aOf w).isS (decide (dOf w = 0#6)) (some (.callt (aOf w) (immOf w))) := by
  unfold decodeC
  rw [h]
  rfl

theorem decodeC_05 (w : Syl) (h : opOf w = 0x05#8) : decodeC w =
    decC0 w .ret := by
  unfold decodeC
  rw [h]
  rfl

theorem decodeC_06 (w : Syl) (h : opOf w = 0x06#8) : decodeC w =
    judge true (decide (w.extractLsb' 0 17 = 0#17))
      (some (.loop (w.extractLsb' 20 4) (w.extractLsb' 17 3))) := by
  unfold decodeC
  rw [h]
  rfl

theorem decodeC_07 (w : Syl) (h : opOf w = 0x07#8) : decodeC w =
    decBT w .bswap := by
  unfold decodeC
  rw [h]
  rfl

theorem decodeC_08 (w : Syl) (h : opOf w = 0x08#8) : decodeC w =
    decC0 w .ifence := by
  unfold decodeC
  rw [h]
  rfl

theorem decodeC_09 (w : Syl) (h : opOf w = 0x09#8) : decodeC w =
    judge true (decide (w.extractLsb' 12 12 = 0#12)) (some (.trap (immOf w))) := by
  unfold decodeC
  rw [h]
  rfl

theorem decodeC_0A (w : Syl) (h : opOf w = 0x0A#8) : decodeC w =
    decC0 w .resume := by
  unfold decodeC
  rw [h]
  rfl

theorem decodeC_0B (w : Syl) (h : opOf w = 0x0B#8) : decodeC w =
    decC0 w .yield := by
  unfold decodeC
  rw [h]
  rfl

theorem decodeC_0C (w : Syl) (h : opOf w = 0x0C#8) : decodeC w =
    decC0 w .exit
   := by
  unfold decodeC
  rw [h]
  rfl

theorem decodeA_10 (w : Syl) (h : opOf w = 0x10#8) : decodeA w =
    decInt w .add := by
  unfold decodeA
  rw [h]
  rfl

theorem decodeA_11 (w : Syl) (h : opOf w = 0x11#8) : decodeA w =
    decInt w .sub := by
  unfold decodeA
  rw [h]
  rfl

theorem decodeA_12 (w : Syl) (h : opOf w = 0x12#8) : decodeA w =
    decInt w .mul := by
  unfold decodeA
  rw [h]
  rfl

theorem decodeA_13 (w : Syl) (h : opOf w = 0x13#8) : decodeA w =
    decInt w .mulh := by
  unfold decodeA
  rw [h]
  rfl

theorem decodeA_14 (w : Syl) (h : opOf w = 0x14#8) : decodeA w =
    decInt w .div := by
  unfold decodeA
  rw [h]
  rfl

theorem decodeA_15 (w : Syl) (h : opOf w = 0x15#8) : decodeA w =
    decInt w .rem := by
  unfold decodeA
  rw [h]
  rfl

theorem decodeA_16 (w : Syl) (h : opOf w = 0x16#8) : decodeA w =
    decInt w .and := by
  unfold decodeA
  rw [h]
  rfl

theorem decodeA_17 (w : Syl) (h : opOf w = 0x17#8) : decodeA w =
    decInt w .or := by
  unfold decodeA
  rw [h]
  rfl

theorem decodeA_18 (w : Syl) (h : opOf w = 0x18#8) : decodeA w =
    decInt w .xor := by
  unfold decodeA
  rw [h]
  rfl

theorem decodeA_19 (w : Syl) (h : opOf w = 0x19#8) : decodeA w =
    decInt w .andn := by
  unfold decodeA
  rw [h]
  rfl

theorem decodeA_1A (w : Syl) (h : opOf w = 0x1A#8) : decodeA w =
    decInt w .shl := by
  unfold decodeA
  rw [h]
  rfl

theorem decodeA_1B (w : Syl) (h : opOf w = 0x1B#8) : decodeA w =
    decInt w .shr := by
  unfold decodeA
  rw [h]
  rfl

theorem decodeA_1C (w : Syl) (h : opOf w = 0x1C#8) : decodeA w =
    decInt w .sar := by
  unfold decodeA
  rw [h]
  rfl

theorem decodeA_1D (w : Syl) (h : opOf w = 0x1D#8) : decodeA w =
    decInt w .min := by
  unfold decodeA
  rw [h]
  rfl

theorem decodeA_1E (w : Syl) (h : opOf w = 0x1E#8) : decodeA w =
    decInt w .max := by
  unfold decodeA
  rw [h]
  rfl

theorem decodeA_1F (w : Syl) (h : opOf w = 0x1F#8) : decodeA w =
    decSel w .sel := by
  unfold decodeA
  rw [h]
  rfl

theorem decodeA_20 (w : Syl) (h : opOf w = 0x20#8) : decodeA w =
    decCnt w .clz := by
  unfold decodeA
  rw [h]
  rfl

theorem decodeA_21 (w : Syl) (h : opOf w = 0x21#8) : decodeA w =
    decCnt w .popc := by
  unfold decodeA
  rw [h]
  rfl

theorem decodeA_22 (w : Syl) (h : opOf w = 0x22#8) : decodeA w =
    decExt w .ext := by
  unfold decodeA
  rw [h]
  rfl

theorem decodeA_23 (w : Syl) (h : opOf w = 0x23#8) : decodeA w =
    decExt w .ins := by
  unfold decodeA
  rw [h]
  rfl

theorem decodeA_24 (w : Syl) (h : opOf w = 0x24#8) : decodeA w =
    judge ((dOf w).isS && (srcOf (bOf w)).ok)
      (decide (aOf w = 0#6) && decide ((fOf w).extractLsb' 0 3 = 0#3))
      (some (.mov (dOf w) (srcOf (bOf w)) (ityOf ((fOf w).extractLsb' 3 3)))) := by
  unfold decodeA
  rw [h]
  rfl

theorem decodeA_25 (w : Syl) (h : opOf w = 0x25#8) : decodeA w =
    decImm w .movh := by
  unfold decodeA
  rw [h]
  rfl

theorem decodeA_26 (w : Syl) (h : opOf w = 0x26#8) : decodeA w =
    judge ((dOf w).isS && (aOf w).isS && (srcOf (bOf w)).ok) true
      ((spaceOf ((fOf w).extractLsb' 2 4)).map fun sp =>
        .lea (dOf w) (aOf w) (srcOf (bOf w)) sp ((fOf w).extractLsb' 0 2)) := by
  unfold decodeA
  rw [h]
  rfl

theorem decodeA_27 (w : Syl) (h : opOf w = 0x27#8) : decodeA w =
    judge ((dOf w).isP && (aOf w).isS && (srcOf (bOf w)).ok) true
      ((condOf ((fOf w).extractLsb' 0 3)).map fun c =>
        .cmp (dOf w) (aOf w) (srcOf (bOf w)) (ityOf ((fOf w).extractLsb' 3 3)) c) := by
  unfold decodeA
  rw [h]
  rfl

theorem decodeA_28 (w : Syl) (h : opOf w = 0x28#8) : decodeA w =
    decP3 w .pand := by
  unfold decodeA
  rw [h]
  rfl

theorem decodeA_29 (w : Syl) (h : opOf w = 0x29#8) : decodeA w =
    decP3 w .por := by
  unfold decodeA
  rw [h]
  rfl

theorem decodeA_2A (w : Syl) (h : opOf w = 0x2A#8) : decodeA w =
    decP3 w .pxor := by
  unfold decodeA
  rw [h]
  rfl

theorem decodeA_2B (w : Syl) (h : opOf w = 0x2B#8) : decodeA w =
    decP2 w .pnot := by
  unfold decodeA
  rw [h]
  rfl

theorem decodeA_2C (w : Syl) (h : opOf w = 0x2C#8) : decodeA w =
    decP2 w .pmov := by
  unfold decodeA
  rw [h]
  rfl

theorem decodeA_2D (w : Syl) (h : opOf w = 0x2D#8) : decodeA w =
    decP2 w .pany := by
  unfold decodeA
  rw [h]
  rfl

theorem decodeA_2E (w : Syl) (h : opOf w = 0x2E#8) : decodeA w =
    decP2 w .pall := by
  unfold decodeA
  rw [h]
  rfl

theorem decodeA_2F (w : Syl) (h : opOf w = 0x2F#8) : decodeA w =
    judge ((dOf w).isS && (aOf w).isP) (decide (immOf w = 0#12)) (some (.ppack (dOf w) (aOf w))) := by
  unfold decodeA
  rw [h]
  rfl

theorem decodeA_30 (w : Syl) (h : opOf w = 0x30#8) : decodeA w =
    decImm w .addRi := by
  unfold decodeA
  rw [h]
  rfl

theorem decodeA_31 (w : Syl) (h : opOf w = 0x31#8) : decodeA w =
    decImm w .andRi := by
  unfold decodeA
  rw [h]
  rfl

theorem decodeA_32 (w : Syl) (h : opOf w = 0x32#8) : decodeA w =
    decImm w .orRi := by
  unfold decodeA
  rw [h]
  rfl

theorem decodeA_33 (w : Syl) (h : opOf w = 0x33#8) : decodeA w =
    decImm w .xorRi := by
  unfold decodeA
  rw [h]
  rfl

theorem decodeA_34 (w : Syl) (h : opOf w = 0x34#8) : decodeA w =
    decCount w .shlRi := by
  unfold decodeA
  rw [h]
  rfl

theorem decodeA_35 (w : Syl) (h : opOf w = 0x35#8) : decodeA w =
    decCount w .shrRi := by
  unfold decodeA
  rw [h]
  rfl

theorem decodeA_36 (w : Syl) (h : opOf w = 0x36#8) : decodeA w =
    decCount w .sarRi := by
  unfold decodeA
  rw [h]
  rfl

theorem decodeA_38 (w : Syl) (h : opOf w = 0x38#8) : decodeA w =
    judge ((dOf w).isP && (aOf w).isS) (decide (immOf w = 0#12)) (some (.punpk (dOf w) (aOf w))) := by
  unfold decodeA
  rw [h]
  rfl

theorem decodeA_39 (w : Syl) (h : opOf w = 0x39#8) : decodeA w =
    judge (dOf w).isS (decide (aOf w = 0#6)) ((cregOf (immOf w)).map fun r => .mfc (dOf w) r) := by
  unfold decodeA
  rw [h]
  rfl

theorem decodeA_3A (w : Syl) (h : opOf w = 0x3A#8) : decodeA w =
    judge (aOf w).isS (decide (dOf w = 0#6)) ((cregOf (immOf w)).map fun r => .mtc (aOf w) r) := by
  unfold decodeA
  rw [h]
  rfl

theorem decodeA_3B (w : Syl) (h : opOf w = 0x3B#8) : decodeA w =
    judge ((dOf w).isS && (aOf w).isS) (decide (bOf w = 0#6))
      (some (.icvt (dOf w) (aOf w) (ityOf ((fOf w).extractLsb' 3 3)) (ityOf ((fOf w).extractLsb' 0 3)))) := by
  unfold decodeA
  rw [h]
  rfl

theorem decodeA_3C (w : Syl) (h : opOf w = 0x3C#8) : decodeA w =
    judge ((dOf w).is8 && (aOf w).isS && (srcOf (bOf w)).ok) (decide ((fOf w).extractLsb' 2 4 = 0#4))
      (if (fOf w).extractLsb' 1 1 = 0#1 then some (.winset (dOf w) (aOf w) (srcOf (bOf w)) ((fOf w).getLsbD 0)) else none)
   := by
  unfold decodeA
  rw [h]
  rfl

theorem decodeL_50 (w : Syl) (h : opOf w = 0x50#8) : decodeL w =
    decMem w Reg.isS .ldI8 := by
  unfold decodeL
  rw [h]
  rfl

theorem decodeL_51 (w : Syl) (h : opOf w = 0x51#8) : decodeL w =
    decMem w Reg.isS .ldI16 := by
  unfold decodeL
  rw [h]
  rfl

theorem decodeL_52 (w : Syl) (h : opOf w = 0x52#8) : decodeL w =
    decMem w Reg.isS .ldI32 := by
  unfold decodeL
  rw [h]
  rfl

theorem decodeL_53 (w : Syl) (h : opOf w = 0x53#8) : decodeL w =
    decMem w Reg.isS .ldI64 := by
  unfold decodeL
  rw [h]
  rfl

theorem decodeL_54 (w : Syl) (h : opOf w = 0x54#8) : decodeL w =
    decMem w Reg.isS .ldN8 := by
  unfold decodeL
  rw [h]
  rfl

theorem decodeL_55 (w : Syl) (h : opOf w = 0x55#8) : decodeL w =
    decMem w Reg.isS .ldN16 := by
  unfold decodeL
  rw [h]
  rfl

theorem decodeL_56 (w : Syl) (h : opOf w = 0x56#8) : decodeL w =
    decMem w Reg.isS .ldN32 := by
  unfold decodeL
  rw [h]
  rfl

theorem decodeL_57 (w : Syl) (h : opOf w = 0x57#8) : decodeL w =
    decMem w Reg.isS .ldvec := by
  unfold decodeL
  rw [h]
  rfl

theorem decodeL_58 (w : Syl) (h : opOf w = 0x58#8) : decodeL w =
    decMem w Reg.isS .ldv := by
  unfold decodeL
  rw [h]
  rfl

theorem decodeL_59 (w : Syl) (h : opOf w = 0x59#8) : decodeL w =
    decMem0 w Reg.isS .ldf := by
  unfold decodeL
  rw [h]
  rfl

theorem decodeL_5A (w : Syl) (h : opOf w = 0x5A#8) : decodeL w =
    decMem0 w Reg.isS .vget := by
  unfold decodeL
  rw [h]
  rfl

theorem decodeL_5B (w : Syl) (h : opOf w = 0x5B#8) : decodeL w =
    decMem0 w Reg.isS .probe := by
  unfold decodeL
  rw [h]
  rfl

theorem decodeL_5C (w : Syl) (h : opOf w = 0x5C#8) : decodeL w =
    decMem0 w (fun _ => true) .pft := by
  unfold decodeL
  rw [h]
  rfl

theorem decodeL_5D (w : Syl) (h : opOf w = 0x5D#8) : decodeL w =
    decMem0 w Reg.isS .mwait
   := by
  unfold decodeL
  rw [h]
  rfl

theorem decodeS_60 (w : Syl) (h : opOf w = 0x60#8) : decodeS w =
    decMem w Reg.isS .st8 := by
  unfold decodeS
  rw [h]
  rfl

theorem decodeS_61 (w : Syl) (h : opOf w = 0x61#8) : decodeS w =
    decMem w Reg.isS .st16 := by
  unfold decodeS
  rw [h]
  rfl

theorem decodeS_62 (w : Syl) (h : opOf w = 0x62#8) : decodeS w =
    decMem w Reg.isS .st32 := by
  unfold decodeS
  rw [h]
  rfl

theorem decodeS_63 (w : Syl) (h : opOf w = 0x63#8) : decodeS w =
    decMem w Reg.isS .st64 := by
  unfold decodeS
  rw [h]
  rfl

theorem decodeS_64 (w : Syl) (h : opOf w = 0x64#8) : decodeS w =
    decMem w Reg.isS .stvec := by
  unfold decodeS
  rw [h]
  rfl

theorem decodeS_65 (w : Syl) (h : opOf w = 0x65#8) : decodeS w =
    decMem0 w Reg.isS .stf := by
  unfold decodeS
  rw [h]
  rfl

theorem decodeS_66 (w : Syl) (h : opOf w = 0x66#8) : decodeS w =
    decMem w Reg.isPair .casv := by
  unfold decodeS
  rw [h]
  rfl

theorem decodeS_67 (w : Syl) (h : opOf w = 0x67#8) : decodeS w =
    decMem0 w Reg.isS .rel := by
  unfold decodeS
  rw [h]
  rfl

theorem decodeS_68 (w : Syl) (h : opOf w = 0x68#8) : decodeS w =
    decAtom w .atomAdd := by
  unfold decodeS
  rw [h]
  rfl

theorem decodeS_69 (w : Syl) (h : opOf w = 0x69#8) : decodeS w =
    decAtom w .atomMin := by
  unfold decodeS
  rw [h]
  rfl

theorem decodeS_6A (w : Syl) (h : opOf w = 0x6A#8) : decodeS w =
    decAtom w .atomMax := by
  unfold decodeS
  rw [h]
  rfl

theorem decodeS_6B (w : Syl) (h : opOf w = 0x6B#8) : decodeS w =
    decAtom w .atomAnd := by
  unfold decodeS
  rw [h]
  rfl

theorem decodeS_6C (w : Syl) (h : opOf w = 0x6C#8) : decodeS w =
    decAtom w .atomOr := by
  unfold decodeS
  rw [h]
  rfl

theorem decodeS_6D (w : Syl) (h : opOf w = 0x6D#8) : decodeS w =
    decAtom w .atomXor := by
  unfold decodeS
  rw [h]
  rfl

theorem decodeS_6E (w : Syl) (h : opOf w = 0x6E#8) : decodeS w =
    decAtom w .atomXchg := by
  unfold decodeS
  rw [h]
  rfl

theorem decodeS_6F (w : Syl) (h : opOf w = 0x6F#8) : decodeS w =
    decMem w Reg.isPair .atomCas := by
  unfold decodeS
  rw [h]
  rfl

theorem decodeS_70 (w : Syl) (h : opOf w = 0x70#8) : decodeS w =
    decAtom w .atomAddI32 := by
  unfold decodeS
  rw [h]
  rfl

theorem decodeS_71 (w : Syl) (h : opOf w = 0x71#8) : decodeS w =
    decAtom w .atomMinI32 := by
  unfold decodeS
  rw [h]
  rfl

theorem decodeS_72 (w : Syl) (h : opOf w = 0x72#8) : decodeS w =
    decAtom w .atomMaxI32 := by
  unfold decodeS
  rw [h]
  rfl

theorem decodeS_73 (w : Syl) (h : opOf w = 0x73#8) : decodeS w =
    decAtom w .atomAndI32 := by
  unfold decodeS
  rw [h]
  rfl

theorem decodeS_74 (w : Syl) (h : opOf w = 0x74#8) : decodeS w =
    decAtom w .atomOrI32 := by
  unfold decodeS
  rw [h]
  rfl

theorem decodeS_75 (w : Syl) (h : opOf w = 0x75#8) : decodeS w =
    decAtom w .atomXorI32 := by
  unfold decodeS
  rw [h]
  rfl

theorem decodeS_76 (w : Syl) (h : opOf w = 0x76#8) : decodeS w =
    decAtom w .atomXchgI32 := by
  unfold decodeS
  rw [h]
  rfl

theorem decodeS_77 (w : Syl) (h : opOf w = 0x77#8) : decodeS w =
    decMem w Reg.isPair .atomCasI32 := by
  unfold decodeS
  rw [h]
  rfl

theorem decodeS_78 (w : Syl) (h : opOf w = 0x78#8) : decodeS w =
    judge true (decide (dOf w = 0#6) && decide (aOf w = 0#6) && decide (w.extractLsb' 3 9 = 0#9))
      ((scopeOf (w.extractLsb' 0 3)).map .fence) := by
  unfold decodeS
  rw [h]
  rfl

theorem decodeS_79 (w : Syl) (h : opOf w = 0x79#8) : decodeS w =
    judge (dOf w).isP (decide (w.extractLsb' 0 18 = 0#18)) (some (.valset (dOf w))) := by
  unfold decodeS
  rw [h]
  rfl

theorem decodeS_7A (w : Syl) (h : opOf w = 0x7A#8) : decodeS w =
    decC0 w .vclr
   := by
  unfold decodeS
  rw [h]
  rfl

theorem decodeF_80 (w : Syl) (h : opOf w = 0x80#8) : decodeF w =
    decF3 w .fadd := by
  unfold decodeF
  rw [h]
  rfl

theorem decodeF_81 (w : Syl) (h : opOf w = 0x81#8) : decodeF w =
    decF3 w .fsub := by
  unfold decodeF
  rw [h]
  rfl

theorem decodeF_82 (w : Syl) (h : opOf w = 0x82#8) : decodeF w =
    decF3 w .fmul := by
  unfold decodeF
  rw [h]
  rfl

theorem decodeF_83 (w : Syl) (h : opOf w = 0x83#8) : decodeF w =
    decF3 w .ffma := by
  unfold decodeF
  rw [h]
  rfl

theorem decodeF_84 (w : Syl) (h : opOf w = 0x84#8) : decodeF w =
    decF3n w .fmin := by
  unfold decodeF
  rw [h]
  rfl

theorem decodeF_85 (w : Syl) (h : opOf w = 0x85#8) : decodeF w =
    decF3n w .fmax := by
  unfold decodeF
  rw [h]
  rfl

theorem decodeF_86 (w : Syl) (h : opOf w = 0x86#8) : decodeF w =
    judge ((dOf w).isS && (aOf w).isS && (srcOf (bOf w)).ok) true
      ((ftyOf ((fOf w).extractLsb' 2 4)).bind fun t => (sgnOf ((fOf w).extractLsb' 0 2)).map fun g =>
        .fsgn (dOf w) (aOf w) (srcOf (bOf w)) t g) := by
  unfold decodeF
  rw [h]
  rfl

theorem decodeF_87 (w : Syl) (h : opOf w = 0x87#8) : decodeF w =
    judge ((dOf w).isP && (aOf w).isS && (srcOf (bOf w)).ok) true
      ((ftyOf ((fOf w).extractLsb' 2 4)).map fun t =>
        .fcmp (dOf w) (aOf w) (srcOf (bOf w)) t (fcondOf ((fOf w).extractLsb' 0 2))) := by
  unfold decodeF
  rw [h]
  rfl

theorem decodeF_88 (w : Syl) (h : opOf w = 0x88#8) : decodeF w =
    decF1 w .frcp := by
  unfold decodeF
  rw [h]
  rfl

theorem decodeF_89 (w : Syl) (h : opOf w = 0x89#8) : decodeF w =
    decF1 w .frsq := by
  unfold decodeF
  rw [h]
  rfl

theorem decodeF_8A (w : Syl) (h : opOf w = 0x8A#8) : decodeF w =
    decF1 w .fexp2 := by
  unfold decodeF
  rw [h]
  rfl

theorem decodeF_8B (w : Syl) (h : opOf w = 0x8B#8) : decodeF w =
    decF1 w .flog2 := by
  unfold decodeF
  rw [h]
  rfl

theorem decodeF_8C (w : Syl) (h : opOf w = 0x8C#8) : decodeF w =
    judge ((dOf w).isS && (aOf w).isS) true
      ((ftyOf ((fOf w).extractLsb' 2 4)).bind fun dt => (ftyOf ((bOf w).extractLsb' 0 4)).bind fun st =>
        if (bOf w).extractLsb' 5 1 = 0#1 then
          some (.fcvt (dOf w) (aOf w) ((bOf w).getLsbD 4) st dt (rmOf ((fOf w).extractLsb' 0 2)))
        else none) := by
  unfold decodeF
  rw [h]
  rfl

theorem decodeF_8D (w : Syl) (h : opOf w = 0x8D#8) : decodeF w =
    decFI w .fcvti := by
  unfold decodeF
  rw [h]
  rfl

theorem decodeF_8E (w : Syl) (h : opOf w = 0x8E#8) : decodeF w =
    decFI w .icvtf := by
  unfold decodeF
  rw [h]
  rfl

theorem decodeF_90 (w : Syl) (h : opOf w = 0x90#8) : decodeF w =
    decF3 w .vadd := by
  unfold decodeF
  rw [h]
  rfl

theorem decodeF_91 (w : Syl) (h : opOf w = 0x91#8) : decodeF w =
    decF3 w .vmul := by
  unfold decodeF
  rw [h]
  rfl

theorem decodeF_92 (w : Syl) (h : opOf w = 0x92#8) : decodeF w =
    decV3 w .vand := by
  unfold decodeF
  rw [h]
  rfl

theorem decodeF_93 (w : Syl) (h : opOf w = 0x93#8) : decodeF w =
    decV3 w .vor := by
  unfold decodeF
  rw [h]
  rfl

theorem decodeF_94 (w : Syl) (h : opOf w = 0x94#8) : decodeF w =
    decV3 w .vshf := by
  unfold decodeF
  rw [h]
  rfl

theorem decodeF_95 (w : Syl) (h : opOf w = 0x95#8) : decodeF w =
    judge ((dOf w).isS && (aOf w).isS) (decide (immOf w = 0#12)) (some (.vbcast (dOf w) (aOf w))) := by
  unfold decodeF
  rw [h]
  rfl

theorem decodeF_96 (w : Syl) (h : opOf w = 0x96#8) : decodeF w =
    judge ((dOf w).isS && (aOf w).isS) (decide (bOf w = 0#6))
      ((ftyOf ((fOf w).extractLsb' 2 4)).map fun t => .vredadd (dOf w) (aOf w) t (rmOf ((fOf w).extractLsb' 0 2))) := by
  unfold decodeF
  rw [h]
  rfl

theorem decodeF_97 (w : Syl) (h : opOf w = 0x97#8) : decodeF w =
    judge ((dOf w).isS && (aOf w).isS)
      (decide (bOf w = 0#6) && decide ((fOf w).extractLsb' 0 2 = 0#2))
      ((ftyOf ((fOf w).extractLsb' 2 4)).map fun t => .vredmax (dOf w) (aOf w) t) := by
  unfold decodeF
  rw [h]
  rfl

theorem decodeF_98 (w : Syl) (h : opOf w = 0x98#8) : decodeF w =
    decSel w .vsel := by
  unfold decodeF
  rw [h]
  rfl

theorem decodeF_99 (w : Syl) (h : opOf w = 0x99#8) : decodeF w =
    decF3 w .vpack := by
  unfold decodeF
  rw [h]
  rfl

theorem decodeF_9A (w : Syl) (h : opOf w = 0x9A#8) : decodeF w =
    judge ((dOf w).isS && (aOf w).isS) (decide (bOf w = 0#6))
      ((ftyOf ((fOf w).extractLsb' 2 4)).map fun t => .vunpk (dOf w) (aOf w) t ((fOf w).extractLsb' 0 2)) := by
  unfold decodeF
  rw [h]
  rfl

theorem decodeF_9B (w : Syl) (h : opOf w = 0x9B#8) : decodeF w =
    decV3 w .vlane := by
  unfold decodeF
  rw [h]
  rfl

theorem decodeF_9C (w : Syl) (h : opOf w = 0x9C#8) : decodeF w =
    decV3 w .vins := by
  unfold decodeF
  rw [h]
  rfl

theorem decodeF_9D (w : Syl) (h : opOf w = 0x9D#8) : decodeF w =
    decF3 w .vfma
   := by
  unfold decodeF
  rw [h]
  rfl

theorem decodeX_C0 (w : Syl) (h : opOf w = 0xC0#8) : decodeX w =
    judge ((xaOf w).isS && (srcOf (xbOf w)).ok) (decide (w.extractLsb' 6 2 = 0#2))
      (some (.erw (engOf w) (xaOf w) (srcOf (xbOf w)) (fOf w))) := by
  unfold decodeX
  rw [h]
  rfl

theorem decodeX_C1 (w : Syl) (h : opOf w = 0xC1#8) : decodeX w =
    judge (xaOf w).isS (decide (xbOf w = 0#6) && decide (w.extractLsb' 6 2 = 0#2))
      (some (.erd (engOf w) (xaOf w) (fOf w))) := by
  unfold decodeX
  rw [h]
  rfl

theorem decodeX_C2 (w : Syl) (h : opOf w = 0xC2#8) : decodeX w =
    decX0 w 0#4 (decide (cmdOf w = 0#8)) (some .mlease) := by
  unfold decodeX
  rw [h]
  rfl

theorem decodeX_C3 (w : Syl) (h : opOf w = 0xC3#8) : decodeX w =
    decX0 w 0#4 (decide (cmdOf w = 0#8)) (some .mfree) := by
  unfold decodeX
  rw [h]
  rfl

theorem decodeX_C4 (w : Syl) (h : opOf w = 0xC4#8) : decodeX w =
    decX0 w 0#4 true ((ftyOf (w.extractLsb' 4 4)).bind fun x => (ftyOf (w.extractLsb' 0 4)).map (.mma x)) := by
  unfold decodeX
  rw [h]
  rfl

theorem decodeX_C5 (w : Syl) (h : opOf w = 0xC5#8) : decodeX w =
    decX0 w 0#4 true ((ftyOf (w.extractLsb' 4 4)).bind fun x => (ftyOf (w.extractLsb' 0 4)).map (.mmas x)) := by
  unfold decodeX
  rw [h]
  rfl

theorem decodeX_C6 (w : Syl) (h : opOf w = 0xC6#8) : decodeX w =
    decX0 w 1#4 (decide (w.extractLsb' 0 4 = 0#4)) ((ftyOf (w.extractLsb' 4 4)).map .mgath) := by
  unfold decodeX
  rw [h]
  rfl

theorem decodeX_C7 (w : Syl) (h : opOf w = 0xC7#8) : decodeX w =
    decX0 w 0#4 (decide (w.extractLsb' 0 4 = 0#4)) ((ftyOf (w.extractLsb' 4 4)).map .accrd) := by
  unfold decodeX
  rw [h]
  rfl

theorem decodeX_C8 (w : Syl) (h : opOf w = 0xC8#8) : decodeX w =
    decX0 w 0#4 (decide (w.extractLsb' 0 4 = 0#4)) ((ftyOf (w.extractLsb' 4 4)).map .accwr) := by
  unfold decodeX
  rw [h]
  rfl

theorem decodeX_C9 (w : Syl) (h : opOf w = 0xC9#8) : decodeX w =
    decX0 w 0#4 (decide (cmdOf w = 0#8)) (some .accz) := by
  unfold decodeX
  rw [h]
  rfl

theorem decodeX_CA (w : Syl) (h : opOf w = 0xCA#8) : decodeX w =
    decX0 w 2#4 true ((vopOf (cmdOf w)).map .vecop) := by
  unfold decodeX
  rw [h]
  rfl

theorem decodeX_CB (w : Syl) (h : opOf w = 0xCB#8) : decodeX w =
    decX0 w 3#4 (decide (cmdOf w = 0#8)) (some .cpy) := by
  unfold decodeX
  rw [h]
  rfl

theorem decodeX_CC (w : Syl) (h : opOf w = 0xCC#8) : decodeX w =
    decX0 w 3#4 (decide (cmdOf w = 0#8)) (some .cpyd) := by
  unfold decodeX
  rw [h]
  rfl

theorem decodeX_CD (w : Syl) (h : opOf w = 0xCD#8) : decodeX w =
    decX0 w 9#4 (decide (cmdOf w = 0#8)) (some .ifill) := by
  unfold decodeX
  rw [h]
  rfl

theorem decodeX_CE (w : Syl) (h : opOf w = 0xCE#8) : decodeX w =
    decX0 w 4#4 true
      ((ftyOf (w.extractLsb' 4 4)).bind fun t => (copOf (w.extractLsb' 0 4)).map (.coll t)) := by
  unfold decodeX
  rw [h]
  rfl

theorem decodeX_D0 (w : Syl) (h : opOf w = 0xD0#8) : decodeX w =
    judge ((xaOf w).isS && (srcOf (xbOf w)).ok) (decide (cmdOf w = 0#8))
      (some (.tlwait (engOf w) (xaOf w) (srcOf (xbOf w)))) := by
  unfold decodeX
  rw [h]
  rfl

theorem decodeX_D1 (w : Syl) (h : opOf w = 0xD1#8) : decodeX w =
    judge (xaOf w).isS (decide (xbOf w = 0#6) && decide (cmdOf w = 0#8))
      (some (.tlread (engOf w) (xaOf w))) := by
  unfold decodeX
  rw [h]
  rfl

theorem decodeX_D2 (w : Syl) (h : opOf w = 0xD2#8) : decodeX w =
    decXA w 5#4 .phreg := by
  unfold decodeX
  rw [h]
  rfl

theorem decodeX_D3 (w : Syl) (h : opOf w = 0xD3#8) : decodeX w =
    decXA w 5#4 .phdrop := by
  unfold decodeX
  rw [h]
  rfl

theorem decodeX_D4 (w : Syl) (h : opOf w = 0xD4#8) : decodeX w =
    decXA w 5#4 .phsig := by
  unfold decodeX
  rw [h]
  rfl

theorem decodeX_D5 (w : Syl) (h : opOf w = 0xD5#8) : decodeX w =
    judge ((xaOf w).isS && (srcOf (xbOf w)).ok) (decide (cmdOf w = 0#8))
      (if engOf w = 5#4 then some (.phwait (xaOf w) (srcOf (xbOf w))) else none) := by
  unfold decodeX
  rw [h]
  rfl

theorem decodeX_D6 (w : Syl) (h : opOf w = 0xD6#8) : decodeX w =
    decXA w 5#4 .phsw := by
  unfold decodeX
  rw [h]
  rfl

theorem decodeX_D7 (w : Syl) (h : opOf w = 0xD7#8) : decodeX w =
    judge ((xaOf w).isPair && (srcOf (xbOf w)).ok) (decide (engOf w = 0#4) && decide (cmdOf w = 0#8))
      (some (.bind (xaOf w) (srcOf (xbOf w)))) := by
  unfold decodeX
  rw [h]
  rfl

theorem decodeX_D8 (w : Syl) (h : opOf w = 0xD8#8) : decodeX w =
    judge ((xaOf w).isPair && (srcOf (xbOf w)).ok) (decide (engOf w = 0#4) && decide (cmdOf w = 0#8))
      (some (.unbind (xaOf w) (srcOf (xbOf w)))) := by
  unfold decodeX
  rw [h]
  rfl

theorem decodeX_D9 (w : Syl) (h : opOf w = 0xD9#8) : decodeX w =
    decXA w 6#4 .tkget := by
  unfold decodeX
  rw [h]
  rfl

theorem decodeX_DA (w : Syl) (h : opOf w = 0xDA#8) : decodeX w =
    decX0 w 6#4 (decide (cmdOf w = 0#8)) (some .tkdone) := by
  unfold decodeX
  rw [h]
  rfl

theorem decodeX_DB (w : Syl) (h : opOf w = 0xDB#8) : decodeX w =
    decXA w 7#4 .fwait := by
  unfold decodeX
  rw [h]
  rfl

theorem decodeX_DC (w : Syl) (h : opOf w = 0xDC#8) : decodeX w =
    decX0 w 8#4 (decide (cmdOf w = 0#8)) (some .bmsg) := by
  unfold decodeX
  rw [h]
  rfl

theorem decodeX_DD (w : Syl) (h : opOf w = 0xDD#8) : decodeX w =
    judge ((xaOf w).isS && (srcOf (xbOf w)).ok) (decide (engOf w = 0#4) && decide (cmdOf w = 0#8))
      (some (.cbsync (xaOf w) (srcOf (xbOf w))))
   := by
  unfold decodeX
  rw [h]
  rfl

theorem decodeQ_E0 (w : Syl) (h : opOf w = 0xE0#8) : decodeQ w =
    judge (aOf w).isS (decide (q0Of w = 0#2)) (some (.qld (engOf w) (aOf w) (immOf w))) := by
  unfold decodeQ
  rw [h]
  rfl

theorem decodeQ_E1 (w : Syl) (h : opOf w = 0xE1#8) : decodeQ w =
    judge (aOf w).isS (decide (q0Of w = 0#2) && decide (immOf w = 0#12)) (some (.qmov (engOf w) (aOf w))) := by
  unfold decodeQ
  rw [h]
  rfl

theorem decodeQ_E2 (w : Syl) (h : opOf w = 0xE2#8) : decodeQ w =
    judge true (decide (q0Of w = 0#2) && decide (aOf w = 0#6) && decide (w.extractLsb' 8 4 = 0#4))
      (some (.qset (engOf w) (cmdOf w))) := by
  unfold decodeQ
  rw [h]
  rfl

theorem decodeQ_E3 (w : Syl) (h : opOf w = 0xE3#8) : decodeQ w =
    judge (decide ((engOf w).toNat < 8) && (aOf w).isS) (decide (q0Of w = 0#2) && decide (immOf w = 0#12))
      (some (.fmtset (engOf w) (aOf w)))
   := by
  unfold decodeQ
  rw [h]
  rfl

/-! ### Constructors -/

theorem bundleIssue (core : Nat) : Statement (.bundleIssue core) := by
  intro _ w h
  cases h

theorem fatalStop (g : Nat) : Statement (.fatalStop g) := by
  intro _ w h
  cases h

theorem resultLand (g k : Nat) : Statement (.resultLand g k) := by
  intro _ w h
  cases h

theorem branchResolve (g : Nat) : Statement (.branchResolve g) := by
  intro _ w h
  cases h

theorem armStallTimeout (g : Nat) : Statement (.armStallTimeout g) := by
  intro _ w h
  cases h

theorem commitBufferRelease (core : Nat) : Statement (.commitBufferRelease core) := by
  intro _ w h
  cases h

theorem leaseGrant (cl : Nat) : Statement (.leaseGrant cl) := by
  intro _ w h
  cases h

theorem leaseRunLimit (cl : Nat) : Statement (.leaseRunLimit cl) := by
  intro _ w h
  cases h

theorem leaseIdlePass (cl : Nat) : Statement (.leaseIdlePass cl) := by
  intro _ w h
  cases h

theorem tdtDispatch (core k : Nat) : Statement (.tdtDispatch core k) := by
  intro _ w h
  cases h

theorem engineCommandComplete (cl : Nat) (vec : Bool) : Statement (.engineCommandComplete cl vec) := by
  intro _ w h
  cases h

theorem copyStart (core k : Nat) : Statement (.copyStart core k) := by
  intro _ w h
  cases h

theorem copyComplete (core k : Nat) : Statement (.copyComplete core k) := by
  intro _ w h
  cases h

theorem collComplete (seq : Word) (remote : List RemoteRank) : Statement (.collComplete seq remote) := by
  intro _ w h
  cases h

theorem ifillComplete (core : Nat) : Statement (.ifillComplete core) := by
  intro _ w h
  cases h

theorem sliceLineFill (slice k : Nat) : Statement (.sliceLineFill slice k) := by
  intro _ w h
  cases h

theorem writeTransaction (core k : Nat) : Statement (.writeTransaction core k) := by
  intro _ w h
  cases h

theorem mwaitTimeout (g : Nat) : Statement (.mwaitTimeout g) := by
  intro _ w h
  cases h

theorem mwaitSpuriousWake (g : Nat) : Statement (.mwaitSpuriousWake g) := by
  intro _ w h
  cases h

theorem ldfPerform (g k : Nat) : Statement (.ldfPerform g k) := by
  intro _ w h
  cases h

theorem futureAnswer (g k : Nat) : Statement (.futureAnswer g k) := by
  intro _ w h
  cases h

theorem fwaitBackoffExpire (g : Nat) : Statement (.fwaitBackoffExpire g) := by
  intro _ w h
  cases h

theorem qntFlushFull (cl k : Nat) : Statement (.qntFlushFull cl k) := by
  intro _ w h
  cases h

theorem qntFlushTimeout (cl k : Nat) : Statement (.qntFlushTimeout cl k) := by
  intro _ w h
  cases h

theorem badgerMsgArrive (slice : Nat) : Statement (.badgerMsgArrive slice) := by
  intro _ w h
  cases h

theorem badgerHandlerStart (slice : Nat) : Statement (.badgerHandlerStart slice) := by
  intro _ w h
  cases h

theorem badgerPfetch (slice : Nat) (ia : Word) : Statement (.badgerPfetch slice ia) := by
  intro _ w h
  cases h

theorem badgerRdata (slice : Nat) (addr : Word) : Statement (.badgerRdata slice addr) := by
  intro _ w h
  cases h

theorem badgerWdata (slice : Nat) (addr val : Word) : Statement (.badgerWdata slice addr val) := by
  intro _ w h
  cases h

theorem badgerDone (slice : Nat) (reply : Option Word) : Statement (.badgerDone slice reply) := by
  intro _ w h
  cases h

theorem badgerBudgetExpire (slice : Nat) : Statement (.badgerBudgetExpire slice) := by
  intro _ w h
  cases h

theorem badgerAbort (slice : Nat) : Statement (.badgerAbort slice) := by
  intro _ w h
  cases h

theorem hbmRefresh (ctrl bank : Nat) : Statement (.hbmRefresh ctrl bank) := by
  intro _ w h
  cases h

theorem hbmForcedRefresh (ctrl bank clocks : Nat) : Statement (.hbmForcedRefresh ctrl bank clocks) := by
  intro _ w h
  cases h

theorem eccUncorrectable (ia : Nat) (inMemory : Bool) : Statement (.eccUncorrectable ia inMemory) := by
  intro _ w h
  cases h

theorem tinv (len : Word) : Statement (.tinv len) := by
  intro _ w h
  cases h

theorem tinvComplete : Statement (.tinvComplete) := by
  intro _ w h
  cases h

theorem qtailDoorbell (q : Nat) (v : Word) : Statement (.qtailDoorbell q v) := by
  intro _ w h
  cases h

theorem queueEntryRead (die : Nat) : Statement (.queueEntryRead die) := by
  intro _ w h
  cases h

theorem launch (q : Nat) : Statement (.launch q) := by
  intro _ w h
  cases h

theorem wait (q : Nat) : Statement (.wait q) := by
  intro _ w h
  cases h

theorem waitRetire (q : Nat) : Statement (.waitRetire q) := by
  intro _ w h
  cases h

theorem signal (q : Nat) : Statement (.signal q) := by
  intro _ w h
  cases h

theorem copy (q : Nat) : Statement (.copy q) := by
  intro _ w h
  cases h

theorem copyCommandComplete (q : Nat) : Statement (.copyCommandComplete q) := by
  intro _ w h
  cases h

theorem mark (q : Nat) : Statement (.mark q) := by
  intro _ w h
  cases h

theorem launchReserving (gid : Nat) : Statement (.launchReserving gid) := by
  intro _ w h
  cases h

theorem gangPlace (gid : Nat) : Statement (.gangPlace gid) := by
  intro _ w h
  cases h

theorem gangRetire (gid : Nat) : Statement (.gangRetire gid) := by
  intro _ w h
  cases h

theorem preempt (ia : Word) : Statement (.preempt ia) := by
  intro _ w h
  cases h

theorem contextDrain (g : Nat) : Statement (.contextDrain g) := by
  intro _ w h
  cases h

theorem crewSave (gid j : Nat) : Statement (.crewSave gid j) := by
  intro _ w h
  cases h

theorem gangRestore (gid : Nat) : Statement (.gangRestore gid) := by
  intro _ w h
  cases h

theorem functionLevelReset (vf : Nat) : Statement (.functionLevelReset vf) := by
  intro _ w h
  cases h

theorem slotTableTurn : Statement (.slotTableTurn) := by
  intro _ w h
  cases h

theorem cntSample (cl n : Nat) : Statement (.cntSample cl n) := by
  intro _ w h
  cases h

theorem sampleBreakdown (cl n : Nat) (total : BitVec 32) (stages : List (BitVec 16)) : Statement (.sampleBreakdown cl n total stages) := by
  intro _ w h
  cases h

theorem powerOnReset : Statement (.powerOnReset) := by
  intro _ w h
  cases h

theorem bringupStageDone (ok : Bool) (mask : BitVec 64) : Statement (.bringupStageDone ok mask) := by
  intro _ w h
  cases h

theorem throttle : Statement (.throttle) := by
  intro _ w h
  cases h

theorem throttleRelease : Statement (.throttleRelease) := by
  intro _ w h
  cases h

theorem thermalTrip : Statement (.thermalTrip) := by
  intro _ w h
  cases h

theorem flitReceive (link : Nat) (flit : List Byte) : Statement (.flitReceive link flit) := by
  intro _ w h
  cases h

theorem linkRetrain (link : Nat) : Statement (.linkRetrain link) := by
  intro _ w h
  cases h

theorem linkRetrainDone (link : Nat) (ok : Bool) : Statement (.linkRetrainDone link ok) := by
  intro _ w h
  cases h

theorem form (partners : List (Option (BitVec 256 × BitVec 256))) : Statement (.form partners) := by
  intro _ w h
  cases h

theorem keyNonceRequest (nonce : BitVec 256) : Statement (.keyNonceRequest nonce) := by
  intro _ w h
  cases h

theorem keyDelivery (block : List Byte) : Statement (.keyDelivery block) := by
  intro _ w h
  cases h

theorem evidenceRequest (w : Byte) (nonce : BitVec 256) (answers : List (Nat × List Byte)) : Statement (.evidenceRequest w nonce answers) := by
  intro _ w h
  cases h

theorem evidenceTimeout (member : Nat) : Statement (.evidenceTimeout member) := by
  intro _ w h
  cases h

theorem worldRelease (w : Byte) : Statement (.worldRelease w) := by
  intro _ w h
  cases h

theorem cfenceWrite (v : Word) : Statement (.cfenceWrite v) := by
  intro _ w h
  cases h

theorem sidebandMessage (msg : List Byte) : Statement (.sidebandMessage msg) := by
  intro _ w h
  cases h

theorem registerWrite (fn : Option Nat) (off size : Nat) (v : Word) : Statement (.registerWrite fn off size v) := by
  intro _ w h
  cases h

theorem uncorrectableHardwareError (core : Nat) : Statement (.uncorrectableHardwareError core) := by
  intro _ w h
  cases h

theorem powerLoss : Statement (.powerLoss) := by
  intro _ w h
  cases h

theorem nop (stop gn : Bool) (gp : Reg) (hint : BitVec 4) (bimm : BitVec 12) : Statement (.nop stop gn gp hint bimm) := by
  intro h w e
  cases e
  constructor
  · unfold decodeBundle
    simp only [wordRound, headerRound]
    rfl
  · have hv : (decide (gp.toNat < 48) && !(gn && decide (gp = 0#6))) = true := (Bool.and_eq_true_iff.1 h).2
    show firstIllegal _ = none
    unfold firstIllegal
    rw [if_pos (by exact hv)]
    rfl

theorem pt (bt : BitVec 2) (off : BitVec 22) : Statement (.pt bt off) := by
  intro h w e
  cases e
  refine ⟨⟨.c, by simp; rfl⟩, ?_⟩
  intro sl hk
  refine inSlot sl .c decodeC _ 0x00 _ (by simp) (by decide) hk (by intro k' e; cases k' <;> first | rfl | cases e) ?_
  have hv : (Instr.pt bt off).valsOk = true := (Bool.and_eq_true_iff.1 h).2
  rw [decodeC_00 _ (by simp)]
  simp [judge, hv]

theorem ptr (bt : BitVec 2) (a : Reg) : Statement (.ptr bt a) := by
  intro h w e
  cases e
  refine ⟨⟨.c, by simp; rfl⟩, ?_⟩
  intro sl hk
  refine inSlot sl .c decodeC _ 0x01 _ (by simp) (by decide) hk (by intro k' e; cases k' <;> first | rfl | cases e) ?_
  have hv : (Instr.ptr bt a).valsOk = true := (Bool.and_eq_true_iff.1 h).2
  have hr : (a.isS) = true := (Bool.and_eq_true_iff.1 h).1
  rw [decodeC_01 _ (by simp)]
  simp [judge, hv, hr]

theorem br (bt : BitVec 2) (arm neg : Bool) (p : Reg) : Statement (.br bt arm neg p) := by
  intro h w e
  cases e
  refine ⟨⟨.c, by simp; rfl⟩, ?_⟩
  intro sl hk
  refine inSlot sl .c decodeC _ 0x02 _ (by simp) (by decide) hk (by intro k' e; cases k' <;> first | rfl | cases e) ?_
  have hv : (Instr.br bt arm neg p).valsOk = true := (Bool.and_eq_true_iff.1 h).2
  have hr : (p.isP) = true := (Bool.and_eq_true_iff.1 h).1
  rw [decodeC_02 _ (by simp)]
  simp [judge, hv, hr]

theorem call (bt : BitVec 2) : Statement (.call bt) := by
  intro h w e
  cases e
  refine ⟨⟨.c, by simp; rfl⟩, ?_⟩
  intro sl hk
  refine inSlot sl .c decodeC _ 0x03 _ (by simp) (by decide) hk (by intro k' e; cases k' <;> first | rfl | cases e) ?_
  have hv : (Instr.call bt).valsOk = true := (Bool.and_eq_true_iff.1 h).2
  rw [decodeC_03 _ (by simp)]
  simp [decBT, judge, hv]

theorem callt (a : Reg) (sig : BitVec 12) : Statement (.callt a sig) := by
  intro h w e
  cases e
  refine ⟨⟨.c, by simp; rfl⟩, ?_⟩
  intro sl hk
  refine inSlot sl .c decodeC _ 0x04 _ (by simp) (by decide) hk (by intro k' e; cases k' <;> first | rfl | cases e) ?_
  have hv : (Instr.callt a sig).valsOk = true := (Bool.and_eq_true_iff.1 h).2
  have hr : (a.isS) = true := (Bool.and_eq_true_iff.1 h).1
  rw [decodeC_04 _ (by simp)]
  simp [judge, hv, hr]

theorem ret : Statement (.ret) := by
  intro h w e
  cases e
  refine ⟨⟨.c, by simp; rfl⟩, ?_⟩
  intro sl hk
  refine inSlot sl .c decodeC _ 0x05 _ (by simp) (by decide) hk (by intro k' e; cases k' <;> first | rfl | cases e) ?_
  have hv : (Instr.ret).valsOk = true := (Bool.and_eq_true_iff.1 h).2
  rw [decodeC_05 _ (by simp)]
  simp [decC0, judge, hv]

theorem loop (len : BitVec 4) (depth : BitVec 3) : Statement (.loop len depth) := by
  intro h w e
  cases e
  refine ⟨⟨.c, by simp; rfl⟩, ?_⟩
  intro sl hk
  refine inSlot sl .c decodeC _ 0x06 _ (by simp) (by decide) hk (by intro k' e; cases k' <;> first | rfl | cases e) ?_
  have hv : (Instr.loop len depth).valsOk = true := (Bool.and_eq_true_iff.1 h).2
  rw [decodeC_06 _ (by simp)]
  simp [judge, hv]

theorem bswap (bt : BitVec 2) : Statement (.bswap bt) := by
  intro h w e
  cases e
  refine ⟨⟨.c, by simp; rfl⟩, ?_⟩
  intro sl hk
  refine inSlot sl .c decodeC _ 0x07 _ (by simp) (by decide) hk (by intro k' e; cases k' <;> first | rfl | cases e) ?_
  have hv : (Instr.bswap bt).valsOk = true := (Bool.and_eq_true_iff.1 h).2
  rw [decodeC_07 _ (by simp)]
  simp [decBT, judge, hv]

theorem ifence : Statement (.ifence) := by
  intro h w e
  cases e
  refine ⟨⟨.c, by simp; rfl⟩, ?_⟩
  intro sl hk
  refine inSlot sl .c decodeC _ 0x08 _ (by simp) (by decide) hk (by intro k' e; cases k' <;> first | rfl | cases e) ?_
  have hv : (Instr.ifence).valsOk = true := (Bool.and_eq_true_iff.1 h).2
  rw [decodeC_08 _ (by simp)]
  simp [decC0, judge, hv]

theorem trap (code : BitVec 12) : Statement (.trap code) := by
  intro h w e
  cases e
  refine ⟨⟨.c, by simp; rfl⟩, ?_⟩
  intro sl hk
  refine inSlot sl .c decodeC _ 0x09 _ (by simp) (by decide) hk (by intro k' e; cases k' <;> first | rfl | cases e) ?_
  have hv : (Instr.trap code).valsOk = true := (Bool.and_eq_true_iff.1 h).2
  rw [decodeC_09 _ (by simp)]
  simp [judge, hv]

theorem resume : Statement (.resume) := by
  intro h w e
  cases e
  refine ⟨⟨.c, by simp; rfl⟩, ?_⟩
  intro sl hk
  refine inSlot sl .c decodeC _ 0x0A _ (by simp) (by decide) hk (by intro k' e; cases k' <;> first | rfl | cases e) ?_
  have hv : (Instr.resume).valsOk = true := (Bool.and_eq_true_iff.1 h).2
  rw [decodeC_0A _ (by simp)]
  simp [decC0, judge, hv]

theorem yield : Statement (.yield) := by
  intro h w e
  cases e
  refine ⟨⟨.c, by simp; rfl⟩, ?_⟩
  intro sl hk
  refine inSlot sl .c decodeC _ 0x0B _ (by simp) (by decide) hk (by intro k' e; cases k' <;> first | rfl | cases e) ?_
  have hv : (Instr.yield).valsOk = true := (Bool.and_eq_true_iff.1 h).2
  rw [decodeC_0B _ (by simp)]
  simp [decC0, judge, hv]

theorem exit : Statement (.exit) := by
  intro h w e
  cases e
  refine ⟨⟨.c, by simp; rfl⟩, ?_⟩
  intro sl hk
  refine inSlot sl .c decodeC _ 0x0C _ (by simp) (by decide) hk (by intro k' e; cases k' <;> first | rfl | cases e) ?_
  have hv : (Instr.exit).valsOk = true := (Bool.and_eq_true_iff.1 h).2
  rw [decodeC_0C _ (by simp)]
  simp [decC0, judge, hv]

theorem add (d a : Reg) (b : Src) (t : ITy) : Statement (.add d a b t) := by
  intro h w e
  cases e
  refine ⟨⟨.a0, by simp; rfl⟩, ?_⟩
  intro sl hk
  refine inSlot sl .a0 decodeA _ 0x10 _ (by simp) (by decide) hk (by intro k' e; cases k' <;> first | rfl | cases e) ?_
  have hv : (Instr.add d a b t).valsOk = true := (Bool.and_eq_true_iff.1 h).2
  have hr : (d.isS && a.isS && b.ok) = true := (Bool.and_eq_true_iff.1 h).1
  simp only [Bool.and_eq_true] at hr
  rw [decodeA_10 _ (by simp)]
  simp [decInt, judge, hv, hr, srcRound]

theorem sub (d a : Reg) (b : Src) (t : ITy) : Statement (.sub d a b t) := by
  intro h w e
  cases e
  refine ⟨⟨.a0, by simp; rfl⟩, ?_⟩
  intro sl hk
  refine inSlot sl .a0 decodeA _ 0x11 _ (by simp) (by decide) hk (by intro k' e; cases k' <;> first | rfl | cases e) ?_
  have hv : (Instr.sub d a b t).valsOk = true := (Bool.and_eq_true_iff.1 h).2
  have hr : (d.isS && a.isS && b.ok) = true := (Bool.and_eq_true_iff.1 h).1
  simp only [Bool.and_eq_true] at hr
  rw [decodeA_11 _ (by simp)]
  simp [decInt, judge, hv, hr, srcRound]

theorem mul (d a : Reg) (b : Src) (t : ITy) : Statement (.mul d a b t) := by
  intro h w e
  cases e
  refine ⟨⟨.a0, by simp; rfl⟩, ?_⟩
  intro sl hk
  refine inSlot sl .a0 decodeA _ 0x12 _ (by simp) (by decide) hk (by intro k' e; cases k' <;> first | rfl | cases e) ?_
  have hv : (Instr.mul d a b t).valsOk = true := (Bool.and_eq_true_iff.1 h).2
  have hr : (d.isS && a.isS && b.ok) = true := (Bool.and_eq_true_iff.1 h).1
  simp only [Bool.and_eq_true] at hr
  rw [decodeA_12 _ (by simp)]
  simp [decInt, judge, hv, hr, srcRound]

theorem mulh (d a : Reg) (b : Src) (t : ITy) : Statement (.mulh d a b t) := by
  intro h w e
  cases e
  refine ⟨⟨.a0, by simp; rfl⟩, ?_⟩
  intro sl hk
  refine inSlot sl .a0 decodeA _ 0x13 _ (by simp) (by decide) hk (by intro k' e; cases k' <;> first | rfl | cases e) ?_
  have hv : (Instr.mulh d a b t).valsOk = true := (Bool.and_eq_true_iff.1 h).2
  have hr : (d.isS && a.isS && b.ok) = true := (Bool.and_eq_true_iff.1 h).1
  simp only [Bool.and_eq_true] at hr
  rw [decodeA_13 _ (by simp)]
  simp [decInt, judge, hv, hr, srcRound]

theorem div (d a : Reg) (b : Src) (t : ITy) : Statement (.div d a b t) := by
  intro h w e
  cases e
  refine ⟨⟨.a0, by simp; rfl⟩, ?_⟩
  intro sl hk
  refine inSlot sl .a0 decodeA _ 0x14 _ (by simp) (by decide) hk (by intro k' e; cases k' <;> first | rfl | cases e) ?_
  have hv : (Instr.div d a b t).valsOk = true := (Bool.and_eq_true_iff.1 h).2
  have hr : (d.isS && a.isS && b.ok) = true := (Bool.and_eq_true_iff.1 h).1
  simp only [Bool.and_eq_true] at hr
  rw [decodeA_14 _ (by simp)]
  simp [decInt, judge, hv, hr, srcRound]

theorem rem (d a : Reg) (b : Src) (t : ITy) : Statement (.rem d a b t) := by
  intro h w e
  cases e
  refine ⟨⟨.a0, by simp; rfl⟩, ?_⟩
  intro sl hk
  refine inSlot sl .a0 decodeA _ 0x15 _ (by simp) (by decide) hk (by intro k' e; cases k' <;> first | rfl | cases e) ?_
  have hv : (Instr.rem d a b t).valsOk = true := (Bool.and_eq_true_iff.1 h).2
  have hr : (d.isS && a.isS && b.ok) = true := (Bool.and_eq_true_iff.1 h).1
  simp only [Bool.and_eq_true] at hr
  rw [decodeA_15 _ (by simp)]
  simp [decInt, judge, hv, hr, srcRound]

theorem and (d a : Reg) (b : Src) (t : ITy) : Statement (.and d a b t) := by
  intro h w e
  cases e
  refine ⟨⟨.a0, by simp; rfl⟩, ?_⟩
  intro sl hk
  refine inSlot sl .a0 decodeA _ 0x16 _ (by simp) (by decide) hk (by intro k' e; cases k' <;> first | rfl | cases e) ?_
  have hv : (Instr.and d a b t).valsOk = true := (Bool.and_eq_true_iff.1 h).2
  have hr : (d.isS && a.isS && b.ok) = true := (Bool.and_eq_true_iff.1 h).1
  simp only [Bool.and_eq_true] at hr
  rw [decodeA_16 _ (by simp)]
  simp [decInt, judge, hv, hr, srcRound]

theorem or (d a : Reg) (b : Src) (t : ITy) : Statement (.or d a b t) := by
  intro h w e
  cases e
  refine ⟨⟨.a0, by simp; rfl⟩, ?_⟩
  intro sl hk
  refine inSlot sl .a0 decodeA _ 0x17 _ (by simp) (by decide) hk (by intro k' e; cases k' <;> first | rfl | cases e) ?_
  have hv : (Instr.or d a b t).valsOk = true := (Bool.and_eq_true_iff.1 h).2
  have hr : (d.isS && a.isS && b.ok) = true := (Bool.and_eq_true_iff.1 h).1
  simp only [Bool.and_eq_true] at hr
  rw [decodeA_17 _ (by simp)]
  simp [decInt, judge, hv, hr, srcRound]

theorem xor (d a : Reg) (b : Src) (t : ITy) : Statement (.xor d a b t) := by
  intro h w e
  cases e
  refine ⟨⟨.a0, by simp; rfl⟩, ?_⟩
  intro sl hk
  refine inSlot sl .a0 decodeA _ 0x18 _ (by simp) (by decide) hk (by intro k' e; cases k' <;> first | rfl | cases e) ?_
  have hv : (Instr.xor d a b t).valsOk = true := (Bool.and_eq_true_iff.1 h).2
  have hr : (d.isS && a.isS && b.ok) = true := (Bool.and_eq_true_iff.1 h).1
  simp only [Bool.and_eq_true] at hr
  rw [decodeA_18 _ (by simp)]
  simp [decInt, judge, hv, hr, srcRound]

theorem andn (d a : Reg) (b : Src) (t : ITy) : Statement (.andn d a b t) := by
  intro h w e
  cases e
  refine ⟨⟨.a0, by simp; rfl⟩, ?_⟩
  intro sl hk
  refine inSlot sl .a0 decodeA _ 0x19 _ (by simp) (by decide) hk (by intro k' e; cases k' <;> first | rfl | cases e) ?_
  have hv : (Instr.andn d a b t).valsOk = true := (Bool.and_eq_true_iff.1 h).2
  have hr : (d.isS && a.isS && b.ok) = true := (Bool.and_eq_true_iff.1 h).1
  simp only [Bool.and_eq_true] at hr
  rw [decodeA_19 _ (by simp)]
  simp [decInt, judge, hv, hr, srcRound]

theorem shl (d a : Reg) (b : Src) (t : ITy) : Statement (.shl d a b t) := by
  intro h w e
  cases e
  refine ⟨⟨.a0, by simp; rfl⟩, ?_⟩
  intro sl hk
  refine inSlot sl .a0 decodeA _ 0x1A _ (by simp) (by decide) hk (by intro k' e; cases k' <;> first | rfl | cases e) ?_
  have hv : (Instr.shl d a b t).valsOk = true := (Bool.and_eq_true_iff.1 h).2
  have hr : (d.isS && a.isS && b.ok) = true := (Bool.and_eq_true_iff.1 h).1
  simp only [Bool.and_eq_true] at hr
  rw [decodeA_1A _ (by simp)]
  simp [decInt, judge, hv, hr, srcRound]

theorem shr (d a : Reg) (b : Src) (t : ITy) : Statement (.shr d a b t) := by
  intro h w e
  cases e
  refine ⟨⟨.a0, by simp; rfl⟩, ?_⟩
  intro sl hk
  refine inSlot sl .a0 decodeA _ 0x1B _ (by simp) (by decide) hk (by intro k' e; cases k' <;> first | rfl | cases e) ?_
  have hv : (Instr.shr d a b t).valsOk = true := (Bool.and_eq_true_iff.1 h).2
  have hr : (d.isS && a.isS && b.ok) = true := (Bool.and_eq_true_iff.1 h).1
  simp only [Bool.and_eq_true] at hr
  rw [decodeA_1B _ (by simp)]
  simp [decInt, judge, hv, hr, srcRound]

theorem sar (d a : Reg) (b : Src) (t : ITy) : Statement (.sar d a b t) := by
  intro h w e
  cases e
  refine ⟨⟨.a0, by simp; rfl⟩, ?_⟩
  intro sl hk
  refine inSlot sl .a0 decodeA _ 0x1C _ (by simp) (by decide) hk (by intro k' e; cases k' <;> first | rfl | cases e) ?_
  have hv : (Instr.sar d a b t).valsOk = true := (Bool.and_eq_true_iff.1 h).2
  have hr : (d.isS && a.isS && b.ok) = true := (Bool.and_eq_true_iff.1 h).1
  simp only [Bool.and_eq_true] at hr
  rw [decodeA_1C _ (by simp)]
  simp [decInt, judge, hv, hr, srcRound]

theorem min (d a : Reg) (b : Src) (t : ITy) : Statement (.min d a b t) := by
  intro h w e
  cases e
  refine ⟨⟨.a0, by simp; rfl⟩, ?_⟩
  intro sl hk
  refine inSlot sl .a0 decodeA _ 0x1D _ (by simp) (by decide) hk (by intro k' e; cases k' <;> first | rfl | cases e) ?_
  have hv : (Instr.min d a b t).valsOk = true := (Bool.and_eq_true_iff.1 h).2
  have hr : (d.isS && a.isS && b.ok) = true := (Bool.and_eq_true_iff.1 h).1
  simp only [Bool.and_eq_true] at hr
  rw [decodeA_1D _ (by simp)]
  simp [decInt, judge, hv, hr, srcRound]

theorem max (d a : Reg) (b : Src) (t : ITy) : Statement (.max d a b t) := by
  intro h w e
  cases e
  refine ⟨⟨.a0, by simp; rfl⟩, ?_⟩
  intro sl hk
  refine inSlot sl .a0 decodeA _ 0x1E _ (by simp) (by decide) hk (by intro k' e; cases k' <;> first | rfl | cases e) ?_
  have hv : (Instr.max d a b t).valsOk = true := (Bool.and_eq_true_iff.1 h).2
  have hr : (d.isS && a.isS && b.ok) = true := (Bool.and_eq_true_iff.1 h).1
  simp only [Bool.and_eq_true] at hr
  rw [decodeA_1E _ (by simp)]
  simp [decInt, judge, hv, hr, srcRound]

theorem sel (d a : Reg) (b : Src) (p : Reg) : Statement (.sel d a b p) := by
  intro h w e
  cases e
  refine ⟨⟨.a0, by simp; rfl⟩, ?_⟩
  intro sl hk
  refine inSlot sl .a0 decodeA _ 0x1F _ (by simp) (by decide) hk (by intro k' e; cases k' <;> first | rfl | cases e) ?_
  have hv : (Instr.sel d a b p).valsOk = true := (Bool.and_eq_true_iff.1 h).2
  have hr : (d.isS && a.isS && b.ok && p.isP) = true := (Bool.and_eq_true_iff.1 h).1
  simp only [Bool.and_eq_true] at hr
  rw [decodeA_1F _ (by simp)]
  simp [decSel, judge, hv, hr, srcRound]

theorem clz (d a : Reg) (t : ITy) : Statement (.clz d a t) := by
  intro h w e
  cases e
  refine ⟨⟨.a0, by simp; rfl⟩, ?_⟩
  intro sl hk
  refine inSlot sl .a0 decodeA _ 0x20 _ (by simp) (by decide) hk (by intro k' e; cases k' <;> first | rfl | cases e) ?_
  have hv : (Instr.clz d a t).valsOk = true := (Bool.and_eq_true_iff.1 h).2
  have hr : (d.isS && a.isS) = true := (Bool.and_eq_true_iff.1 h).1
  simp only [Bool.and_eq_true] at hr
  rw [decodeA_20 _ (by simp)]
  simp [decCnt, judge, hv, hr]

theorem popc (d a : Reg) (t : ITy) : Statement (.popc d a t) := by
  intro h w e
  cases e
  refine ⟨⟨.a0, by simp; rfl⟩, ?_⟩
  intro sl hk
  refine inSlot sl .a0 decodeA _ 0x21 _ (by simp) (by decide) hk (by intro k' e; cases k' <;> first | rfl | cases e) ?_
  have hv : (Instr.popc d a t).valsOk = true := (Bool.and_eq_true_iff.1 h).2
  have hr : (d.isS && a.isS) = true := (Bool.and_eq_true_iff.1 h).1
  simp only [Bool.and_eq_true] at hr
  rw [decodeA_21 _ (by simp)]
  simp [decCnt, judge, hv, hr]

theorem ext (d a : Reg) (len1 pos : BitVec 6) : Statement (.ext d a len1 pos) := by
  intro h w e
  cases e
  refine ⟨⟨.a0, by simp; rfl⟩, ?_⟩
  intro sl hk
  refine inSlot sl .a0 decodeA _ 0x22 _ (by simp) (by decide) hk (by intro k' e; cases k' <;> first | rfl | cases e) ?_
  have hv : (Instr.ext d a len1 pos).valsOk = true := (Bool.and_eq_true_iff.1 h).2
  have hr : (d.isS && a.isS) = true := (Bool.and_eq_true_iff.1 h).1
  simp only [Bool.and_eq_true] at hr
  rw [decodeA_22 _ (by simp)]
  simp [decExt, judge, hv, hr]

theorem ins (d a : Reg) (len1 pos : BitVec 6) : Statement (.ins d a len1 pos) := by
  intro h w e
  cases e
  refine ⟨⟨.a0, by simp; rfl⟩, ?_⟩
  intro sl hk
  refine inSlot sl .a0 decodeA _ 0x23 _ (by simp) (by decide) hk (by intro k' e; cases k' <;> first | rfl | cases e) ?_
  have hv : (Instr.ins d a len1 pos).valsOk = true := (Bool.and_eq_true_iff.1 h).2
  have hr : (d.isS && a.isS) = true := (Bool.and_eq_true_iff.1 h).1
  simp only [Bool.and_eq_true] at hr
  rw [decodeA_23 _ (by simp)]
  simp [decExt, judge, hv, hr]

theorem mov (d : Reg) (b : Src) (t : ITy) : Statement (.mov d b t) := by
  intro h w e
  cases e
  refine ⟨⟨.a0, by simp; rfl⟩, ?_⟩
  intro sl hk
  refine inSlot sl .a0 decodeA _ 0x24 _ (by simp) (by decide) hk (by intro k' e; cases k' <;> first | rfl | cases e) ?_
  have hv : (Instr.mov d b t).valsOk = true := (Bool.and_eq_true_iff.1 h).2
  have hr : (d.isS && b.ok) = true := (Bool.and_eq_true_iff.1 h).1
  simp only [Bool.and_eq_true] at hr
  rw [decodeA_24 _ (by simp)]
  simp [judge, hv, hr, srcRound]

theorem movh (d a : Reg) (imm : BitVec 12) : Statement (.movh d a imm) := by
  intro h w e
  cases e
  refine ⟨⟨.a0, by simp; rfl⟩, ?_⟩
  intro sl hk
  refine inSlot sl .a0 decodeA _ 0x25 _ (by simp) (by decide) hk (by intro k' e; cases k' <;> first | rfl | cases e) ?_
  have hv : (Instr.movh d a imm).valsOk = true := (Bool.and_eq_true_iff.1 h).2
  have hr : (d.isS && a.isS) = true := (Bool.and_eq_true_iff.1 h).1
  simp only [Bool.and_eq_true] at hr
  rw [decodeA_25 _ (by simp)]
  simp [decImm, judge, hv, hr]

theorem lea (d a : Reg) (b : Src) (sp : Space) (sh : BitVec 2) : Statement (.lea d a b sp sh) := by
  intro h w e
  cases e
  refine ⟨⟨.a0, by simp; rfl⟩, ?_⟩
  intro sl hk
  refine inSlot sl .a0 decodeA _ 0x26 _ (by simp) (by decide) hk (by intro k' e; cases k' <;> first | rfl | cases e) ?_
  have hv : (Instr.lea d a b sp sh).valsOk = true := (Bool.and_eq_true_iff.1 h).2
  have hr : (d.isS && a.isS && b.ok) = true := (Bool.and_eq_true_iff.1 h).1
  simp only [Bool.and_eq_true] at hr
  rw [decodeA_26 _ (by simp)]
  simp [judge, hv, hr, srcRound]

theorem cmp (d a : Reg) (b : Src) (t : ITy) (c : Cond) : Statement (.cmp d a b t c) := by
  intro h w e
  cases e
  refine ⟨⟨.a0, by simp; rfl⟩, ?_⟩
  intro sl hk
  refine inSlot sl .a0 decodeA _ 0x27 _ (by simp) (by decide) hk (by intro k' e; cases k' <;> first | rfl | cases e) ?_
  have hv : (Instr.cmp d a b t c).valsOk = true := (Bool.and_eq_true_iff.1 h).2
  have hr : (d.isP && a.isS && b.ok) = true := (Bool.and_eq_true_iff.1 h).1
  simp only [Bool.and_eq_true] at hr
  rw [decodeA_27 _ (by simp)]
  simp [judge, hv, hr, srcRound]

theorem pand (d a b : Reg) : Statement (.pand d a b) := by
  intro h w e
  cases e
  refine ⟨⟨.a0, by simp; rfl⟩, ?_⟩
  intro sl hk
  refine inSlot sl .a0 decodeA _ 0x28 _ (by simp) (by decide) hk (by intro k' e; cases k' <;> first | rfl | cases e) ?_
  have hv : (Instr.pand d a b).valsOk = true := (Bool.and_eq_true_iff.1 h).2
  have hr : (d.isP && a.isP && b.isP) = true := (Bool.and_eq_true_iff.1 h).1
  simp only [Bool.and_eq_true] at hr
  rw [decodeA_28 _ (by simp)]
  simp [decP3, judge, hv, hr]

theorem por (d a b : Reg) : Statement (.por d a b) := by
  intro h w e
  cases e
  refine ⟨⟨.a0, by simp; rfl⟩, ?_⟩
  intro sl hk
  refine inSlot sl .a0 decodeA _ 0x29 _ (by simp) (by decide) hk (by intro k' e; cases k' <;> first | rfl | cases e) ?_
  have hv : (Instr.por d a b).valsOk = true := (Bool.and_eq_true_iff.1 h).2
  have hr : (d.isP && a.isP && b.isP) = true := (Bool.and_eq_true_iff.1 h).1
  simp only [Bool.and_eq_true] at hr
  rw [decodeA_29 _ (by simp)]
  simp [decP3, judge, hv, hr]

theorem pxor (d a b : Reg) : Statement (.pxor d a b) := by
  intro h w e
  cases e
  refine ⟨⟨.a0, by simp; rfl⟩, ?_⟩
  intro sl hk
  refine inSlot sl .a0 decodeA _ 0x2A _ (by simp) (by decide) hk (by intro k' e; cases k' <;> first | rfl | cases e) ?_
  have hv : (Instr.pxor d a b).valsOk = true := (Bool.and_eq_true_iff.1 h).2
  have hr : (d.isP && a.isP && b.isP) = true := (Bool.and_eq_true_iff.1 h).1
  simp only [Bool.and_eq_true] at hr
  rw [decodeA_2A _ (by simp)]
  simp [decP3, judge, hv, hr]

theorem pnot (d a : Reg) : Statement (.pnot d a) := by
  intro h w e
  cases e
  refine ⟨⟨.a0, by simp; rfl⟩, ?_⟩
  intro sl hk
  refine inSlot sl .a0 decodeA _ 0x2B _ (by simp) (by decide) hk (by intro k' e; cases k' <;> first | rfl | cases e) ?_
  have hv : (Instr.pnot d a).valsOk = true := (Bool.and_eq_true_iff.1 h).2
  have hr : (d.isP && a.isP) = true := (Bool.and_eq_true_iff.1 h).1
  simp only [Bool.and_eq_true] at hr
  rw [decodeA_2B _ (by simp)]
  simp [decP2, judge, hv, hr]

theorem pmov (d a : Reg) : Statement (.pmov d a) := by
  intro h w e
  cases e
  refine ⟨⟨.a0, by simp; rfl⟩, ?_⟩
  intro sl hk
  refine inSlot sl .a0 decodeA _ 0x2C _ (by simp) (by decide) hk (by intro k' e; cases k' <;> first | rfl | cases e) ?_
  have hv : (Instr.pmov d a).valsOk = true := (Bool.and_eq_true_iff.1 h).2
  have hr : (d.isP && a.isP) = true := (Bool.and_eq_true_iff.1 h).1
  simp only [Bool.and_eq_true] at hr
  rw [decodeA_2C _ (by simp)]
  simp [decP2, judge, hv, hr]

theorem pany (d a : Reg) : Statement (.pany d a) := by
  intro h w e
  cases e
  refine ⟨⟨.a0, by simp; rfl⟩, ?_⟩
  intro sl hk
  refine inSlot sl .a0 decodeA _ 0x2D _ (by simp) (by decide) hk (by intro k' e; cases k' <;> first | rfl | cases e) ?_
  have hv : (Instr.pany d a).valsOk = true := (Bool.and_eq_true_iff.1 h).2
  have hr : (d.isP && a.isP) = true := (Bool.and_eq_true_iff.1 h).1
  simp only [Bool.and_eq_true] at hr
  rw [decodeA_2D _ (by simp)]
  simp [decP2, judge, hv, hr]

theorem pall (d a : Reg) : Statement (.pall d a) := by
  intro h w e
  cases e
  refine ⟨⟨.a0, by simp; rfl⟩, ?_⟩
  intro sl hk
  refine inSlot sl .a0 decodeA _ 0x2E _ (by simp) (by decide) hk (by intro k' e; cases k' <;> first | rfl | cases e) ?_
  have hv : (Instr.pall d a).valsOk = true := (Bool.and_eq_true_iff.1 h).2
  have hr : (d.isP && a.isP) = true := (Bool.and_eq_true_iff.1 h).1
  simp only [Bool.and_eq_true] at hr
  rw [decodeA_2E _ (by simp)]
  simp [decP2, judge, hv, hr]

theorem ppack (d a : Reg) : Statement (.ppack d a) := by
  intro h w e
  cases e
  refine ⟨⟨.a0, by simp; rfl⟩, ?_⟩
  intro sl hk
  refine inSlot sl .a0 decodeA _ 0x2F _ (by simp) (by decide) hk (by intro k' e; cases k' <;> first | rfl | cases e) ?_
  have hv : (Instr.ppack d a).valsOk = true := (Bool.and_eq_true_iff.1 h).2
  have hr : (d.isS && a.isP) = true := (Bool.and_eq_true_iff.1 h).1
  simp only [Bool.and_eq_true] at hr
  rw [decodeA_2F _ (by simp)]
  simp [judge, hv, hr]

theorem addRi (d a : Reg) (imm : BitVec 12) : Statement (.addRi d a imm) := by
  intro h w e
  cases e
  refine ⟨⟨.a0, by simp; rfl⟩, ?_⟩
  intro sl hk
  refine inSlot sl .a0 decodeA _ 0x30 _ (by simp) (by decide) hk (by intro k' e; cases k' <;> first | rfl | cases e) ?_
  have hv : (Instr.addRi d a imm).valsOk = true := (Bool.and_eq_true_iff.1 h).2
  have hr : (d.isS && a.isS) = true := (Bool.and_eq_true_iff.1 h).1
  simp only [Bool.and_eq_true] at hr
  rw [decodeA_30 _ (by simp)]
  simp [decImm, judge, hv, hr]

theorem andRi (d a : Reg) (imm : BitVec 12) : Statement (.andRi d a imm) := by
  intro h w e
  cases e
  refine ⟨⟨.a0, by simp; rfl⟩, ?_⟩
  intro sl hk
  refine inSlot sl .a0 decodeA _ 0x31 _ (by simp) (by decide) hk (by intro k' e; cases k' <;> first | rfl | cases e) ?_
  have hv : (Instr.andRi d a imm).valsOk = true := (Bool.and_eq_true_iff.1 h).2
  have hr : (d.isS && a.isS) = true := (Bool.and_eq_true_iff.1 h).1
  simp only [Bool.and_eq_true] at hr
  rw [decodeA_31 _ (by simp)]
  simp [decImm, judge, hv, hr]

theorem orRi (d a : Reg) (imm : BitVec 12) : Statement (.orRi d a imm) := by
  intro h w e
  cases e
  refine ⟨⟨.a0, by simp; rfl⟩, ?_⟩
  intro sl hk
  refine inSlot sl .a0 decodeA _ 0x32 _ (by simp) (by decide) hk (by intro k' e; cases k' <;> first | rfl | cases e) ?_
  have hv : (Instr.orRi d a imm).valsOk = true := (Bool.and_eq_true_iff.1 h).2
  have hr : (d.isS && a.isS) = true := (Bool.and_eq_true_iff.1 h).1
  simp only [Bool.and_eq_true] at hr
  rw [decodeA_32 _ (by simp)]
  simp [decImm, judge, hv, hr]

theorem xorRi (d a : Reg) (imm : BitVec 12) : Statement (.xorRi d a imm) := by
  intro h w e
  cases e
  refine ⟨⟨.a0, by simp; rfl⟩, ?_⟩
  intro sl hk
  refine inSlot sl .a0 decodeA _ 0x33 _ (by simp) (by decide) hk (by intro k' e; cases k' <;> first | rfl | cases e) ?_
  have hv : (Instr.xorRi d a imm).valsOk = true := (Bool.and_eq_true_iff.1 h).2
  have hr : (d.isS && a.isS) = true := (Bool.and_eq_true_iff.1 h).1
  simp only [Bool.and_eq_true] at hr
  rw [decodeA_33 _ (by simp)]
  simp [decImm, judge, hv, hr]

theorem shlRi (d a : Reg) (cnt : BitVec 6) : Statement (.shlRi d a cnt) := by
  intro h w e
  cases e
  refine ⟨⟨.a0, by simp; rfl⟩, ?_⟩
  intro sl hk
  refine inSlot sl .a0 decodeA _ 0x34 _ (by simp) (by decide) hk (by intro k' e; cases k' <;> first | rfl | cases e) ?_
  have hv : (Instr.shlRi d a cnt).valsOk = true := (Bool.and_eq_true_iff.1 h).2
  have hr : (d.isS && a.isS) = true := (Bool.and_eq_true_iff.1 h).1
  simp only [Bool.and_eq_true] at hr
  rw [decodeA_34 _ (by simp)]
  simp [decCount, judge, hv, hr]

theorem shrRi (d a : Reg) (cnt : BitVec 6) : Statement (.shrRi d a cnt) := by
  intro h w e
  cases e
  refine ⟨⟨.a0, by simp; rfl⟩, ?_⟩
  intro sl hk
  refine inSlot sl .a0 decodeA _ 0x35 _ (by simp) (by decide) hk (by intro k' e; cases k' <;> first | rfl | cases e) ?_
  have hv : (Instr.shrRi d a cnt).valsOk = true := (Bool.and_eq_true_iff.1 h).2
  have hr : (d.isS && a.isS) = true := (Bool.and_eq_true_iff.1 h).1
  simp only [Bool.and_eq_true] at hr
  rw [decodeA_35 _ (by simp)]
  simp [decCount, judge, hv, hr]

theorem sarRi (d a : Reg) (cnt : BitVec 6) : Statement (.sarRi d a cnt) := by
  intro h w e
  cases e
  refine ⟨⟨.a0, by simp; rfl⟩, ?_⟩
  intro sl hk
  refine inSlot sl .a0 decodeA _ 0x36 _ (by simp) (by decide) hk (by intro k' e; cases k' <;> first | rfl | cases e) ?_
  have hv : (Instr.sarRi d a cnt).valsOk = true := (Bool.and_eq_true_iff.1 h).2
  have hr : (d.isS && a.isS) = true := (Bool.and_eq_true_iff.1 h).1
  simp only [Bool.and_eq_true] at hr
  rw [decodeA_36 _ (by simp)]
  simp [decCount, judge, hv, hr]

theorem punpk (d a : Reg) : Statement (.punpk d a) := by
  intro h w e
  cases e
  refine ⟨⟨.a0, by simp; rfl⟩, ?_⟩
  intro sl hk
  refine inSlot sl .a0 decodeA _ 0x38 _ (by simp) (by decide) hk (by intro k' e; cases k' <;> first | rfl | cases e) ?_
  have hv : (Instr.punpk d a).valsOk = true := (Bool.and_eq_true_iff.1 h).2
  have hr : (d.isP && a.isS) = true := (Bool.and_eq_true_iff.1 h).1
  simp only [Bool.and_eq_true] at hr
  rw [decodeA_38 _ (by simp)]
  simp [judge, hv, hr]

theorem mfc (d : Reg) (r : CReg) : Statement (.mfc d r) := by
  intro h w e
  cases e
  refine ⟨⟨.a0, by simp; rfl⟩, ?_⟩
  intro sl hk
  refine inSlot sl .a0 decodeA _ 0x39 _ (by simp) (by decide) hk (by intro k' e; cases k' <;> first | rfl | cases e) ?_
  have hv : (Instr.mfc d r).valsOk = true := (Bool.and_eq_true_iff.1 h).2
  have hr : (d.isS) = true := (Bool.and_eq_true_iff.1 h).1
  rw [decodeA_39 _ (by simp)]
  simp [judge, hv, hr]

theorem mtc (a : Reg) (r : CReg) : Statement (.mtc a r) := by
  intro h w e
  cases e
  refine ⟨⟨.a0, by simp; rfl⟩, ?_⟩
  intro sl hk
  refine inSlot sl .a0 decodeA _ 0x3A _ (by simp) (by decide) hk (by intro k' e; cases k' <;> first | rfl | cases e) ?_
  have hv : (Instr.mtc a r).valsOk = true := (Bool.and_eq_true_iff.1 h).2
  have hr : (a.isS) = true := (Bool.and_eq_true_iff.1 h).1
  rw [decodeA_3A _ (by simp)]
  simp [judge, hv, hr]

theorem icvt (d a : Reg) (dt st : ITy) : Statement (.icvt d a dt st) := by
  intro h w e
  cases e
  refine ⟨⟨.a0, by simp; rfl⟩, ?_⟩
  intro sl hk
  refine inSlot sl .a0 decodeA _ 0x3B _ (by simp) (by decide) hk (by intro k' e; cases k' <;> first | rfl | cases e) ?_
  have hv : (Instr.icvt d a dt st).valsOk = true := (Bool.and_eq_true_iff.1 h).2
  have hr : (d.isS && a.isS) = true := (Bool.and_eq_true_iff.1 h).1
  simp only [Bool.and_eq_true] at hr
  rw [decodeA_3B _ (by simp)]
  simp [judge, hv, hr]

theorem winset (d a : Reg) (b : Src) (part : Bool) : Statement (.winset d a b part) := by
  intro h w e
  cases e
  refine ⟨⟨.a0, by simp; rfl⟩, ?_⟩
  intro sl hk
  refine inSlot sl .a0 decodeA _ 0x3C _ (by simp) (by decide) hk (by intro k' e; cases k' <;> first | rfl | cases e) ?_
  have hv : (Instr.winset d a b part).valsOk = true := (Bool.and_eq_true_iff.1 h).2
  have hr : (d.is8 && a.isS && b.ok) = true := (Bool.and_eq_true_iff.1 h).1
  simp only [Bool.and_eq_true] at hr
  rw [decodeA_3C _ (by simp)]
  simp [judge, hv, hr, srcRound]

theorem ldI8 (d a : Reg) (off : Byte) (o : Ord) : Statement (.ldI8 d a off o) := by
  intro h w e
  cases e
  refine ⟨⟨.l, by simp; rfl⟩, ?_⟩
  intro sl hk
  refine inSlot sl .l decodeL _ 0x50 _ (by simp) (by decide) hk (by intro k' e; cases k' <;> first | rfl | cases e) ?_
  have hv : (Instr.ldI8 d a off o).valsOk = true := (Bool.and_eq_true_iff.1 h).2
  have hr : (d.isS && a.isS) = true := (Bool.and_eq_true_iff.1 h).1
  simp only [Bool.and_eq_true] at hr
  rw [decodeL_50 _ (by simp)]
  simp [decMem, judge, hv, hr]

theorem ldI16 (d a : Reg) (off : Byte) (o : Ord) : Statement (.ldI16 d a off o) := by
  intro h w e
  cases e
  refine ⟨⟨.l, by simp; rfl⟩, ?_⟩
  intro sl hk
  refine inSlot sl .l decodeL _ 0x51 _ (by simp) (by decide) hk (by intro k' e; cases k' <;> first | rfl | cases e) ?_
  have hv : (Instr.ldI16 d a off o).valsOk = true := (Bool.and_eq_true_iff.1 h).2
  have hr : (d.isS && a.isS) = true := (Bool.and_eq_true_iff.1 h).1
  simp only [Bool.and_eq_true] at hr
  rw [decodeL_51 _ (by simp)]
  simp [decMem, judge, hv, hr]

theorem ldI32 (d a : Reg) (off : Byte) (o : Ord) : Statement (.ldI32 d a off o) := by
  intro h w e
  cases e
  refine ⟨⟨.l, by simp; rfl⟩, ?_⟩
  intro sl hk
  refine inSlot sl .l decodeL _ 0x52 _ (by simp) (by decide) hk (by intro k' e; cases k' <;> first | rfl | cases e) ?_
  have hv : (Instr.ldI32 d a off o).valsOk = true := (Bool.and_eq_true_iff.1 h).2
  have hr : (d.isS && a.isS) = true := (Bool.and_eq_true_iff.1 h).1
  simp only [Bool.and_eq_true] at hr
  rw [decodeL_52 _ (by simp)]
  simp [decMem, judge, hv, hr]

theorem ldI64 (d a : Reg) (off : Byte) (o : Ord) : Statement (.ldI64 d a off o) := by
  intro h w e
  cases e
  refine ⟨⟨.l, by simp; rfl⟩, ?_⟩
  intro sl hk
  refine inSlot sl .l decodeL _ 0x53 _ (by simp) (by decide) hk (by intro k' e; cases k' <;> first | rfl | cases e) ?_
  have hv : (Instr.ldI64 d a off o).valsOk = true := (Bool.and_eq_true_iff.1 h).2
  have hr : (d.isS && a.isS) = true := (Bool.and_eq_true_iff.1 h).1
  simp only [Bool.and_eq_true] at hr
  rw [decodeL_53 _ (by simp)]
  simp [decMem, judge, hv, hr]

theorem ldN8 (d a : Reg) (off : Byte) (o : Ord) : Statement (.ldN8 d a off o) := by
  intro h w e
  cases e
  refine ⟨⟨.l, by simp; rfl⟩, ?_⟩
  intro sl hk
  refine inSlot sl .l decodeL _ 0x54 _ (by simp) (by decide) hk (by intro k' e; cases k' <;> first | rfl | cases e) ?_
  have hv : (Instr.ldN8 d a off o).valsOk = true := (Bool.and_eq_true_iff.1 h).2
  have hr : (d.isS && a.isS) = true := (Bool.and_eq_true_iff.1 h).1
  simp only [Bool.and_eq_true] at hr
  rw [decodeL_54 _ (by simp)]
  simp [decMem, judge, hv, hr]

theorem ldN16 (d a : Reg) (off : Byte) (o : Ord) : Statement (.ldN16 d a off o) := by
  intro h w e
  cases e
  refine ⟨⟨.l, by simp; rfl⟩, ?_⟩
  intro sl hk
  refine inSlot sl .l decodeL _ 0x55 _ (by simp) (by decide) hk (by intro k' e; cases k' <;> first | rfl | cases e) ?_
  have hv : (Instr.ldN16 d a off o).valsOk = true := (Bool.and_eq_true_iff.1 h).2
  have hr : (d.isS && a.isS) = true := (Bool.and_eq_true_iff.1 h).1
  simp only [Bool.and_eq_true] at hr
  rw [decodeL_55 _ (by simp)]
  simp [decMem, judge, hv, hr]

theorem ldN32 (d a : Reg) (off : Byte) (o : Ord) : Statement (.ldN32 d a off o) := by
  intro h w e
  cases e
  refine ⟨⟨.l, by simp; rfl⟩, ?_⟩
  intro sl hk
  refine inSlot sl .l decodeL _ 0x56 _ (by simp) (by decide) hk (by intro k' e; cases k' <;> first | rfl | cases e) ?_
  have hv : (Instr.ldN32 d a off o).valsOk = true := (Bool.and_eq_true_iff.1 h).2
  have hr : (d.isS && a.isS) = true := (Bool.and_eq_true_iff.1 h).1
  simp only [Bool.and_eq_true] at hr
  rw [decodeL_56 _ (by simp)]
  simp [decMem, judge, hv, hr]

theorem ldvec (d a : Reg) (off : Byte) (o : Ord) : Statement (.ldvec d a off o) := by
  intro h w e
  cases e
  refine ⟨⟨.l, by simp; rfl⟩, ?_⟩
  intro sl hk
  refine inSlot sl .l decodeL _ 0x57 _ (by simp) (by decide) hk (by intro k' e; cases k' <;> first | rfl | cases e) ?_
  have hv : (Instr.ldvec d a off o).valsOk = true := (Bool.and_eq_true_iff.1 h).2
  have hr : (d.isS && a.isS) = true := (Bool.and_eq_true_iff.1 h).1
  simp only [Bool.and_eq_true] at hr
  rw [decodeL_57 _ (by simp)]
  simp [decMem, judge, hv, hr]

theorem ldv (d a : Reg) (off : Byte) (o : Ord) : Statement (.ldv d a off o) := by
  intro h w e
  cases e
  refine ⟨⟨.l, by simp; rfl⟩, ?_⟩
  intro sl hk
  refine inSlot sl .l decodeL _ 0x58 _ (by simp) (by decide) hk (by intro k' e; cases k' <;> first | rfl | cases e) ?_
  have hv : (Instr.ldv d a off o).valsOk = true := (Bool.and_eq_true_iff.1 h).2
  have hr : (d.isS && a.isS) = true := (Bool.and_eq_true_iff.1 h).1
  simp only [Bool.and_eq_true] at hr
  rw [decodeL_58 _ (by simp)]
  simp [decMem, judge, hv, hr]

theorem ldf (d a : Reg) (off : Byte) : Statement (.ldf d a off) := by
  intro h w e
  cases e
  refine ⟨⟨.l, by simp; rfl⟩, ?_⟩
  intro sl hk
  refine inSlot sl .l decodeL _ 0x59 _ (by simp) (by decide) hk (by intro k' e; cases k' <;> first | rfl | cases e) ?_
  have hv : (Instr.ldf d a off).valsOk = true := (Bool.and_eq_true_iff.1 h).2
  have hr : (d.isS && a.isS) = true := (Bool.and_eq_true_iff.1 h).1
  simp only [Bool.and_eq_true] at hr
  rw [decodeL_59 _ (by simp)]
  simp [decMem0, judge, hv, hr]

theorem vget (d a : Reg) (off : Byte) : Statement (.vget d a off) := by
  intro h w e
  cases e
  refine ⟨⟨.l, by simp; rfl⟩, ?_⟩
  intro sl hk
  refine inSlot sl .l decodeL _ 0x5A _ (by simp) (by decide) hk (by intro k' e; cases k' <;> first | rfl | cases e) ?_
  have hv : (Instr.vget d a off).valsOk = true := (Bool.and_eq_true_iff.1 h).2
  have hr : (d.isS && a.isS) = true := (Bool.and_eq_true_iff.1 h).1
  simp only [Bool.and_eq_true] at hr
  rw [decodeL_5A _ (by simp)]
  simp [decMem0, judge, hv, hr]

theorem probe (d a : Reg) (off : Byte) : Statement (.probe d a off) := by
  intro h w e
  cases e
  refine ⟨⟨.l, by simp; rfl⟩, ?_⟩
  intro sl hk
  refine inSlot sl .l decodeL _ 0x5B _ (by simp) (by decide) hk (by intro k' e; cases k' <;> first | rfl | cases e) ?_
  have hv : (Instr.probe d a off).valsOk = true := (Bool.and_eq_true_iff.1 h).2
  have hr : (d.isS && a.isS) = true := (Bool.and_eq_true_iff.1 h).1
  simp only [Bool.and_eq_true] at hr
  rw [decodeL_5B _ (by simp)]
  simp [decMem0, judge, hv, hr]

theorem pft (d a : Reg) (off : Byte) : Statement (.pft d a off) := by
  intro h w e
  cases e
  refine ⟨⟨.l, by simp; rfl⟩, ?_⟩
  intro sl hk
  refine inSlot sl .l decodeL _ 0x5C _ (by simp) (by decide) hk (by intro k' e; cases k' <;> first | rfl | cases e) ?_
  have hv : (Instr.pft d a off).valsOk = true := (Bool.and_eq_true_iff.1 h).2
  have hr : (a.isS) = true := (Bool.and_eq_true_iff.1 h).1
  rw [decodeL_5C _ (by simp)]
  simp [decMem0, judge, hv, hr]

theorem mwait (d a : Reg) (off : Byte) : Statement (.mwait d a off) := by
  intro h w e
  cases e
  refine ⟨⟨.l, by simp; rfl⟩, ?_⟩
  intro sl hk
  refine inSlot sl .l decodeL _ 0x5D _ (by simp) (by decide) hk (by intro k' e; cases k' <;> first | rfl | cases e) ?_
  have hv : (Instr.mwait d a off).valsOk = true := (Bool.and_eq_true_iff.1 h).2
  have hr : (d.isS && a.isS) = true := (Bool.and_eq_true_iff.1 h).1
  simp only [Bool.and_eq_true] at hr
  rw [decodeL_5D _ (by simp)]
  simp [decMem0, judge, hv, hr]

theorem st8 (d a : Reg) (off : Byte) (o : Ord) : Statement (.st8 d a off o) := by
  intro h w e
  cases e
  refine ⟨⟨.s, by simp; rfl⟩, ?_⟩
  intro sl hk
  refine inSlot sl .s decodeS _ 0x60 _ (by simp) (by decide) hk (by intro k' e; cases k' <;> first | rfl | cases e) ?_
  have hv : (Instr.st8 d a off o).valsOk = true := (Bool.and_eq_true_iff.1 h).2
  have hr : (d.isS && a.isS) = true := (Bool.and_eq_true_iff.1 h).1
  simp only [Bool.and_eq_true] at hr
  rw [decodeS_60 _ (by simp)]
  simp [decMem, judge, hv, hr]

theorem st16 (d a : Reg) (off : Byte) (o : Ord) : Statement (.st16 d a off o) := by
  intro h w e
  cases e
  refine ⟨⟨.s, by simp; rfl⟩, ?_⟩
  intro sl hk
  refine inSlot sl .s decodeS _ 0x61 _ (by simp) (by decide) hk (by intro k' e; cases k' <;> first | rfl | cases e) ?_
  have hv : (Instr.st16 d a off o).valsOk = true := (Bool.and_eq_true_iff.1 h).2
  have hr : (d.isS && a.isS) = true := (Bool.and_eq_true_iff.1 h).1
  simp only [Bool.and_eq_true] at hr
  rw [decodeS_61 _ (by simp)]
  simp [decMem, judge, hv, hr]

theorem st32 (d a : Reg) (off : Byte) (o : Ord) : Statement (.st32 d a off o) := by
  intro h w e
  cases e
  refine ⟨⟨.s, by simp; rfl⟩, ?_⟩
  intro sl hk
  refine inSlot sl .s decodeS _ 0x62 _ (by simp) (by decide) hk (by intro k' e; cases k' <;> first | rfl | cases e) ?_
  have hv : (Instr.st32 d a off o).valsOk = true := (Bool.and_eq_true_iff.1 h).2
  have hr : (d.isS && a.isS) = true := (Bool.and_eq_true_iff.1 h).1
  simp only [Bool.and_eq_true] at hr
  rw [decodeS_62 _ (by simp)]
  simp [decMem, judge, hv, hr]

theorem st64 (d a : Reg) (off : Byte) (o : Ord) : Statement (.st64 d a off o) := by
  intro h w e
  cases e
  refine ⟨⟨.s, by simp; rfl⟩, ?_⟩
  intro sl hk
  refine inSlot sl .s decodeS _ 0x63 _ (by simp) (by decide) hk (by intro k' e; cases k' <;> first | rfl | cases e) ?_
  have hv : (Instr.st64 d a off o).valsOk = true := (Bool.and_eq_true_iff.1 h).2
  have hr : (d.isS && a.isS) = true := (Bool.and_eq_true_iff.1 h).1
  simp only [Bool.and_eq_true] at hr
  rw [decodeS_63 _ (by simp)]
  simp [decMem, judge, hv, hr]

theorem stvec (d a : Reg) (off : Byte) (o : Ord) : Statement (.stvec d a off o) := by
  intro h w e
  cases e
  refine ⟨⟨.s, by simp; rfl⟩, ?_⟩
  intro sl hk
  refine inSlot sl .s decodeS _ 0x64 _ (by simp) (by decide) hk (by intro k' e; cases k' <;> first | rfl | cases e) ?_
  have hv : (Instr.stvec d a off o).valsOk = true := (Bool.and_eq_true_iff.1 h).2
  have hr : (d.isS && a.isS) = true := (Bool.and_eq_true_iff.1 h).1
  simp only [Bool.and_eq_true] at hr
  rw [decodeS_64 _ (by simp)]
  simp [decMem, judge, hv, hr]

theorem stf (d a : Reg) (off : Byte) : Statement (.stf d a off) := by
  intro h w e
  cases e
  refine ⟨⟨.s, by simp; rfl⟩, ?_⟩
  intro sl hk
  refine inSlot sl .s decodeS _ 0x65 _ (by simp) (by decide) hk (by intro k' e; cases k' <;> first | rfl | cases e) ?_
  have hv : (Instr.stf d a off).valsOk = true := (Bool.and_eq_true_iff.1 h).2
  have hr : (d.isS && a.isS) = true := (Bool.and_eq_true_iff.1 h).1
  simp only [Bool.and_eq_true] at hr
  rw [decodeS_65 _ (by simp)]
  simp [decMem0, judge, hv, hr]

theorem casv (d a : Reg) (off : Byte) (o : Ord) : Statement (.casv d a off o) := by
  intro h w e
  cases e
  refine ⟨⟨.s, by simp; rfl⟩, ?_⟩
  intro sl hk
  refine inSlot sl .s decodeS _ 0x66 _ (by simp) (by decide) hk (by intro k' e; cases k' <;> first | rfl | cases e) ?_
  have hv : (Instr.casv d a off o).valsOk = true := (Bool.and_eq_true_iff.1 h).2
  have hr : (d.isPair && a.isS) = true := (Bool.and_eq_true_iff.1 h).1
  simp only [Bool.and_eq_true] at hr
  rw [decodeS_66 _ (by simp)]
  simp [decMem, judge, hv, hr]

theorem rel (d a : Reg) (off : Byte) : Statement (.rel d a off) := by
  intro h w e
  cases e
  refine ⟨⟨.s, by simp; rfl⟩, ?_⟩
  intro sl hk
  refine inSlot sl .s decodeS _ 0x67 _ (by simp) (by decide) hk (by intro k' e; cases k' <;> first | rfl | cases e) ?_
  have hv : (Instr.rel d a off).valsOk = true := (Bool.and_eq_true_iff.1 h).2
  have hr : (d.isS && a.isS) = true := (Bool.and_eq_true_iff.1 h).1
  simp only [Bool.and_eq_true] at hr
  rw [decodeS_67 _ (by simp)]
  simp [decMem0, judge, hv, hr]

theorem atomAdd (d a : Reg) (off : Byte) (o : Ord) : Statement (.atomAdd d a off o) := by
  intro h w e
  cases e
  refine ⟨⟨.s, by simp; rfl⟩, ?_⟩
  intro sl hk
  refine inSlot sl .s decodeS _ 0x68 _ (by simp) (by decide) hk (by intro k' e; cases k' <;> first | rfl | cases e) ?_
  have hv : (Instr.atomAdd d a off o).valsOk = true := (Bool.and_eq_true_iff.1 h).2
  have hr : (atomReg d o && a.isS) = true := (Bool.and_eq_true_iff.1 h).1
  simp only [Bool.and_eq_true] at hr
  rw [decodeS_68 _ (by simp)]
  simp [decAtom, decMem, judge, hv, hr]

theorem atomMin (d a : Reg) (off : Byte) (o : Ord) : Statement (.atomMin d a off o) := by
  intro h w e
  cases e
  refine ⟨⟨.s, by simp; rfl⟩, ?_⟩
  intro sl hk
  refine inSlot sl .s decodeS _ 0x69 _ (by simp) (by decide) hk (by intro k' e; cases k' <;> first | rfl | cases e) ?_
  have hv : (Instr.atomMin d a off o).valsOk = true := (Bool.and_eq_true_iff.1 h).2
  have hr : (atomReg d o && a.isS) = true := (Bool.and_eq_true_iff.1 h).1
  simp only [Bool.and_eq_true] at hr
  rw [decodeS_69 _ (by simp)]
  simp [decAtom, decMem, judge, hv, hr]

theorem atomMax (d a : Reg) (off : Byte) (o : Ord) : Statement (.atomMax d a off o) := by
  intro h w e
  cases e
  refine ⟨⟨.s, by simp; rfl⟩, ?_⟩
  intro sl hk
  refine inSlot sl .s decodeS _ 0x6A _ (by simp) (by decide) hk (by intro k' e; cases k' <;> first | rfl | cases e) ?_
  have hv : (Instr.atomMax d a off o).valsOk = true := (Bool.and_eq_true_iff.1 h).2
  have hr : (atomReg d o && a.isS) = true := (Bool.and_eq_true_iff.1 h).1
  simp only [Bool.and_eq_true] at hr
  rw [decodeS_6A _ (by simp)]
  simp [decAtom, decMem, judge, hv, hr]

theorem atomAnd (d a : Reg) (off : Byte) (o : Ord) : Statement (.atomAnd d a off o) := by
  intro h w e
  cases e
  refine ⟨⟨.s, by simp; rfl⟩, ?_⟩
  intro sl hk
  refine inSlot sl .s decodeS _ 0x6B _ (by simp) (by decide) hk (by intro k' e; cases k' <;> first | rfl | cases e) ?_
  have hv : (Instr.atomAnd d a off o).valsOk = true := (Bool.and_eq_true_iff.1 h).2
  have hr : (atomReg d o && a.isS) = true := (Bool.and_eq_true_iff.1 h).1
  simp only [Bool.and_eq_true] at hr
  rw [decodeS_6B _ (by simp)]
  simp [decAtom, decMem, judge, hv, hr]

theorem atomOr (d a : Reg) (off : Byte) (o : Ord) : Statement (.atomOr d a off o) := by
  intro h w e
  cases e
  refine ⟨⟨.s, by simp; rfl⟩, ?_⟩
  intro sl hk
  refine inSlot sl .s decodeS _ 0x6C _ (by simp) (by decide) hk (by intro k' e; cases k' <;> first | rfl | cases e) ?_
  have hv : (Instr.atomOr d a off o).valsOk = true := (Bool.and_eq_true_iff.1 h).2
  have hr : (atomReg d o && a.isS) = true := (Bool.and_eq_true_iff.1 h).1
  simp only [Bool.and_eq_true] at hr
  rw [decodeS_6C _ (by simp)]
  simp [decAtom, decMem, judge, hv, hr]

theorem atomXor (d a : Reg) (off : Byte) (o : Ord) : Statement (.atomXor d a off o) := by
  intro h w e
  cases e
  refine ⟨⟨.s, by simp; rfl⟩, ?_⟩
  intro sl hk
  refine inSlot sl .s decodeS _ 0x6D _ (by simp) (by decide) hk (by intro k' e; cases k' <;> first | rfl | cases e) ?_
  have hv : (Instr.atomXor d a off o).valsOk = true := (Bool.and_eq_true_iff.1 h).2
  have hr : (atomReg d o && a.isS) = true := (Bool.and_eq_true_iff.1 h).1
  simp only [Bool.and_eq_true] at hr
  rw [decodeS_6D _ (by simp)]
  simp [decAtom, decMem, judge, hv, hr]

theorem atomXchg (d a : Reg) (off : Byte) (o : Ord) : Statement (.atomXchg d a off o) := by
  intro h w e
  cases e
  refine ⟨⟨.s, by simp; rfl⟩, ?_⟩
  intro sl hk
  refine inSlot sl .s decodeS _ 0x6E _ (by simp) (by decide) hk (by intro k' e; cases k' <;> first | rfl | cases e) ?_
  have hv : (Instr.atomXchg d a off o).valsOk = true := (Bool.and_eq_true_iff.1 h).2
  have hr : (atomReg d o && a.isS) = true := (Bool.and_eq_true_iff.1 h).1
  simp only [Bool.and_eq_true] at hr
  rw [decodeS_6E _ (by simp)]
  simp [decAtom, decMem, judge, hv, hr]

theorem atomCas (d a : Reg) (off : Byte) (o : Ord) : Statement (.atomCas d a off o) := by
  intro h w e
  cases e
  refine ⟨⟨.s, by simp; rfl⟩, ?_⟩
  intro sl hk
  refine inSlot sl .s decodeS _ 0x6F _ (by simp) (by decide) hk (by intro k' e; cases k' <;> first | rfl | cases e) ?_
  have hv : (Instr.atomCas d a off o).valsOk = true := (Bool.and_eq_true_iff.1 h).2
  have hr : (d.isPair && a.isS) = true := (Bool.and_eq_true_iff.1 h).1
  simp only [Bool.and_eq_true] at hr
  rw [decodeS_6F _ (by simp)]
  simp [decMem, judge, hv, hr]

theorem atomAddI32 (d a : Reg) (off : Byte) (o : Ord) : Statement (.atomAddI32 d a off o) := by
  intro h w e
  cases e
  refine ⟨⟨.s, by simp; rfl⟩, ?_⟩
  intro sl hk
  refine inSlot sl .s decodeS _ 0x70 _ (by simp) (by decide) hk (by intro k' e; cases k' <;> first | rfl | cases e) ?_
  have hv : (Instr.atomAddI32 d a off o).valsOk = true := (Bool.and_eq_true_iff.1 h).2
  have hr : (atomReg d o && a.isS) = true := (Bool.and_eq_true_iff.1 h).1
  simp only [Bool.and_eq_true] at hr
  rw [decodeS_70 _ (by simp)]
  simp [decAtom, decMem, judge, hv, hr]

theorem atomMinI32 (d a : Reg) (off : Byte) (o : Ord) : Statement (.atomMinI32 d a off o) := by
  intro h w e
  cases e
  refine ⟨⟨.s, by simp; rfl⟩, ?_⟩
  intro sl hk
  refine inSlot sl .s decodeS _ 0x71 _ (by simp) (by decide) hk (by intro k' e; cases k' <;> first | rfl | cases e) ?_
  have hv : (Instr.atomMinI32 d a off o).valsOk = true := (Bool.and_eq_true_iff.1 h).2
  have hr : (atomReg d o && a.isS) = true := (Bool.and_eq_true_iff.1 h).1
  simp only [Bool.and_eq_true] at hr
  rw [decodeS_71 _ (by simp)]
  simp [decAtom, decMem, judge, hv, hr]

theorem atomMaxI32 (d a : Reg) (off : Byte) (o : Ord) : Statement (.atomMaxI32 d a off o) := by
  intro h w e
  cases e
  refine ⟨⟨.s, by simp; rfl⟩, ?_⟩
  intro sl hk
  refine inSlot sl .s decodeS _ 0x72 _ (by simp) (by decide) hk (by intro k' e; cases k' <;> first | rfl | cases e) ?_
  have hv : (Instr.atomMaxI32 d a off o).valsOk = true := (Bool.and_eq_true_iff.1 h).2
  have hr : (atomReg d o && a.isS) = true := (Bool.and_eq_true_iff.1 h).1
  simp only [Bool.and_eq_true] at hr
  rw [decodeS_72 _ (by simp)]
  simp [decAtom, decMem, judge, hv, hr]

theorem atomAndI32 (d a : Reg) (off : Byte) (o : Ord) : Statement (.atomAndI32 d a off o) := by
  intro h w e
  cases e
  refine ⟨⟨.s, by simp; rfl⟩, ?_⟩
  intro sl hk
  refine inSlot sl .s decodeS _ 0x73 _ (by simp) (by decide) hk (by intro k' e; cases k' <;> first | rfl | cases e) ?_
  have hv : (Instr.atomAndI32 d a off o).valsOk = true := (Bool.and_eq_true_iff.1 h).2
  have hr : (atomReg d o && a.isS) = true := (Bool.and_eq_true_iff.1 h).1
  simp only [Bool.and_eq_true] at hr
  rw [decodeS_73 _ (by simp)]
  simp [decAtom, decMem, judge, hv, hr]

theorem atomOrI32 (d a : Reg) (off : Byte) (o : Ord) : Statement (.atomOrI32 d a off o) := by
  intro h w e
  cases e
  refine ⟨⟨.s, by simp; rfl⟩, ?_⟩
  intro sl hk
  refine inSlot sl .s decodeS _ 0x74 _ (by simp) (by decide) hk (by intro k' e; cases k' <;> first | rfl | cases e) ?_
  have hv : (Instr.atomOrI32 d a off o).valsOk = true := (Bool.and_eq_true_iff.1 h).2
  have hr : (atomReg d o && a.isS) = true := (Bool.and_eq_true_iff.1 h).1
  simp only [Bool.and_eq_true] at hr
  rw [decodeS_74 _ (by simp)]
  simp [decAtom, decMem, judge, hv, hr]

theorem atomXorI32 (d a : Reg) (off : Byte) (o : Ord) : Statement (.atomXorI32 d a off o) := by
  intro h w e
  cases e
  refine ⟨⟨.s, by simp; rfl⟩, ?_⟩
  intro sl hk
  refine inSlot sl .s decodeS _ 0x75 _ (by simp) (by decide) hk (by intro k' e; cases k' <;> first | rfl | cases e) ?_
  have hv : (Instr.atomXorI32 d a off o).valsOk = true := (Bool.and_eq_true_iff.1 h).2
  have hr : (atomReg d o && a.isS) = true := (Bool.and_eq_true_iff.1 h).1
  simp only [Bool.and_eq_true] at hr
  rw [decodeS_75 _ (by simp)]
  simp [decAtom, decMem, judge, hv, hr]

theorem atomXchgI32 (d a : Reg) (off : Byte) (o : Ord) : Statement (.atomXchgI32 d a off o) := by
  intro h w e
  cases e
  refine ⟨⟨.s, by simp; rfl⟩, ?_⟩
  intro sl hk
  refine inSlot sl .s decodeS _ 0x76 _ (by simp) (by decide) hk (by intro k' e; cases k' <;> first | rfl | cases e) ?_
  have hv : (Instr.atomXchgI32 d a off o).valsOk = true := (Bool.and_eq_true_iff.1 h).2
  have hr : (atomReg d o && a.isS) = true := (Bool.and_eq_true_iff.1 h).1
  simp only [Bool.and_eq_true] at hr
  rw [decodeS_76 _ (by simp)]
  simp [decAtom, decMem, judge, hv, hr]

theorem atomCasI32 (d a : Reg) (off : Byte) (o : Ord) : Statement (.atomCasI32 d a off o) := by
  intro h w e
  cases e
  refine ⟨⟨.s, by simp; rfl⟩, ?_⟩
  intro sl hk
  refine inSlot sl .s decodeS _ 0x77 _ (by simp) (by decide) hk (by intro k' e; cases k' <;> first | rfl | cases e) ?_
  have hv : (Instr.atomCasI32 d a off o).valsOk = true := (Bool.and_eq_true_iff.1 h).2
  have hr : (d.isPair && a.isS) = true := (Bool.and_eq_true_iff.1 h).1
  simp only [Bool.and_eq_true] at hr
  rw [decodeS_77 _ (by simp)]
  simp [decMem, judge, hv, hr]

theorem fence (sc : Scope) : Statement (.fence sc) := by
  intro h w e
  cases e
  refine ⟨⟨.s, by simp; rfl⟩, ?_⟩
  intro sl hk
  refine inSlot sl .s decodeS _ 0x78 _ (by simp) (by decide) hk (by intro k' e; cases k' <;> first | rfl | cases e) ?_
  have hv : (Instr.fence sc).valsOk = true := (Bool.and_eq_true_iff.1 h).2
  rw [decodeS_78 _ (by simp)]
  simp [judge, hv]

theorem valset (d : Reg) : Statement (.valset d) := by
  intro h w e
  cases e
  refine ⟨⟨.s, by simp; rfl⟩, ?_⟩
  intro sl hk
  refine inSlot sl .s decodeS _ 0x79 _ (by simp) (by decide) hk (by intro k' e; cases k' <;> first | rfl | cases e) ?_
  have hv : (Instr.valset d).valsOk = true := (Bool.and_eq_true_iff.1 h).2
  have hr : (d.isP) = true := (Bool.and_eq_true_iff.1 h).1
  rw [decodeS_79 _ (by simp)]
  simp [judge, hv, hr]

theorem vclr : Statement (.vclr) := by
  intro h w e
  cases e
  refine ⟨⟨.s, by simp; rfl⟩, ?_⟩
  intro sl hk
  refine inSlot sl .s decodeS _ 0x7A _ (by simp) (by decide) hk (by intro k' e; cases k' <;> first | rfl | cases e) ?_
  have hv : (Instr.vclr).valsOk = true := (Bool.and_eq_true_iff.1 h).2
  rw [decodeS_7A _ (by simp)]
  simp [decC0, judge, hv]

theorem fadd (d a : Reg) (b : Src) (t : FTy) (m : Rm) : Statement (.fadd d a b t m) := by
  intro h w e
  cases e
  refine ⟨⟨.f, by simp; rfl⟩, ?_⟩
  intro sl hk
  refine inSlot sl .f decodeF _ 0x80 _ (by simp) (by decide) hk (by intro k' e; cases k' <;> first | rfl | cases e) ?_
  have hv : (Instr.fadd d a b t m).valsOk = true := (Bool.and_eq_true_iff.1 h).2
  have hr : (d.isS && a.isS && b.ok) = true := (Bool.and_eq_true_iff.1 h).1
  simp only [Bool.and_eq_true] at hr
  rw [decodeF_80 _ (by simp)]
  simp [decF3, judge, hv, hr, srcRound]

theorem fsub (d a : Reg) (b : Src) (t : FTy) (m : Rm) : Statement (.fsub d a b t m) := by
  intro h w e
  cases e
  refine ⟨⟨.f, by simp; rfl⟩, ?_⟩
  intro sl hk
  refine inSlot sl .f decodeF _ 0x81 _ (by simp) (by decide) hk (by intro k' e; cases k' <;> first | rfl | cases e) ?_
  have hv : (Instr.fsub d a b t m).valsOk = true := (Bool.and_eq_true_iff.1 h).2
  have hr : (d.isS && a.isS && b.ok) = true := (Bool.and_eq_true_iff.1 h).1
  simp only [Bool.and_eq_true] at hr
  rw [decodeF_81 _ (by simp)]
  simp [decF3, judge, hv, hr, srcRound]

theorem fmul (d a : Reg) (b : Src) (t : FTy) (m : Rm) : Statement (.fmul d a b t m) := by
  intro h w e
  cases e
  refine ⟨⟨.f, by simp; rfl⟩, ?_⟩
  intro sl hk
  refine inSlot sl .f decodeF _ 0x82 _ (by simp) (by decide) hk (by intro k' e; cases k' <;> first | rfl | cases e) ?_
  have hv : (Instr.fmul d a b t m).valsOk = true := (Bool.and_eq_true_iff.1 h).2
  have hr : (d.isS && a.isS && b.ok) = true := (Bool.and_eq_true_iff.1 h).1
  simp only [Bool.and_eq_true] at hr
  rw [decodeF_82 _ (by simp)]
  simp [decF3, judge, hv, hr, srcRound]

theorem ffma (d a : Reg) (b : Src) (t : FTy) (m : Rm) : Statement (.ffma d a b t m) := by
  intro h w e
  cases e
  refine ⟨⟨.f, by simp; rfl⟩, ?_⟩
  intro sl hk
  refine inSlot sl .f decodeF _ 0x83 _ (by simp) (by decide) hk (by intro k' e; cases k' <;> first | rfl | cases e) ?_
  have hv : (Instr.ffma d a b t m).valsOk = true := (Bool.and_eq_true_iff.1 h).2
  have hr : (d.isS && a.isS && b.ok) = true := (Bool.and_eq_true_iff.1 h).1
  simp only [Bool.and_eq_true] at hr
  rw [decodeF_83 _ (by simp)]
  simp [decF3, judge, hv, hr, srcRound]

theorem fmin (d a : Reg) (b : Src) (t : FTy) : Statement (.fmin d a b t) := by
  intro h w e
  cases e
  refine ⟨⟨.f, by simp; rfl⟩, ?_⟩
  intro sl hk
  refine inSlot sl .f decodeF _ 0x84 _ (by simp) (by decide) hk (by intro k' e; cases k' <;> first | rfl | cases e) ?_
  have hv : (Instr.fmin d a b t).valsOk = true := (Bool.and_eq_true_iff.1 h).2
  have hr : (d.isS && a.isS && b.ok) = true := (Bool.and_eq_true_iff.1 h).1
  simp only [Bool.and_eq_true] at hr
  rw [decodeF_84 _ (by simp)]
  simp [decF3n, judge, hv, hr, srcRound]

theorem fmax (d a : Reg) (b : Src) (t : FTy) : Statement (.fmax d a b t) := by
  intro h w e
  cases e
  refine ⟨⟨.f, by simp; rfl⟩, ?_⟩
  intro sl hk
  refine inSlot sl .f decodeF _ 0x85 _ (by simp) (by decide) hk (by intro k' e; cases k' <;> first | rfl | cases e) ?_
  have hv : (Instr.fmax d a b t).valsOk = true := (Bool.and_eq_true_iff.1 h).2
  have hr : (d.isS && a.isS && b.ok) = true := (Bool.and_eq_true_iff.1 h).1
  simp only [Bool.and_eq_true] at hr
  rw [decodeF_85 _ (by simp)]
  simp [decF3n, judge, hv, hr, srcRound]

theorem fsgn (d a : Reg) (b : Src) (t : FTy) (g : SgnOp) : Statement (.fsgn d a b t g) := by
  intro h w e
  cases e
  refine ⟨⟨.f, by simp; rfl⟩, ?_⟩
  intro sl hk
  refine inSlot sl .f decodeF _ 0x86 _ (by simp) (by decide) hk (by intro k' e; cases k' <;> first | rfl | cases e) ?_
  have hv : (Instr.fsgn d a b t g).valsOk = true := (Bool.and_eq_true_iff.1 h).2
  have hr : (d.isS && a.isS && b.ok) = true := (Bool.and_eq_true_iff.1 h).1
  simp only [Bool.and_eq_true] at hr
  rw [decodeF_86 _ (by simp)]
  simp [judge, hv, hr, srcRound]

theorem fcmp (d a : Reg) (b : Src) (t : FTy) (c : FCond) : Statement (.fcmp d a b t c) := by
  intro h w e
  cases e
  refine ⟨⟨.f, by simp; rfl⟩, ?_⟩
  intro sl hk
  refine inSlot sl .f decodeF _ 0x87 _ (by simp) (by decide) hk (by intro k' e; cases k' <;> first | rfl | cases e) ?_
  have hv : (Instr.fcmp d a b t c).valsOk = true := (Bool.and_eq_true_iff.1 h).2
  have hr : (d.isP && a.isS && b.ok) = true := (Bool.and_eq_true_iff.1 h).1
  simp only [Bool.and_eq_true] at hr
  rw [decodeF_87 _ (by simp)]
  simp [judge, hv, hr, srcRound]

theorem frcp (d a : Reg) (m : Rm) : Statement (.frcp d a m) := by
  intro h w e
  cases e
  refine ⟨⟨.f, by simp; rfl⟩, ?_⟩
  intro sl hk
  refine inSlot sl .f decodeF _ 0x88 _ (by simp) (by decide) hk (by intro k' e; cases k' <;> first | rfl | cases e) ?_
  have hv : (Instr.frcp d a m).valsOk = true := (Bool.and_eq_true_iff.1 h).2
  have hr : (d.isS && a.isS) = true := (Bool.and_eq_true_iff.1 h).1
  simp only [Bool.and_eq_true] at hr
  rw [decodeF_88 _ (by simp)]
  simp [decF1, judge, hv, hr]

theorem frsq (d a : Reg) (m : Rm) : Statement (.frsq d a m) := by
  intro h w e
  cases e
  refine ⟨⟨.f, by simp; rfl⟩, ?_⟩
  intro sl hk
  refine inSlot sl .f decodeF _ 0x89 _ (by simp) (by decide) hk (by intro k' e; cases k' <;> first | rfl | cases e) ?_
  have hv : (Instr.frsq d a m).valsOk = true := (Bool.and_eq_true_iff.1 h).2
  have hr : (d.isS && a.isS) = true := (Bool.and_eq_true_iff.1 h).1
  simp only [Bool.and_eq_true] at hr
  rw [decodeF_89 _ (by simp)]
  simp [decF1, judge, hv, hr]

theorem fexp2 (d a : Reg) (m : Rm) : Statement (.fexp2 d a m) := by
  intro h w e
  cases e
  refine ⟨⟨.f, by simp; rfl⟩, ?_⟩
  intro sl hk
  refine inSlot sl .f decodeF _ 0x8A _ (by simp) (by decide) hk (by intro k' e; cases k' <;> first | rfl | cases e) ?_
  have hv : (Instr.fexp2 d a m).valsOk = true := (Bool.and_eq_true_iff.1 h).2
  have hr : (d.isS && a.isS) = true := (Bool.and_eq_true_iff.1 h).1
  simp only [Bool.and_eq_true] at hr
  rw [decodeF_8A _ (by simp)]
  simp [decF1, judge, hv, hr]

theorem flog2 (d a : Reg) (m : Rm) : Statement (.flog2 d a m) := by
  intro h w e
  cases e
  refine ⟨⟨.f, by simp; rfl⟩, ?_⟩
  intro sl hk
  refine inSlot sl .f decodeF _ 0x8B _ (by simp) (by decide) hk (by intro k' e; cases k' <;> first | rfl | cases e) ?_
  have hv : (Instr.flog2 d a m).valsOk = true := (Bool.and_eq_true_iff.1 h).2
  have hr : (d.isS && a.isS) = true := (Bool.and_eq_true_iff.1 h).1
  simp only [Bool.and_eq_true] at hr
  rw [decodeF_8B _ (by simp)]
  simp [decF1, judge, hv, hr]

theorem fcvt (d a : Reg) (srnd : Bool) (st dt : FTy) (m : Rm) : Statement (.fcvt d a srnd st dt m) := by
  intro h w e
  cases e
  refine ⟨⟨.f, by simp; rfl⟩, ?_⟩
  intro sl hk
  refine inSlot sl .f decodeF _ 0x8C _ (by simp) (by decide) hk (by intro k' e; cases k' <;> first | rfl | cases e) ?_
  have hv : (Instr.fcvt d a srnd st dt m).valsOk = true := (Bool.and_eq_true_iff.1 h).2
  have hr : (d.isS && a.isS) = true := (Bool.and_eq_true_iff.1 h).1
  simp only [Bool.and_eq_true] at hr
  rw [decodeF_8C _ (by simp)]
  simp [judge, hv, hr]

theorem fcvti (d a : Reg) (i : ITy) (t : FTy) (m : Rm) : Statement (.fcvti d a i t m) := by
  intro h w e
  cases e
  refine ⟨⟨.f, by simp; rfl⟩, ?_⟩
  intro sl hk
  refine inSlot sl .f decodeF _ 0x8D _ (by simp) (by decide) hk (by intro k' e; cases k' <;> first | rfl | cases e) ?_
  have hv : (Instr.fcvti d a i t m).valsOk = true := (Bool.and_eq_true_iff.1 h).2
  have hr : (d.isS && a.isS) = true := (Bool.and_eq_true_iff.1 h).1
  simp only [Bool.and_eq_true] at hr
  rw [decodeF_8D _ (by simp)]
  simp [decFI, judge, hv, hr]

theorem icvtf (d a : Reg) (i : ITy) (t : FTy) (m : Rm) : Statement (.icvtf d a i t m) := by
  intro h w e
  cases e
  refine ⟨⟨.f, by simp; rfl⟩, ?_⟩
  intro sl hk
  refine inSlot sl .f decodeF _ 0x8E _ (by simp) (by decide) hk (by intro k' e; cases k' <;> first | rfl | cases e) ?_
  have hv : (Instr.icvtf d a i t m).valsOk = true := (Bool.and_eq_true_iff.1 h).2
  have hr : (d.isS && a.isS) = true := (Bool.and_eq_true_iff.1 h).1
  simp only [Bool.and_eq_true] at hr
  rw [decodeF_8E _ (by simp)]
  simp [decFI, judge, hv, hr]

theorem vadd (d a : Reg) (b : Src) (t : FTy) (m : Rm) : Statement (.vadd d a b t m) := by
  intro h w e
  cases e
  refine ⟨⟨.f, by simp; rfl⟩, ?_⟩
  intro sl hk
  refine inSlot sl .f decodeF _ 0x90 _ (by simp) (by decide) hk (by intro k' e; cases k' <;> first | rfl | cases e) ?_
  have hv : (Instr.vadd d a b t m).valsOk = true := (Bool.and_eq_true_iff.1 h).2
  have hr : (d.isS && a.isS && b.ok) = true := (Bool.and_eq_true_iff.1 h).1
  simp only [Bool.and_eq_true] at hr
  rw [decodeF_90 _ (by simp)]
  simp [decF3, judge, hv, hr, srcRound]

theorem vmul (d a : Reg) (b : Src) (t : FTy) (m : Rm) : Statement (.vmul d a b t m) := by
  intro h w e
  cases e
  refine ⟨⟨.f, by simp; rfl⟩, ?_⟩
  intro sl hk
  refine inSlot sl .f decodeF _ 0x91 _ (by simp) (by decide) hk (by intro k' e; cases k' <;> first | rfl | cases e) ?_
  have hv : (Instr.vmul d a b t m).valsOk = true := (Bool.and_eq_true_iff.1 h).2
  have hr : (d.isS && a.isS && b.ok) = true := (Bool.and_eq_true_iff.1 h).1
  simp only [Bool.and_eq_true] at hr
  rw [decodeF_91 _ (by simp)]
  simp [decF3, judge, hv, hr, srcRound]

theorem vand (d a : Reg) (b : Src) : Statement (.vand d a b) := by
  intro h w e
  cases e
  refine ⟨⟨.f, by simp; rfl⟩, ?_⟩
  intro sl hk
  refine inSlot sl .f decodeF _ 0x92 _ (by simp) (by decide) hk (by intro k' e; cases k' <;> first | rfl | cases e) ?_
  have hv : (Instr.vand d a b).valsOk = true := (Bool.and_eq_true_iff.1 h).2
  have hr : (d.isS && a.isS && b.ok) = true := (Bool.and_eq_true_iff.1 h).1
  simp only [Bool.and_eq_true] at hr
  rw [decodeF_92 _ (by simp)]
  simp [decV3, judge, hv, hr, srcRound]

theorem vor (d a : Reg) (b : Src) : Statement (.vor d a b) := by
  intro h w e
  cases e
  refine ⟨⟨.f, by simp; rfl⟩, ?_⟩
  intro sl hk
  refine inSlot sl .f decodeF _ 0x93 _ (by simp) (by decide) hk (by intro k' e; cases k' <;> first | rfl | cases e) ?_
  have hv : (Instr.vor d a b).valsOk = true := (Bool.and_eq_true_iff.1 h).2
  have hr : (d.isS && a.isS && b.ok) = true := (Bool.and_eq_true_iff.1 h).1
  simp only [Bool.and_eq_true] at hr
  rw [decodeF_93 _ (by simp)]
  simp [decV3, judge, hv, hr, srcRound]

theorem vshf (d a : Reg) (b : Src) : Statement (.vshf d a b) := by
  intro h w e
  cases e
  refine ⟨⟨.f, by simp; rfl⟩, ?_⟩
  intro sl hk
  refine inSlot sl .f decodeF _ 0x94 _ (by simp) (by decide) hk (by intro k' e; cases k' <;> first | rfl | cases e) ?_
  have hv : (Instr.vshf d a b).valsOk = true := (Bool.and_eq_true_iff.1 h).2
  have hr : (d.isS && a.isS && b.ok) = true := (Bool.and_eq_true_iff.1 h).1
  simp only [Bool.and_eq_true] at hr
  rw [decodeF_94 _ (by simp)]
  simp [decV3, judge, hv, hr, srcRound]

theorem vbcast (d a : Reg) : Statement (.vbcast d a) := by
  intro h w e
  cases e
  refine ⟨⟨.f, by simp; rfl⟩, ?_⟩
  intro sl hk
  refine inSlot sl .f decodeF _ 0x95 _ (by simp) (by decide) hk (by intro k' e; cases k' <;> first | rfl | cases e) ?_
  have hv : (Instr.vbcast d a).valsOk = true := (Bool.and_eq_true_iff.1 h).2
  have hr : (d.isS && a.isS) = true := (Bool.and_eq_true_iff.1 h).1
  simp only [Bool.and_eq_true] at hr
  rw [decodeF_95 _ (by simp)]
  simp [judge, hv, hr]

theorem vredadd (d a : Reg) (t : FTy) (m : Rm) : Statement (.vredadd d a t m) := by
  intro h w e
  cases e
  refine ⟨⟨.f, by simp; rfl⟩, ?_⟩
  intro sl hk
  refine inSlot sl .f decodeF _ 0x96 _ (by simp) (by decide) hk (by intro k' e; cases k' <;> first | rfl | cases e) ?_
  have hv : (Instr.vredadd d a t m).valsOk = true := (Bool.and_eq_true_iff.1 h).2
  have hr : (d.isS && a.isS) = true := (Bool.and_eq_true_iff.1 h).1
  simp only [Bool.and_eq_true] at hr
  rw [decodeF_96 _ (by simp)]
  simp [judge, hv, hr]

theorem vredmax (d a : Reg) (t : FTy) : Statement (.vredmax d a t) := by
  intro h w e
  cases e
  refine ⟨⟨.f, by simp; rfl⟩, ?_⟩
  intro sl hk
  refine inSlot sl .f decodeF _ 0x97 _ (by simp) (by decide) hk (by intro k' e; cases k' <;> first | rfl | cases e) ?_
  have hv : (Instr.vredmax d a t).valsOk = true := (Bool.and_eq_true_iff.1 h).2
  have hr : (d.isS && a.isS) = true := (Bool.and_eq_true_iff.1 h).1
  simp only [Bool.and_eq_true] at hr
  rw [decodeF_97 _ (by simp)]
  simp [judge, hv, hr]

theorem vsel (d a : Reg) (b : Src) (p : Reg) : Statement (.vsel d a b p) := by
  intro h w e
  cases e
  refine ⟨⟨.f, by simp; rfl⟩, ?_⟩
  intro sl hk
  refine inSlot sl .f decodeF _ 0x98 _ (by simp) (by decide) hk (by intro k' e; cases k' <;> first | rfl | cases e) ?_
  have hv : (Instr.vsel d a b p).valsOk = true := (Bool.and_eq_true_iff.1 h).2
  have hr : (d.isS && a.isS && b.ok && p.isP) = true := (Bool.and_eq_true_iff.1 h).1
  simp only [Bool.and_eq_true] at hr
  rw [decodeF_98 _ (by simp)]
  simp [decSel, judge, hv, hr, srcRound]

theorem vpack (d a : Reg) (b : Src) (t : FTy) (m : Rm) : Statement (.vpack d a b t m) := by
  intro h w e
  cases e
  refine ⟨⟨.f, by simp; rfl⟩, ?_⟩
  intro sl hk
  refine inSlot sl .f decodeF _ 0x99 _ (by simp) (by decide) hk (by intro k' e; cases k' <;> first | rfl | cases e) ?_
  have hv : (Instr.vpack d a b t m).valsOk = true := (Bool.and_eq_true_iff.1 h).2
  have hr : (d.isS && a.isS && b.ok) = true := (Bool.and_eq_true_iff.1 h).1
  simp only [Bool.and_eq_true] at hr
  rw [decodeF_99 _ (by simp)]
  simp [decF3, judge, hv, hr, srcRound]

theorem vunpk (d a : Reg) (t : FTy) (k : BitVec 2) : Statement (.vunpk d a t k) := by
  intro h w e
  cases e
  refine ⟨⟨.f, by simp; rfl⟩, ?_⟩
  intro sl hk
  refine inSlot sl .f decodeF _ 0x9A _ (by simp) (by decide) hk (by intro k' e; cases k' <;> first | rfl | cases e) ?_
  have hv : (Instr.vunpk d a t k).valsOk = true := (Bool.and_eq_true_iff.1 h).2
  have hr : (d.isS && a.isS) = true := (Bool.and_eq_true_iff.1 h).1
  simp only [Bool.and_eq_true] at hr
  rw [decodeF_9A _ (by simp)]
  simp [judge, hv, hr]

theorem vlane (d a : Reg) (b : Src) : Statement (.vlane d a b) := by
  intro h w e
  cases e
  refine ⟨⟨.f, by simp; rfl⟩, ?_⟩
  intro sl hk
  refine inSlot sl .f decodeF _ 0x9B _ (by simp) (by decide) hk (by intro k' e; cases k' <;> first | rfl | cases e) ?_
  have hv : (Instr.vlane d a b).valsOk = true := (Bool.and_eq_true_iff.1 h).2
  have hr : (d.isS && a.isS && b.ok) = true := (Bool.and_eq_true_iff.1 h).1
  simp only [Bool.and_eq_true] at hr
  rw [decodeF_9B _ (by simp)]
  simp [decV3, judge, hv, hr, srcRound]

theorem vins (d a : Reg) (b : Src) : Statement (.vins d a b) := by
  intro h w e
  cases e
  refine ⟨⟨.f, by simp; rfl⟩, ?_⟩
  intro sl hk
  refine inSlot sl .f decodeF _ 0x9C _ (by simp) (by decide) hk (by intro k' e; cases k' <;> first | rfl | cases e) ?_
  have hv : (Instr.vins d a b).valsOk = true := (Bool.and_eq_true_iff.1 h).2
  have hr : (d.isS && a.isS && b.ok) = true := (Bool.and_eq_true_iff.1 h).1
  simp only [Bool.and_eq_true] at hr
  rw [decodeF_9C _ (by simp)]
  simp [decV3, judge, hv, hr, srcRound]

theorem vfma (d a : Reg) (b : Src) (t : FTy) (m : Rm) : Statement (.vfma d a b t m) := by
  intro h w e
  cases e
  refine ⟨⟨.f, by simp; rfl⟩, ?_⟩
  intro sl hk
  refine inSlot sl .f decodeF _ 0x9D _ (by simp) (by decide) hk (by intro k' e; cases k' <;> first | rfl | cases e) ?_
  have hv : (Instr.vfma d a b t m).valsOk = true := (Bool.and_eq_true_iff.1 h).2
  have hr : (d.isS && a.isS && b.ok) = true := (Bool.and_eq_true_iff.1 h).1
  simp only [Bool.and_eq_true] at hr
  rw [decodeF_9D _ (by simp)]
  simp [decF3, judge, hv, hr, srcRound]

theorem erw (e : BitVec 4) (a : Reg) (b : Src) (n : Reg) : Statement (.erw e a b n) := by
  intro h w e
  cases e
  refine ⟨⟨.x, by simp; rfl⟩, ?_⟩
  intro sl hk
  refine inSlot sl .x decodeX _ 0xC0 _ (by simp) (by decide) hk (by intro k' e; cases k' <;> first | rfl | cases e) ?_
  have hv : (Instr.erw e a b n).valsOk = true := (Bool.and_eq_true_iff.1 h).2
  have hr : (a.isS && b.ok) = true := (Bool.and_eq_true_iff.1 h).1
  simp only [Bool.and_eq_true] at hr
  rw [decodeX_C0 _ (by simp)]
  simp [judge, hv, hr, srcRound]

theorem erd (e : BitVec 4) (a : Reg) (n : Reg) : Statement (.erd e a n) := by
  intro h w e
  cases e
  refine ⟨⟨.x, by simp; rfl⟩, ?_⟩
  intro sl hk
  refine inSlot sl .x decodeX _ 0xC1 _ (by simp) (by decide) hk (by intro k' e; cases k' <;> first | rfl | cases e) ?_
  have hv : (Instr.erd e a n).valsOk = true := (Bool.and_eq_true_iff.1 h).2
  have hr : (a.isS) = true := (Bool.and_eq_true_iff.1 h).1
  rw [decodeX_C1 _ (by simp)]
  simp [judge, hv, hr]

theorem mlease : Statement (.mlease) := by
  intro h w e
  cases e
  refine ⟨⟨.x, by simp; rfl⟩, ?_⟩
  intro sl hk
  refine inSlot sl .x decodeX _ 0xC2 _ (by simp) (by decide) hk (by intro k' e; cases k' <;> first | rfl | cases e) ?_
  have hv : (Instr.mlease).valsOk = true := (Bool.and_eq_true_iff.1 h).2
  rw [decodeX_C2 _ (by simp)]
  simp [decX0, judge, hv]

theorem mfree : Statement (.mfree) := by
  intro h w e
  cases e
  refine ⟨⟨.x, by simp; rfl⟩, ?_⟩
  intro sl hk
  refine inSlot sl .x decodeX _ 0xC3 _ (by simp) (by decide) hk (by intro k' e; cases k' <;> first | rfl | cases e) ?_
  have hv : (Instr.mfree).valsOk = true := (Bool.and_eq_true_iff.1 h).2
  rw [decodeX_C3 _ (by simp)]
  simp [decX0, judge, hv]

theorem mma (x y : FTy) : Statement (.mma x y) := by
  intro h w e
  cases e
  refine ⟨⟨.x, by simp; rfl⟩, ?_⟩
  intro sl hk
  refine inSlot sl .x decodeX _ 0xC4 _ (by simp) (by decide) hk (by intro k' e; cases k' <;> first | rfl | cases e) ?_
  have hv : (Instr.mma x y).valsOk = true := (Bool.and_eq_true_iff.1 h).2
  rw [decodeX_C4 _ (by simp)]
  simp [decX0, judge, hv]

theorem mmas (x y : FTy) : Statement (.mmas x y) := by
  intro h w e
  cases e
  refine ⟨⟨.x, by simp; rfl⟩, ?_⟩
  intro sl hk
  refine inSlot sl .x decodeX _ 0xC5 _ (by simp) (by decide) hk (by intro k' e; cases k' <;> first | rfl | cases e) ?_
  have hv : (Instr.mmas x y).valsOk = true := (Bool.and_eq_true_iff.1 h).2
  rw [decodeX_C5 _ (by simp)]
  simp [decX0, judge, hv]

theorem mgath (t : FTy) : Statement (.mgath t) := by
  intro h w e
  cases e
  refine ⟨⟨.x, by simp; rfl⟩, ?_⟩
  intro sl hk
  refine inSlot sl .x decodeX _ 0xC6 _ (by simp) (by decide) hk (by intro k' e; cases k' <;> first | rfl | cases e) ?_
  have hv : (Instr.mgath t).valsOk = true := (Bool.and_eq_true_iff.1 h).2
  rw [decodeX_C6 _ (by simp)]
  simp [decX0, judge, hv]

theorem accrd (t : FTy) : Statement (.accrd t) := by
  intro h w e
  cases e
  refine ⟨⟨.x, by simp; rfl⟩, ?_⟩
  intro sl hk
  refine inSlot sl .x decodeX _ 0xC7 _ (by simp) (by decide) hk (by intro k' e; cases k' <;> first | rfl | cases e) ?_
  have hv : (Instr.accrd t).valsOk = true := (Bool.and_eq_true_iff.1 h).2
  rw [decodeX_C7 _ (by simp)]
  simp [decX0, judge, hv]

theorem accwr (t : FTy) : Statement (.accwr t) := by
  intro h w e
  cases e
  refine ⟨⟨.x, by simp; rfl⟩, ?_⟩
  intro sl hk
  refine inSlot sl .x decodeX _ 0xC8 _ (by simp) (by decide) hk (by intro k' e; cases k' <;> first | rfl | cases e) ?_
  have hv : (Instr.accwr t).valsOk = true := (Bool.and_eq_true_iff.1 h).2
  rw [decodeX_C8 _ (by simp)]
  simp [decX0, judge, hv]

theorem accz : Statement (.accz) := by
  intro h w e
  cases e
  refine ⟨⟨.x, by simp; rfl⟩, ?_⟩
  intro sl hk
  refine inSlot sl .x decodeX _ 0xC9 _ (by simp) (by decide) hk (by intro k' e; cases k' <;> first | rfl | cases e) ?_
  have hv : (Instr.accz).valsOk = true := (Bool.and_eq_true_iff.1 h).2
  rw [decodeX_C9 _ (by simp)]
  simp [decX0, judge, hv]

theorem vecop (o : VOp) : Statement (.vecop o) := by
  intro h w e
  cases e
  refine ⟨⟨.x, by simp; rfl⟩, ?_⟩
  intro sl hk
  refine inSlot sl .x decodeX _ 0xCA _ (by simp) (by decide) hk (by intro k' e; cases k' <;> first | rfl | cases e) ?_
  have hv : (Instr.vecop o).valsOk = true := (Bool.and_eq_true_iff.1 h).2
  rw [decodeX_CA _ (by simp)]
  simp [decX0, judge, hv]

theorem cpy : Statement (.cpy) := by
  intro h w e
  cases e
  refine ⟨⟨.x, by simp; rfl⟩, ?_⟩
  intro sl hk
  refine inSlot sl .x decodeX _ 0xCB _ (by simp) (by decide) hk (by intro k' e; cases k' <;> first | rfl | cases e) ?_
  have hv : (Instr.cpy).valsOk = true := (Bool.and_eq_true_iff.1 h).2
  rw [decodeX_CB _ (by simp)]
  simp [decX0, judge, hv]

theorem cpyd : Statement (.cpyd) := by
  intro h w e
  cases e
  refine ⟨⟨.x, by simp; rfl⟩, ?_⟩
  intro sl hk
  refine inSlot sl .x decodeX _ 0xCC _ (by simp) (by decide) hk (by intro k' e; cases k' <;> first | rfl | cases e) ?_
  have hv : (Instr.cpyd).valsOk = true := (Bool.and_eq_true_iff.1 h).2
  rw [decodeX_CC _ (by simp)]
  simp [decX0, judge, hv]

theorem ifill : Statement (.ifill) := by
  intro h w e
  cases e
  refine ⟨⟨.x, by simp; rfl⟩, ?_⟩
  intro sl hk
  refine inSlot sl .x decodeX _ 0xCD _ (by simp) (by decide) hk (by intro k' e; cases k' <;> first | rfl | cases e) ?_
  have hv : (Instr.ifill).valsOk = true := (Bool.and_eq_true_iff.1 h).2
  rw [decodeX_CD _ (by simp)]
  simp [decX0, judge, hv]

theorem coll (t : FTy) (o : COp) : Statement (.coll t o) := by
  intro h w e
  cases e
  refine ⟨⟨.x, by simp; rfl⟩, ?_⟩
  intro sl hk
  refine inSlot sl .x decodeX _ 0xCE _ (by simp) (by decide) hk (by intro k' e; cases k' <;> first | rfl | cases e) ?_
  have hv : (Instr.coll t o).valsOk = true := (Bool.and_eq_true_iff.1 h).2
  rw [decodeX_CE _ (by simp)]
  simp [decX0, judge, hv]

theorem tlwait (e : BitVec 4) (a : Reg) (b : Src) : Statement (.tlwait e a b) := by
  intro h w e
  cases e
  refine ⟨⟨.x, by simp; rfl⟩, ?_⟩
  intro sl hk
  refine inSlot sl .x decodeX _ 0xD0 _ (by simp) (by decide) hk (by intro k' e; cases k' <;> first | rfl | cases e) ?_
  have hv : (Instr.tlwait e a b).valsOk = true := (Bool.and_eq_true_iff.1 h).2
  have hr : (a.isS && b.ok) = true := (Bool.and_eq_true_iff.1 h).1
  simp only [Bool.and_eq_true] at hr
  rw [decodeX_D0 _ (by simp)]
  simp [judge, hv, hr, srcRound]

theorem tlread (e : BitVec 4) (a : Reg) : Statement (.tlread e a) := by
  intro h w e
  cases e
  refine ⟨⟨.x, by simp; rfl⟩, ?_⟩
  intro sl hk
  refine inSlot sl .x decodeX _ 0xD1 _ (by simp) (by decide) hk (by intro k' e; cases k' <;> first | rfl | cases e) ?_
  have hv : (Instr.tlread e a).valsOk = true := (Bool.and_eq_true_iff.1 h).2
  have hr : (a.isS) = true := (Bool.and_eq_true_iff.1 h).1
  rw [decodeX_D1 _ (by simp)]
  simp [judge, hv, hr]

theorem phreg (a : Reg) : Statement (.phreg a) := by
  intro h w e
  cases e
  refine ⟨⟨.x, by simp; rfl⟩, ?_⟩
  intro sl hk
  refine inSlot sl .x decodeX _ 0xD2 _ (by simp) (by decide) hk (by intro k' e; cases k' <;> first | rfl | cases e) ?_
  have hv : (Instr.phreg a).valsOk = true := (Bool.and_eq_true_iff.1 h).2
  have hr : (a.isS) = true := (Bool.and_eq_true_iff.1 h).1
  rw [decodeX_D2 _ (by simp)]
  simp [decXA, judge, hv, hr]

theorem phdrop (a : Reg) : Statement (.phdrop a) := by
  intro h w e
  cases e
  refine ⟨⟨.x, by simp; rfl⟩, ?_⟩
  intro sl hk
  refine inSlot sl .x decodeX _ 0xD3 _ (by simp) (by decide) hk (by intro k' e; cases k' <;> first | rfl | cases e) ?_
  have hv : (Instr.phdrop a).valsOk = true := (Bool.and_eq_true_iff.1 h).2
  have hr : (a.isS) = true := (Bool.and_eq_true_iff.1 h).1
  rw [decodeX_D3 _ (by simp)]
  simp [decXA, judge, hv, hr]

theorem phsig (a : Reg) : Statement (.phsig a) := by
  intro h w e
  cases e
  refine ⟨⟨.x, by simp; rfl⟩, ?_⟩
  intro sl hk
  refine inSlot sl .x decodeX _ 0xD4 _ (by simp) (by decide) hk (by intro k' e; cases k' <;> first | rfl | cases e) ?_
  have hv : (Instr.phsig a).valsOk = true := (Bool.and_eq_true_iff.1 h).2
  have hr : (a.isS) = true := (Bool.and_eq_true_iff.1 h).1
  rw [decodeX_D4 _ (by simp)]
  simp [decXA, judge, hv, hr]

theorem phwait (a : Reg) (b : Src) : Statement (.phwait a b) := by
  intro h w e
  cases e
  refine ⟨⟨.x, by simp; rfl⟩, ?_⟩
  intro sl hk
  refine inSlot sl .x decodeX _ 0xD5 _ (by simp) (by decide) hk (by intro k' e; cases k' <;> first | rfl | cases e) ?_
  have hv : (Instr.phwait a b).valsOk = true := (Bool.and_eq_true_iff.1 h).2
  have hr : (a.isS && b.ok) = true := (Bool.and_eq_true_iff.1 h).1
  simp only [Bool.and_eq_true] at hr
  rw [decodeX_D5 _ (by simp)]
  simp [judge, hv, hr, srcRound]

theorem phsw (a : Reg) : Statement (.phsw a) := by
  intro h w e
  cases e
  refine ⟨⟨.x, by simp; rfl⟩, ?_⟩
  intro sl hk
  refine inSlot sl .x decodeX _ 0xD6 _ (by simp) (by decide) hk (by intro k' e; cases k' <;> first | rfl | cases e) ?_
  have hv : (Instr.phsw a).valsOk = true := (Bool.and_eq_true_iff.1 h).2
  have hr : (a.isS) = true := (Bool.and_eq_true_iff.1 h).1
  rw [decodeX_D6 _ (by simp)]
  simp [decXA, judge, hv, hr]

theorem bind (a : Reg) (b : Src) : Statement (.bind a b) := by
  intro h w e
  cases e
  refine ⟨⟨.x, by simp; rfl⟩, ?_⟩
  intro sl hk
  refine inSlot sl .x decodeX _ 0xD7 _ (by simp) (by decide) hk (by intro k' e; cases k' <;> first | rfl | cases e) ?_
  have hv : (Instr.bind a b).valsOk = true := (Bool.and_eq_true_iff.1 h).2
  have hr : (a.isPair && b.ok) = true := (Bool.and_eq_true_iff.1 h).1
  simp only [Bool.and_eq_true] at hr
  rw [decodeX_D7 _ (by simp)]
  simp [judge, hv, hr, srcRound]

theorem unbind (a : Reg) (b : Src) : Statement (.unbind a b) := by
  intro h w e
  cases e
  refine ⟨⟨.x, by simp; rfl⟩, ?_⟩
  intro sl hk
  refine inSlot sl .x decodeX _ 0xD8 _ (by simp) (by decide) hk (by intro k' e; cases k' <;> first | rfl | cases e) ?_
  have hv : (Instr.unbind a b).valsOk = true := (Bool.and_eq_true_iff.1 h).2
  have hr : (a.isPair && b.ok) = true := (Bool.and_eq_true_iff.1 h).1
  simp only [Bool.and_eq_true] at hr
  rw [decodeX_D8 _ (by simp)]
  simp [judge, hv, hr, srcRound]

theorem tkget (a : Reg) : Statement (.tkget a) := by
  intro h w e
  cases e
  refine ⟨⟨.x, by simp; rfl⟩, ?_⟩
  intro sl hk
  refine inSlot sl .x decodeX _ 0xD9 _ (by simp) (by decide) hk (by intro k' e; cases k' <;> first | rfl | cases e) ?_
  have hv : (Instr.tkget a).valsOk = true := (Bool.and_eq_true_iff.1 h).2
  have hr : (a.isS) = true := (Bool.and_eq_true_iff.1 h).1
  rw [decodeX_D9 _ (by simp)]
  simp [decXA, judge, hv, hr]

theorem tkdone : Statement (.tkdone) := by
  intro h w e
  cases e
  refine ⟨⟨.x, by simp; rfl⟩, ?_⟩
  intro sl hk
  refine inSlot sl .x decodeX _ 0xDA _ (by simp) (by decide) hk (by intro k' e; cases k' <;> first | rfl | cases e) ?_
  have hv : (Instr.tkdone).valsOk = true := (Bool.and_eq_true_iff.1 h).2
  rw [decodeX_DA _ (by simp)]
  simp [decX0, judge, hv]

theorem fwait (a : Reg) : Statement (.fwait a) := by
  intro h w e
  cases e
  refine ⟨⟨.x, by simp; rfl⟩, ?_⟩
  intro sl hk
  refine inSlot sl .x decodeX _ 0xDB _ (by simp) (by decide) hk (by intro k' e; cases k' <;> first | rfl | cases e) ?_
  have hv : (Instr.fwait a).valsOk = true := (Bool.and_eq_true_iff.1 h).2
  have hr : (a.isS) = true := (Bool.and_eq_true_iff.1 h).1
  rw [decodeX_DB _ (by simp)]
  simp [decXA, judge, hv, hr]

theorem bmsg : Statement (.bmsg) := by
  intro h w e
  cases e
  refine ⟨⟨.x, by simp; rfl⟩, ?_⟩
  intro sl hk
  refine inSlot sl .x decodeX _ 0xDC _ (by simp) (by decide) hk (by intro k' e; cases k' <;> first | rfl | cases e) ?_
  have hv : (Instr.bmsg).valsOk = true := (Bool.and_eq_true_iff.1 h).2
  rw [decodeX_DC _ (by simp)]
  simp [decX0, judge, hv]

theorem cbsync (a : Reg) (b : Src) : Statement (.cbsync a b) := by
  intro h w e
  cases e
  refine ⟨⟨.x, by simp; rfl⟩, ?_⟩
  intro sl hk
  refine inSlot sl .x decodeX _ 0xDD _ (by simp) (by decide) hk (by intro k' e; cases k' <;> first | rfl | cases e) ?_
  have hv : (Instr.cbsync a b).valsOk = true := (Bool.and_eq_true_iff.1 h).2
  have hr : (a.isS && b.ok) = true := (Bool.and_eq_true_iff.1 h).1
  simp only [Bool.and_eq_true] at hr
  rw [decodeX_DD _ (by simp)]
  simp [judge, hv, hr, srcRound]

theorem qld (q : BitVec 4) (a : Reg) (imm : BitVec 12) : Statement (.qld q a imm) := by
  intro h w e
  cases e
  refine ⟨⟨.q, by simp; rfl⟩, ?_⟩
  intro sl hk
  refine inSlot sl .q decodeQ _ 0xE0 _ (by simp) (by decide) hk (by intro k' e; cases k' <;> first | rfl | cases e) ?_
  have hv : (Instr.qld q a imm).valsOk = true := (Bool.and_eq_true_iff.1 h).2
  have hr : (a.isS) = true := (Bool.and_eq_true_iff.1 h).1
  rw [decodeQ_E0 _ (by simp)]
  simp [judge, hv, hr]

theorem qmov (q : BitVec 4) (a : Reg) : Statement (.qmov q a) := by
  intro h w e
  cases e
  refine ⟨⟨.q, by simp; rfl⟩, ?_⟩
  intro sl hk
  refine inSlot sl .q decodeQ _ 0xE1 _ (by simp) (by decide) hk (by intro k' e; cases k' <;> first | rfl | cases e) ?_
  have hv : (Instr.qmov q a).valsOk = true := (Bool.and_eq_true_iff.1 h).2
  have hr : (a.isS) = true := (Bool.and_eq_true_iff.1 h).1
  rw [decodeQ_E1 _ (by simp)]
  simp [judge, hv, hr]

theorem qset (q : BitVec 4) (c : Byte) : Statement (.qset q c) := by
  intro h w e
  cases e
  refine ⟨⟨.q, by simp; rfl⟩, ?_⟩
  intro sl hk
  refine inSlot sl .q decodeQ _ 0xE2 _ (by simp) (by decide) hk (by intro k' e; cases k' <;> first | rfl | cases e) ?_
  have hv : (Instr.qset q c).valsOk = true := (Bool.and_eq_true_iff.1 h).2
  rw [decodeQ_E2 _ (by simp)]
  simp [judge, hv]

theorem fmtset (f : BitVec 4) (a : Reg) : Statement (.fmtset f a) := by
  intro h w e
  cases e
  refine ⟨⟨.q, by simp; rfl⟩, ?_⟩
  intro sl hk
  refine inSlot sl .q decodeQ _ 0xE3 _ (by simp) (by decide) hk (by intro k' e; cases k' <;> first | rfl | cases e) ?_
  have hv : (Instr.fmtset f a).valsOk = true := (Bool.and_eq_true_iff.1 h).2
  have hr : (decide (f.toNat < 8) && a.isS) = true := (Bool.and_eq_true_iff.1 h).1
  simp only [Bool.and_eq_true] at hr
  rw [decodeQ_E3 _ (by simp)]
  simp [judge, hv, hr]

end Sys2Proof.Laws.RoundTrip
end

