-- ==== Sys2Proof/Laws/Seat.lean ====
section
/-! SUPPORT. What the operations of memory, of the caches and of numbered commands leave alone: the bundle being issued, its
context, the clock and the step number. -/

namespace Sys2Proof.Machine
open Sys2Proof

/-- The current context's number, the latch of the bundle, the clock and the step number. -/
structure Seat where
  cur : Nat
  iss : Iss
  clock : Nat
  fresh : Nat

/-- Those of a state. The latch's mark that a reissue waits is left out: an operation that cannot begin yet sets it. -/
def State.seat (s : State) : Seat := ⟨s.cur, { s.iss with wait := false }, s.clock, s.fresh⟩

@[simp] theorem State.seat_mk (a b c d e f g h i j k m t l n o lo p q r u v w x y z cu is) :
    (State.mk a b c d e f g h i j k m t l n o lo p q r u v w x y z cu is).seat =
      ⟨cu, { is with wait := false }, r, y⟩ := rfl

@[simp] theorem State.seat_fold (s : State) : (Seat.mk s.cur { s.iss with wait := false } s.clock s.fresh) = s.seat := rfl

theorem foldl_seat {α : Type} (f : State → α → State) (h : ∀ t x, (f t x).seat = t.seat) (l : List α) (s : State) :
    (l.foldl f s).seat = s.seat := by
  induction l generalizing s with
  | nil => rfl
  | cons a r ih => simp only [List.foldl_cons, ih, h]

theorem foldl_seat1 {α β : Type} (f : State × β → α → State × β) (h : ∀ t x, (f t x).1.seat = t.1.seat) (l : List α)
    (s : State × β) : (l.foldl f s).1.seat = s.1.seat := by
  induction l generalizing s with
  | nil => rfl
  | cons a r ih => simp only [List.foldl_cons, ih, h]

@[simp] theorem State.setCtx_seat (x0 : State) (x1 : Nat) (x2 : Ctx) :
    (State.setCtx x0 x1 x2).seat = x0.seat := by
  unfold State.setCtx
  simp

@[simp] theorem State.setMe_seat (x0 : State) (x1 : Ctx) :
    (State.setMe x0 x1).seat = x0.seat := by
  unfold State.setMe
  simp

@[simp] theorem State.setCore_seat (x0 : State) (x1 : Nat) (x2 : Core) :
    (State.setCore x0 x1 x2).seat = x0.seat := by
  unfold State.setCore
  simp

@[simp] theorem State.setCl_seat (x0 : State) (x1 : Nat) (x2 : Cluster) :
    (State.setCl x0 x1 x2).seat = x0.seat := by
  unfold State.setCl
  simp

@[simp] theorem State.setSlice_seat (x0 : State) (x1 : Nat) (x2 : Slice) :
    (State.setSlice x0 x1 x2).seat = x0.seat := by
  unfold State.setSlice
  simp

@[simp] theorem State.setQueue_seat (x0 : State) (x1 : Nat) (x2 : Queue) :
    (State.setQueue x0 x1 x2).seat = x0.seat := by
  unfold State.setQueue
  simp

@[simp] theorem State.setGang_seat (x0 : State) (x1 : Gang) :
    (State.setGang x0 x1).seat = x0.seat := by
  unfold State.setGang
  simp

@[simp] theorem State.send_seat (x0 : State) (x1 : Out) :
    (State.send x0 x1).seat = x0.seat := by
  unfold State.send
  simp

@[simp] theorem State.orFlags_seat (x0 : State) (x1 : Nat) (x2 : Byte) :
    (State.orFlags x0 x1 x2).seat = x0.seat := by
  unfold State.orFlags
  grind [State.seat, State.setCtx_seat]

@[simp] theorem State.noteWalk_seat (x0 : State) (x1 : Nat) :
    (State.noteWalk x0 x1).seat = x0.seat := by
  unfold State.noteWalk
  simp

@[simp] theorem State.memWrite_seat (x0 : State) (x1 : Pte) (x2 : Nat) (x3 : List Byte) :
    (State.memWrite x0 x1 x2 x3).seat = x0.seat := by
  unfold State.memWrite
  grind [State.seat]

@[simp] theorem State.raiseHint_seat (x0 : State) (x1 : Nat) (x2 : BEvent) :
    (State.raiseHint x0 x1 x2).seat = x0.seat := by
  unfold State.raiseHint
  grind [State.seat, State.setSlice_seat]

@[simp] theorem State.wake_seat (x0 : State) (x1 : Nat) :
    (State.wake x0 x1).seat = x0.seat := by
  unfold State.wake
  simp

@[simp] theorem State.writeBack_seat (x0 : State) (x1 : Nat) (x2 : Line) (x3 : Nat) (x4 : Nat) :
    (State.writeBack x0 x1 x2 x3 x4).seat = x0.seat := by
  induction x4 generalizing x0 x3 with
  | zero => rfl
  | succ n ih =>
    unfold State.writeBack
    rw [ih]
    split
    · simp only []
      split <;> simp
    · rfl

@[simp] theorem State.evict_seat (x0 : State) (x1 : Nat) (x2 : Nat) :
    (State.evict x0 x1 x2).seat = x0.seat := by
  unfold State.evict
  grind [State.seat, State.wake_seat, State.raiseHint_seat, State.setSlice_seat, State.writeBack_seat]

@[simp] theorem State.makeRoom_seat (x0 : State) (x1 : Nat) (x2 : Nat) (x3 : Machine.Acc) (x4 : BitVec 2) (x5 : Bool) :
    (State.makeRoom x0 x1 x2 x3 x4 x5).1.seat = x0.seat := by
  unfold State.makeRoom
  grind [State.seat, State.evict_seat]

@[simp] theorem State.newLine_seat (x0 : State) (x1 : Nat) (x2 : Nat) (x3 : Machine.Acc) (x4 : BitVec 2) :
    (State.newLine x0 x1 x2 x3 x4).seat = x0.seat := by
  unfold State.newLine
  simp

@[simp] theorem State.fillSector_seat (x0 : State) (x1 : Nat) (x2 : Nat) (x3 : Pte) (x4 : Machine.Acc) :
    (State.fillSector x0 x1 x2 x3 x4).seat = x0.seat := by
  unfold State.fillSector
  grind [State.seat, State.raiseHint_seat, State.setSlice_seat]

@[simp] theorem State.heal_seat (x0 : State) (x1 : Nat) (x2 : Machine.Acc) :
    (State.heal x0 x1 x2).seat = x0.seat := by
  unfold State.heal
  grind [State.seat, State.fillSector_seat, State.noteWalk_seat]

@[simp] theorem State.fetch_seat (x0 : State) (x1 : Nat) (x2 : Machine.Acc) (x3 : Bool) (x4 : Bool) (x5 : Bool) :
    (State.fetch x0 x1 x2 x3 x4 x5).1.seat = x0.seat := by
  unfold State.fetch
  grind [State.seat, State.newLine_seat, State.raiseHint_seat, State.makeRoom_seat, State.fillSector_seat,
    State.noteWalk_seat]

@[simp] theorem State.arrive_seat (x0 : State) (x1 : Nat) (x2 : Fill) :
    (State.arrive x0 x1 x2).seat = x0.seat := by
  unfold State.arrive
  grind [State.seat, State.fetch_seat, State.setSlice_seat]

@[simp] theorem State.awaitFill_seat (x0 : State) (x1 : Nat) :
    (State.awaitFill x0 x1).seat = x0.seat := by
  unfold State.awaitFill
  grind [State.seat, State.arrive_seat]

@[simp] theorem State.bring_seat (x0 : State) (x1 : Nat) (x2 : Machine.Acc) (x3 : Bool) (x4 : Bool) (x5 : Bool) :
    (State.bring x0 x1 x2 x3 x4 x5).1.seat = x0.seat := by
  unfold State.bring
  grind [State.seat, State.awaitFill_seat, State.heal_seat, State.fetch_seat]

@[simp] theorem State.place_seat (x0 : State) (x1 : Nat) (x2 : Machine.Acc) (x3 : Bool) :
    (State.place x0 x1 x2 x3).1.seat = x0.seat := by
  unfold State.place
  grind [State.seat, State.newLine_seat, State.awaitFill_seat, State.raiseHint_seat, State.makeRoom_seat,
    State.setSlice_seat, State.noteWalk_seat]

@[simp] theorem State.touch_seat (x0 : State) (x1 : Nat) :
    (State.touch x0 x1).seat = x0.seat := by
  unfold State.touch
  grind [State.seat, State.setSlice_seat]

@[simp] theorem State.homeRead_seat (x0 : State) (x1 : Nat) (x2 : Nat) (x3 : Machine.Acc) (x4 : Bool) (x5 : optParam Bool
  Bool.false) :
    (State.homeRead x0 x1 x2 x3 x4 x5).1.seat = x0.seat := by
  unfold State.homeRead
  grind [State.seat, State.touch_seat, State.bring_seat]

@[simp] theorem State.l1Update_seat (x0 : State) (x1 : Nat) (x2 : Nat) (x3 : List Byte) (x4 : Byte) :
    (State.l1Update x0 x1 x2 x3 x4).seat = x0.seat := by
  unfold State.l1Update
  grind [State.seat, State.setCore_seat]

@[simp] theorem State.answer_seat (x0 : State) (x1 : Nat) (x2 : Nat) (x3 : Word) (x4 : Nat) :
    (State.answer x0 x1 x2 x3 x4).seat = x0.seat := by
  unfold State.answer
  simp

@[simp] theorem State.answerDeferred_seat (x0 : State) (x1 : Nat) (x2 : Nat) (x3 : Nat) (x4 : List Defer) :
    (State.answerDeferred x0 x1 x2 x3 x4).seat = x0.seat := by
  fun_induction State.answerDeferred x0 x1 x2 x3 x4 <;> first
    | (simp_all; done)
    | (simp_all; done)
    | grind [State.seat, State.answer_seat, State.l1Update_seat, State.setSlice_seat]

@[simp] theorem State.putBlock_seat (x0 : State) (x1 : Nat) (x2 : Byte) (x3 : List (Nat × Byte)) :
    (State.putBlock x0 x1 x2 x3).seat = x0.seat := by
  unfold State.putBlock
  grind [State.seat, State.setSlice_seat]

@[simp] theorem State.putBlockMem_seat (x0 : State) (x1 : Nat) (x2 : Byte) (x3 : List (Nat × Byte)) :
    (State.putBlockMem x0 x1 x2 x3).seat = x0.seat := by
  unfold State.putBlockMem
  grind [State.seat, State.memWrite_seat]

@[simp] theorem State.bringAll_seat (x0 : State) (x1 : Machine.Acc) (x2 : Bool) (x3 : List (Nat × Byte)) (x4 : List Nat) :
    (State.bringAll x0 x1 x2 x3 x4).1.seat = x0.seat := by
  fun_induction State.bringAll x0 x1 x2 x3 x4 <;> first
    | (simp_all [Prod.ext_iff]; done)
    | (simp_all; done)
    | grind [State.seat, State.place_seat, State.bring_seat]

@[simp] theorem State.afterWrite_seat (x0 : State) (x1 : Nat) (x2 : Nat) (x3 : Machine.Acc) :
    (State.afterWrite x0 x1 x2 x3).seat = x0.seat := by
  unfold State.afterWrite
  grind [State.seat, State.answerDeferred_seat, State.wake_seat, State.setSlice_seat]

@[simp] theorem State.performTxn_seat (x0 : State) (x1 : Machine.Acc) (x2 : List (Nat × Byte)) (x3 : Bool) (x4 : Nat) :
    (State.performTxn x0 x1 x2 x3 x4).1.seat = x0.seat := by
  have h := State.bringAll_seat x0 x1 x3 x2 (sectorsOf x2)
  unfold State.performTxn
  split
  · rfl
  · split <;> rename_i e <;> rw [e] at h <;> simp only [] at h ⊢ <;> try exact h
    split <;> simp [foldl_seat, h]

@[simp] theorem State.writeTxn_seat (x0 : State) (x1 : Acc) (x2 : List (Nat × Byte)) (x3 : Bool) (x4 : Nat) (x5 : LateEnd) :
    (State.writeTxn x0 x1 x2 x3 x4 x5).1.seat = x0.seat := by
  unfold State.writeTxn
  grind [State.seat, State.performTxn_seat]

@[simp] theorem State.versionOf_seat (x0 : State) (x1 : Nat) (x2 : Machine.Acc) :
    (State.versionOf x0 x1 x2).1.seat = x0.seat := by
  unfold State.versionOf
  grind [State.seat, State.bring_seat]

@[simp] theorem State.homeBytes_seat (x0 : State) (x1 : Machine.Acc) (x2 : Nat) (x3 : Nat) (x4 : Nat) :
    (State.homeBytes x0 x1 x2 x3 x4).1.seat = x0.seat := by
  induction x2 generalizing x0 x3 x4 with
  | zero => rfl
  | succ n ih =>
    unfold State.homeBytes
    simp only []
    repeat' split
    all_goals grind [State.homeRead_seat]

@[simp] theorem State.homeMany_seat (x0 : State) (x1 : Machine.Acc) (x2 : Nat) (x3 : Nat) :
    (State.homeMany x0 x1 x2 x3).1.seat = x0.seat := by
  unfold State.homeMany
  simp

@[simp] theorem State.sectorWrites_seat (x0 : State) (x1 : Acc) (x2 : LateEnd) (x3 : Nat) (x4 : Nat) (x5 : List Byte) :
    (State.sectorWrites x0 x1 x2 x3 x4 x5).1.seat = x0.seat := by
  induction x3 generalizing x0 x4 x5 with
  | zero => rfl
  | succ n ih =>
    unfold State.sectorWrites
    simp only []
    repeat' split
    all_goals grind [State.writeTxn_seat]

@[simp] theorem State.setAsync_seat (x0 : State) (x1 : Nat) (x2 : Nat) :
    (State.setAsync x0 x1 x2).seat = x0.seat := by
  unfold State.setAsync
  grind [State.seat, State.setCtx_seat]

@[simp] theorem State.l1Send_seat (x0 : State) (x1 : Nat) (x2 : Nat) (x3 : BitVec 256) (x4 : Scope × Nat) :
    (State.l1Send x0 x1 x2 x3 x4).seat = x0.seat := by
  unfold State.l1Send
  grind [State.seat, State.setCore_seat, State.writeTxn_seat, State.setAsync_seat]

@[simp] theorem State.l1WriteBack_seat (x0 : State) (x1 : Nat) (x2 : Nat) (x3 : Scope × Nat) :
    (State.l1WriteBack x0 x1 x2 x3).seat = x0.seat := by
  unfold State.l1WriteBack
  simp

@[simp] theorem State.l1Inval_seat (x0 : State) (x1 : Nat) (x2 : Nat) (x3 : Scope × Nat) :
    (State.l1Inval x0 x1 x2 x3).seat = x0.seat := by
  unfold State.l1Inval
  grind [State.seat, State.setCore_seat, State.l1WriteBack_seat]

@[simp] theorem State.l1Evict_seat (x0 : State) (x1 : Nat) (x2 : Nat) :
    (State.l1Evict x0 x1 x2).seat = x0.seat := by
  unfold State.l1Evict
  grind [State.seat, State.setCore_seat, State.l1WriteBack_seat]

@[simp] theorem State.l1Room_seat (x0 : State) (x1 : Nat) (x2 : Nat) :
    (State.l1Room x0 x1 x2).1.seat = x0.seat := by
  unfold State.l1Room
  grind [State.seat, State.l1Evict_seat]

@[simp] theorem State.checkFill_seat (x0 : State) (x1 : Nat) (x2 : Nat) :
    (State.checkFill x0 x1 x2).1.seat = x0.seat := by
  unfold State.checkFill
  grind [State.seat, State.setSlice_seat]

@[simp] theorem State.l1Load_seat (x0 : State) (x1 : Nat) (x2 : Nat) (x3 : Nat) (x4 : Nat) (x5 : Acc) :
    (State.l1Load x0 x1 x2 x3 x4 x5).1.seat = x0.seat := by
  unfold State.l1Load
  grind [State.seat, State.setCore_seat, State.homeRead_seat, State.l1Room_seat]

@[simp] theorem State.l1Store_seat (x0 : State) (x1 : Nat) (x2 : Nat) (x3 : Nat) (x4 : List Byte) (x5 : Acc) (x6 : Bool) :
    (State.l1Store x0 x1 x2 x3 x4 x5 x6).1.seat = x0.seat := by
  unfold State.l1Store
  grind [State.seat, State.setCore_seat, State.writeTxn_seat, State.setAsync_seat, State.l1Room_seat]

@[simp] theorem State.dropBuffered_seat (x0 : State) (x1 : Nat) :
    (State.dropBuffered x0 x1).seat = x0.seat := by
  unfold State.dropBuffered
  simp

@[simp] theorem State.commitLine_seat (x0 : State) (x1 : Nat) (x2 : Nat) (x3 : Nat) :
    (State.commitLine x0 x1 x2 x3).seat = x0.seat := by
  unfold State.commitLine
  grind [State.seat, State.setCore_seat, State.writeTxn_seat, State.setAsync_seat, State.l1Send_seat]

@[simp] theorem State.sendFirst_seat (x0 : State) (x1 : Nat) (x2 : Nat) (x3 : Byte) (x4 : Nat) :
    (State.sendFirst x0 x1 x2 x3 x4).seat = x0.seat := by
  unfold State.sendFirst
  simp

@[simp] theorem State.l1SendRange_seat (x0 : State) (x1 : Nat) (x2 : Nat) (x3 : Nat) (x4 : Scope × Nat) :
    (State.l1SendRange x0 x1 x2 x3 x4).seat = x0.seat := by
  unfold State.l1SendRange
  (repeat' split) <;> simp [foldl_seat]

@[simp] theorem State.l1InvalRange_seat (x0 : State) (x1 : Nat) (x2 : Nat) (x3 : Nat) (x4 : Scope × Nat) :
    (State.l1InvalRange x0 x1 x2 x3 x4).seat = x0.seat := by
  unfold State.l1InvalRange
  (repeat' split) <;> simp [foldl_seat]

@[simp] theorem State.l1FlushAll_seat (x0 : State) (x1 : Nat) (x2 : Scope × Nat) :
    (State.l1FlushAll x0 x1 x2).seat = x0.seat := by
  unfold State.l1FlushAll
  (repeat' split) <;> simp [foldl_seat]

@[simp] theorem State.releaseMarks_seat (x0 : State) (x1 : Nat) :
    (State.releaseMarks x0 x1).seat = x0.seat := by
  unfold State.releaseMarks
  simp

@[simp] theorem State.setPfn_seat (x0 : State) (x1 : Option Nat) (x2 : PcieFn) :
    (State.setPfn x0 x1 x2).seat = x0.seat := by
  unfold State.setPfn
  simp

@[simp] theorem State.raise_seat (x0 : State) (x1 : Option Nat) (x2 : Nat) :
    (State.raise x0 x1 x2).seat = x0.seat := by
  unfold State.raise
  grind [State.seat, State.setPfn_seat, State.send_seat]

@[simp] theorem State.journalMsg_seat (x0 : State) (x1 : Nat) :
    (State.journalMsg x0 x1).seat = x0.seat := by
  unfold State.journalMsg
  grind [State.seat, State.raise_seat]

@[simp] theorem State.ringWrite_seat (x0 : State) (x1 : Nat) (x2 : Word) (x3 : Nat) (x4 : List Byte) :
    (State.ringWrite x0 x1 x2 x3 x4).1.seat = x0.seat := by
  unfold State.ringWrite
  grind [State.seat, State.writeTxn_seat, State.send_seat]

@[simp] theorem State.jput_seat (x0 : State) (x1 : Nat) (x2 : List Byte) :
    (State.jput x0 x1 x2).seat = x0.seat := by
  unfold State.jput
  grind [State.seat, State.setQueue_seat, State.journalMsg_seat, State.ringWrite_seat]

@[simp] theorem State.journal_seat (x0 : State) (x1 : Nat) (x2 : Word) (x3 : Nat) (x4 : Nat) (x5 : Nat) (x6 : Word) :
    (State.journal x0 x1 x2 x3 x4 x5 x6).seat = x0.seat := by
  unfold State.journal
  grind [State.seat, State.setQueue_seat, State.place_seat, State.jput_seat]

@[simp] theorem State.notice_seat (x0 : State) (x1 : Nat) (x2 : Nat) (x3 : Word) :
    (State.notice x0 x1 x2 x3).seat = x0.seat := by
  unfold State.notice
  grind [State.seat, State.setQueue_seat, State.journal_seat]

@[simp] theorem State.lateDone_seat (x0 : State) (x1 : Nat) (x2 : LateEnd) (x3 : Res Unit) :
    (State.lateDone x0 x1 x2 x3).seat = x0.seat := by
  unfold State.lateDone
  grind [State.seat, State.setAsync_seat, State.notice_seat]

@[simp] theorem State.retryLate_seat (x0 : State) (x1 : LateTxn) :
    (State.retryLate x0 x1).seat = x0.seat := by
  unfold State.retryLate
  grind [State.seat, State.homeRead_seat, State.performTxn_seat, State.setAsync_seat, State.lateDone_seat]

@[simp] theorem State.retryJournal_seat (x0 : State) (x1 : Nat) (x2 : Nat) :
    (State.retryJournal x0 x1 x2).seat = x0.seat := by
  induction x2 generalizing x0 with
  | zero => rfl
  | succ n ih =>
    unfold State.retryJournal
    split
    · rfl
    · split
      · rfl
      · rw [ih]; simp

@[simp] theorem State.retryAll_seat (x0 : State) :
    (State.retryAll x0).seat = x0.seat := by
  unfold State.retryAll
  (repeat' split) <;> simp [foldl_seat]

@[simp] theorem State.sendPending_seat (x0 : State) (x1 : Option Nat) :
    (State.sendPending x0 x1).seat = x0.seat := by
  unfold State.sendPending
  simp only []
  (repeat' split) <;> first
    | (simp_all [foldl_seat, apply_ite State.seat]; done)
    | (simp_all [Prod.ext_iff, foldl_seat]; (repeat' split) <;> simp; done)

@[simp] theorem State.pfMsg_seat (x0 : State) (x1 : Nat) :
    (State.pfMsg x0 x1).seat = x0.seat := by
  unfold State.pfMsg
  simp

@[simp] theorem State.noticeAll_seat (x0 : State) (x1 : Nat) (x2 : Word) :
    (State.noticeAll x0 x1 x2).seat = x0.seat := by
  unfold State.noticeAll
  (repeat' split) <;> simp [foldl_seat]

@[simp] theorem State.owlPut_seat (x0 : State) (x1 : Nat) (x2 : List Byte) :
    (State.owlPut x0 x1 x2).seat = x0.seat := by
  unfold State.owlPut
  grind [State.seat, State.setCl_seat, State.writeTxn_seat]

@[simp] theorem State.owlLost_seat (x0 : State) (x1 : Nat) (x2 : Nat) :
    (State.owlLost x0 x1 x2).seat = x0.seat := by
  unfold State.owlLost
  extract_lets
  split
  · rfl
  · exact (State.setCl_seat _ _ _).trans (State.owlPut_seat _ _ _)

@[simp] theorem State.owlAt_seat (x0 : State) (x1 : Nat) (x2 : Nat) (x3 : Nat) (x4 : Nat) (x5 : Nat) (x6 : List Byte) :
    (State.owlAt x0 x1 x2 x3 x4 x5 x6).seat = x0.seat := by
  unfold State.owlAt
  extract_lets
  split
  · rfl
  · split
    · exact (State.setCl_seat _ _ _).trans (State.owlLost_seat _ _ _)
    · exact (State.owlPut_seat _ _ _).trans (State.owlLost_seat _ _ _)

@[simp] theorem State.owl_seat (x0 : State) (x1 : Nat) (x2 : Nat) (x3 : Nat) (x4 : Nat) (x5 : List Byte) :
    (State.owl x0 x1 x2 x3 x4 x5).seat = x0.seat := by
  unfold State.owl
  simp

@[simp] theorem State.scopeRecord_seat (x0 : State) (x1 : Nat) (x2 : Nat × Nat × Nat) :
    (State.scopeRecord x0 x1 x2).seat = x0.seat := by
  unfold State.scopeRecord
  simp

@[simp] theorem State.wrapped_seat (x0 : State) (x1 : CntEv) (x2 : Nat) :
    (State.wrapped x0 x1 x2).seat = x0.seat := by
  unfold State.wrapped
  simp

@[simp] theorem State.countOne_seat (x0 : State) (x1 : CntEv) (x2 : Nat) :
    (State.countOne x0 x1 x2).seat = x0.seat := by
  unfold State.countOne
  grind [State.seat, State.setCl_seat, State.wrapped_seat]

@[simp] theorem State.countEvent_seat (x0 : State) (x1 : CntEv) :
    (State.countEvent x0 x1).seat = x0.seat := by
  unfold State.countEvent
  (repeat' split) <;> simp [foldl_seat]

@[simp] theorem State.haltPool_seat (x0 : State) (x1 : Nat) (x2 : Nat) (x3 : Nat) (x4 : Nat) (x5 : Nat) :
    (State.haltPool x0 x1 x2 x3 x4 x5).seat = x0.seat := by
  unfold State.haltPool
  grind [State.seat, State.setGang_seat, State.writeTxn_seat, State.notice_seat]

@[simp] theorem State.taskFail_seat (x0 : State) (x1 : Nat) (x2 : Bool) :
    (State.taskFail x0 x1 x2).seat = x0.seat := by
  unfold State.taskFail
  simp only []
  (repeat' split) <;> first
    | (simp [State.dropBuffered_seat, State.setGang_seat, State.haltPool_seat, State.setCtx_seat]; done)
    | grind [State.seat, State.dropBuffered_seat, State.setGang_seat, State.haltPool_seat, State.setCtx_seat]

@[simp] theorem State.sendRemote_seat (x0 : State) (x1 : Nat) (x2 : Nat) (x3 : Window) (x4 : List Byte) :
    (State.sendRemote x0 x1 x2 x3 x4).seat = x0.seat := by
  unfold State.sendRemote
  simp

@[simp] theorem State.taintRanges_seat (x0 : State) (x1 : Nat) (x2 : Nat) (x3 : Nat) :
    (State.taintRanges x0 x1 x2 x3).seat = x0.seat := by
  unfold State.taintRanges
  simp

@[simp] theorem State.bankWrite_seat (x0 : State) (x1 : Nat) (x2 : Nat) (x3 : List Byte) :
    (State.bankWrite x0 x1 x2 x3).seat = x0.seat := by
  unfold State.bankWrite
  simp

@[simp] theorem State.breakPhasers_seat (x0 : State) (x1 : Nat) (x2 : Nat) (x3 : Nat) :
    (State.breakPhasers x0 x1 x2 x3).seat = x0.seat := by
  unfold State.breakPhasers
  grind [State.seat, State.setCl_seat]

@[simp] theorem State.bankStore_seat (x0 : State) (x1 : Nat) (x2 : Nat) (x3 : Nat) (x4 : List Byte) :
    (State.bankStore x0 x1 x2 x3 x4).seat = x0.seat := by
  unfold State.bankStore
  grind [State.seat, State.bankWrite_seat, State.breakPhasers_seat, State.taintRanges_seat]

@[simp] theorem State.setLdf_seat (x0 : State) (x1 : Nat) (x2 : Nat) (x3 : Ldf → Ldf) :
    (State.setLdf x0 x1 x2 x3).seat = x0.seat := by
  unfold State.setLdf
  simp

@[simp] theorem State.performLdf_seat (x0 : State) (x1 : Nat) (x2 : Nat) :
    (State.performLdf x0 x1 x2).seat = x0.seat := by
  unfold State.performLdf
  grind [State.seat, okey, tkey, State.setLdf_seat, State.setAsync_seat, State.l1Update_seat, State.homeRead_seat,
    State.setSlice_seat, State.answer_seat, State.sendFirst_seat]

@[simp] theorem State.performLdfs_seat (x0 : State) (x1 : Nat) (x2 : Ldf → Bool) :
    (State.performLdfs x0 x1 x2).seat = x0.seat := by
  unfold State.performLdfs
  (repeat' split) <;> simp [foldl_seat]

@[simp] theorem State.sendSpans_seat (x0 : State) (x1 : Nat) (x2 : Scope) (x3 : List (Nat × Nat)) :
    (State.sendSpans x0 x1 x2 x3).seat = x0.seat := by
  unfold State.sendSpans
  (repeat' split) <;> simp [foldl_seat]

@[simp] theorem State.dropSpans_seat (x0 : State) (x1 : Nat) (x2 : List (Nat × Nat)) :
    (State.dropSpans x0 x1 x2).seat = x0.seat := by
  unfold State.dropSpans
  (repeat' split) <;> simp [foldl_seat]

@[simp] theorem State.release_seat (x0 : State) (x1 : Nat) (x2 : ObjId) :
    (State.release x0 x1 x2).seat = x0.seat := by
  unfold State.release
  simp only []
  (repeat' split) <;> first
    | (simp_all [foldl_seat, apply_ite State.seat]; done)
    | (simp_all [Prod.ext_iff, foldl_seat]; (repeat' split) <;> simp; done)

@[simp] theorem State.acquire_seat (x0 : State) (x1 : Nat) (x2 : ObjId) :
    (State.acquire x0 x1 x2).seat = x0.seat := by
  unfold State.acquire
  simp only []
  (repeat' split) <;> first
    | (simp_all [foldl_seat, apply_ite State.seat]; done)
    | (simp_all [Prod.ext_iff, foldl_seat]; (repeat' split) <;> simp; done)

@[simp] theorem State.before_seat (x0 : State) (x1 : Nat) (x2 : Place) (x3 : Bool) :
    (State.before x0 x1 x2 x3).seat = x0.seat := by
  unfold State.before
  grind [State.seat, State.release_seat]

@[simp] theorem State.after_seat (x0 : State) (x1 : Nat) (x2 : Place) (x3 : Bool) :
    (State.after x0 x1 x2 x3).seat = x0.seat := by
  unfold State.after
  grind [State.seat, State.acquire_seat]

@[simp] theorem State.noteReport_seat (x0 : State) (x1 : Nat) (x2 : Nat) (x3 : Option (Scope × Nat)) :
    (State.noteReport x0 x1 x2 x3).seat = x0.seat := by
  unfold State.noteReport
  grind [State.seat, State.scopeRecord_seat, State.setCtx_seat]

@[simp] theorem State.failed_seat {α : Type} (x1 : State) (x2 : Nat) (x3 : Res α) :
    (State.failed x1 x2 x3).seat = x1.seat := by
  unfold State.failed
  grind [State.seat, State.setAsync_seat]

@[simp] theorem State.ahead_seat (x0 : State) (x1 : Nat) (x2 : Nat) (x3 : Byte) :
    (State.ahead x0 x1 x2 x3).seat = x0.seat := by
  unfold State.ahead
  simp

@[simp] theorem State.overlapped_seat (x0 : State) (x1 : Nat) (x2 : Nat) (x3 : Nat) :
    (State.overlapped x0 x1 x2 x3).seat = x0.seat := by
  unfold State.overlapped
  simp

@[simp] theorem State.homeLoad_seat (x0 : State) (x1 : Nat) (x2 : Nat) (x3 : Nat) (x4 : Machine.Acc) (x5 : Bool) (x6 :
  optParam Bool Bool.false) :
    (State.homeLoad x0 x1 x2 x3 x4 x5 x6).1.seat = x0.seat := by
  unfold State.homeLoad
  grind [State.seat, State.ahead_seat, State.l1Update_seat, State.homeRead_seat]

@[simp] theorem State.loadAt_seat (x0 : State) (x1 : Nat) (x2 : Place) (x3 : Nat) (x4 : Bool) :
    (State.loadAt x0 x1 x2 x3 x4).1.seat = x0.seat := by
  unfold State.loadAt
  grind [State.seat, State.overlapped_seat, State.checkFill_seat, State.homeLoad_seat, State.failed_seat,
    State.noteReport_seat, State.l1Load_seat]

@[simp] theorem State.homeStore_seat (x0 : State) (x1 : Nat) (x2 : Nat) (x3 : List Byte) (x4 : Acc) (x5 : Bool) :
    (State.homeStore x0 x1 x2 x3 x4 x5).seat = x0.seat := by
  unfold State.homeStore
  grind [State.seat, State.l1Update_seat, State.writeTxn_seat, State.setAsync_seat, State.ahead_seat]

@[simp] theorem State.storeAt_seat (x0 : State) (x1 : Nat) (x2 : Place) (x3 : List Byte) (x4 : Bool) (x5 : Bool) :
    (State.storeAt x0 x1 x2 x3 x4 x5).seat = x0.seat := by
  unfold State.storeAt
  grind [State.seat, State.l1Store_seat, State.taskFail_seat, State.sendRemote_seat, State.bankStore_seat,
    State.overlapped_seat, State.homeStore_seat]

@[simp] theorem State.sendOp_seat (x0 : State) (x1 : Nat) (x2 : Nat) (x3 : Byte) (x4 : Syl) (x5 : Word) (x6 : Word) :
    (State.sendOp x0 x1 x2 x3 x4 x5 x6).seat = x0.seat := by
  unfold State.sendOp
  grind [State.seat, State.send_seat]

@[simp] theorem State.flushComb_seat (x0 : State) (x1 : Nat) (x2 : Nat) :
    (State.flushComb x0 x1 x2).seat = x0.seat := by
  unfold State.flushComb
  grind [State.seat, State.setCl_seat, State.retryLate_seat, State.sendOp_seat]

@[simp] theorem State.flushCombs_seat (x0 : State) (x1 : Nat) :
    (State.flushCombs x0 x1).seat = x0.seat := by
  unfold State.flushCombs
  (repeat' split) <;> simp [foldl_seat]

@[simp] theorem State.fenceAt_seat (x0 : State) (x1 : Nat) (x2 : Scope) :
    (State.fenceAt x0 x1 x2).seat = x0.seat := by
  unfold State.fenceAt
  grind [State.seat, okey, tkey, State.releaseMarks_seat, State.l1FlushAll_seat, State.flushCombs_seat,
    State.performLdfs_seat]

@[simp] theorem State.number_seat (x0 : State) (x1 : Nat) (x2 : Nat) :
    (State.number x0 x1 x2).seat = x0.seat := by
  unfold State.number
  simp

@[simp] theorem State.complete_seat (x0 : State) (x1 : Nat) (x2 : Nat) (x3 : Word) :
    (State.complete x0 x1 x2 x3).seat = x0.seat := by
  unfold State.complete
  simp

@[simp] theorem State.refuseCmd_seat (x0 : State) (x1 : Nat) (x2 : Nat) (x3 : Word) :
    (State.refuseCmd x0 x1 x2 x3).seat = x0.seat := by
  unfold State.refuseCmd
  simp

@[simp] theorem State.emit_seat (x0 : State) (x1 : Op) :
    (State.emit x0 x1).seat = x0.seat := by
  unfold State.emit
  grind [State.seat, State.setMe_seat]

@[simp] theorem State.emitHeld_seat (x0 : State) (x1 : Op) (x2 : MemOp) :
    (State.emitHeld x0 x1 x2).seat = x0.seat := by
  unfold State.emitHeld
  grind [State.seat, State.setMe_seat, State.release_seat]

@[simp] theorem State.landOne_seat (x0 : State) (x1 : Nat) (x2 : Nat) :
    (State.landOne x0 x1 x2).seat = x0.seat := by
  unfold State.landOne
  grind [State.seat, State.setCtx_seat, State.orFlags_seat]

@[simp] theorem State.land_seat (x0 : State) (x1 : Nat) (x2 : Nat) :
    (State.land x0 x1 x2).seat = x0.seat := by
  unfold State.land
  repeat' split
  · rfl
  · rfl
  · rw [State.landOne_seat, foldl_seat]
    intro t j
    repeat' split
    all_goals simp
  · simp

@[simp] theorem State.landAll_seat (x0 : State) (x1 : Nat) (x2 : Op → Bool) :
    (State.landAll x0 x1 x2).seat = x0.seat := by
  unfold State.landAll
  rw [foldl_seat]
  intro t j
  repeat' split
  all_goals simp

@[simp] theorem State.dropTentative_seat (x0 : State) (x1 : Nat) :
    (State.dropTentative x0 x1).seat = x0.seat := by
  unfold State.dropTentative
  simp

@[simp] theorem State.abandonSamples_seat (x0 : State) (x1 : Nat) (x2 : List Written) :
    (State.abandonSamples x0 x1 x2).seat = x0.seat := by
  unfold State.abandonSamples
  grind [State.seat, State.setCl_seat]

@[simp] theorem State.phKeep_seat (x0 : State) (x1 : Nat) (x2 : Nat) (x3 : PhRec) :
    (State.phKeep x0 x1 x2 x3).seat = x0.seat := by
  unfold State.phKeep
  grind [State.seat, State.setCl_seat]

@[simp] theorem State.phPut_seat (x0 : State) (x1 : Nat) (x2 : Nat) (x3 : PhRec) :
    (State.phPut x0 x1 x2 x3).seat = x0.seat := by
  unfold State.phPut
  simp

@[simp] theorem State.phTouch_seat (x0 : State) (x1 : Nat) (x2 : Nat) :
    (State.phTouch x0 x1 x2).seat = x0.seat := by
  unfold State.phTouch
  simp

@[simp] theorem State.noteWait_seat (x0 : State) (x1 : Nat) (x2 : (Nat × Nat) × Word) :
    (State.noteWait x0 x1 x2).seat = x0.seat := by
  unfold State.noteWait
  grind [State.seat, State.setCtx_seat, State.phTouch_seat]

@[simp] theorem State.phswWait_seat (x0 : State) (x1 : Nat) : (State.phswWait x0 x1).1.seat = x0.seat := by
  unfold State.phswWait
  grind [State.seat, State.acquire_seat, State.noteWait_seat, State.setCtx_seat, State.phTouch_seat]

@[simp] theorem State.phswOver_seat (x0 : State) :
    (State.phswOver x0).seat = x0.seat := by
  unfold State.phswOver
  grind [State.seat, State.phswWait_seat]

@[simp] theorem State.gatherRecords_seat (x0 : State) (x1 : List SylFault) :
    (State.gatherRecords x0 x1).1.seat = x0.seat := by
  unfold State.gatherRecords
  grind [State.seat, State.setCtx_seat, State.setCore_seat, State.landAll_seat, State.dropTentative_seat,
    State.abandonSamples_seat, State.phswOver_seat]

theorem State.putRecord_seat (x0 : State) (x1 : Nat) (x2 : Word) (x3 : Written) :
    ∀ t, (State.putRecord x0 x1 x2 x3) = some t → t.seat = x0.seat := by
  unfold State.putRecord
  grind [State.seat, okey, tkey, State.storeAt_seat]

theorem State.putRecords_seat (x0 : State) (x1 : Nat) (x2 : Word) (x3 : List Written) :
    ∀ t, (State.putRecords x0 x1 x2 x3) = some t → t.seat = x0.seat := by
  induction x3 generalizing x0 x2 with
  | nil => simp [State.putRecords]
  | cons w r ih =>
    intro t h
    unfold State.putRecords at h
    split at h
    · contradiction
    · rename_i s1 hs
      rw [ih _ _ _ h, State.putRecord_seat _ _ _ _ _ hs]

@[simp] theorem State.fatal_seat (x0 : State) (x1 : StopReq) (x2 : List Written) :
    (State.fatal x0 x1 x2).seat = x0.seat := by
  unfold State.fatal
  simp

@[simp] theorem State.enterHandler_seat (x0 : State) (x1 : StopReq) (x2 : List Written) :
    (State.enterHandler x0 x1 x2).seat = x0.seat := by
  unfold State.enterHandler
  grind [State.seat, State.setMe_seat]

@[simp] theorem State.owlStop_seat (x0 : State) (x1 : Nat) :
    (State.owlStop x0 x1).seat = x0.seat := by
  unfold State.owlStop
  simp

@[simp] theorem State.takeStop_seat (x0 : State) (x1 : StopReq) (x2 : List Written) :
    (State.takeStop x0 x1 x2).seat = x0.seat := by
  unfold State.takeStop
  grind [State.seat, State.owlStop_seat, State.fatal_seat, State.enterHandler_seat, State.putRecords_seat]

@[simp] theorem State.stop_seat (x0 : State) (x1 : StopReq) (x2 : List SylFault) :
    (State.stop x0 x1 x2).seat = x0.seat := by
  unfold State.stop
  grind [State.seat, State.gatherRecords_seat, State.takeStop_seat]

theorem State.readRecords_seat (x0 : State) (x1 : Nat) (x2 : Nat) (x3 : Word) :
    ∀ t, (State.readRecords x0 x1 x2 x3) = some t → t.1.seat = x0.seat := by
  induction x2 generalizing x0 x3 with
  | zero => simp [State.readRecords]
  | succ n ih =>
    intro t h
    unfold State.readRecords at h
    simp only [] at h
    repeat' split at h
    all_goals grind [State.loadAt_seat]

@[simp] theorem State.phSignal_seat (x0 : State) (x1 : Nat) (x2 : PhReg) :
    (State.phSignal x0 x1 x2).seat = x0.seat := by
  unfold State.phSignal
  simp

@[simp] theorem State.phDrop_seat (x0 : State) (x1 : Nat) (x2 : PhReg) :
    (State.phDrop x0 x1 x2).seat = x0.seat := by
  unfold State.phDrop
  grind [State.seat, State.phPut_seat, State.setCl_seat, State.setCtx_seat]

@[simp] theorem State.phDropAll_seat (x0 : State) (x1 : Nat) :
    (State.phDropAll x0 x1).seat = x0.seat := by
  unfold State.phDropAll
  (repeat' split) <;> simp [foldl_seat]

@[simp] theorem State.phRegister_seat (x0 : State) (x1 : Nat) (x2 : Nat × Nat) :
    (State.phRegister x0 x1 x2).seat = x0.seat := by
  unfold State.phRegister
  grind [State.seat, State.phPut_seat, State.setCl_seat, State.setCtx_seat]

@[simp] theorem State.fOp2_seat (x0 : State) (x1 : Reg) (x2 : Reg) (x3 : Src) (x4 : FTy) (x5 : Ieee → Nat → Nat → Nat ×
  Byte) :
    (State.fOp2 x0 x1 x2 x3 x4 x5).seat = x0.seat := by
  unfold State.fOp2
  simp

@[simp] theorem State.fFun_seat (x0 : State) (x1 : Reg) (x2 : Reg) (x3 : FFun) (x4 : Rm) :
    (State.fFun x0 x1 x2 x3 x4).seat = x0.seat := by
  unfold State.fFun
  simp

@[simp] theorem State.predOp2_seat (x0 : State) (x1 : Reg) (x2 : Reg) (x3 : Reg) (x4 : Byte → Byte → Byte) :
    (State.predOp2 x0 x1 x2 x3 x4).seat = x0.seat := by
  unfold State.predOp2
  simp

@[simp] theorem State.predOp_seat (x0 : State) (x1 : Reg) (x2 : Reg) (x3 : Nat) (x4 : Byte → Byte) :
    (State.predOp x0 x1 x2 x3 x4).seat = x0.seat := by
  unfold State.predOp
  simp

@[simp] theorem State.vOp_seat (x0 : State) (x1 : Nat) (x2 : Wr) (x3 : Byte) :
    (State.vOp x0 x1 x2 x3).seat = x0.seat := by
  unfold State.vOp
  simp

@[simp] theorem State.vMap_seat (x0 : State) (x1 : Reg) (x2 : Reg) (x3 : Src) (x4 : FTy) (x5 : Ieee → Nat → Nat → Nat ×
  Byte) :
    (State.vMap x0 x1 x2 x3 x4 x5).seat = x0.seat := by
  unfold State.vMap
  simp

@[simp] theorem State.vReduce_seat (x0 : State) (x1 : Reg) (x2 : Reg) (x3 : FTy) (x4 : Ieee → Nat → Nat → Nat × Byte) :
    (State.vReduce x0 x1 x2 x3 x4).seat = x0.seat := by
  unfold State.vReduce
  simp

@[simp] theorem State.issueCmd_seat (x0 : State) (x1 : Nat) (x2 : SyncCmd) (x3 : State → Bool) (x4 : State → Word → State)
    (h : ∀ t n, (x4 t n).seat = t.seat) : (State.issueCmd x0 x1 x2 x3 x4).seat = x0.seat := by
  unfold State.issueCmd
  simp only []
  split <;> simp [h]

@[simp] theorem State.refuse_seat (x0 : State) (x1 : Nat) :
    (State.refuse x0 x1).seat = x0.seat := by
  unfold State.refuse
  simp

@[simp] theorem State.runPhreg_seat (x0 : State) (x1 : Nat) (x2 : Word) (x3 : Nat) (x4 : Nat) :
    (State.runPhreg x0 x1 x2 x3 x4).seat = x0.seat := by
  unfold State.runPhreg
  grind [State.seat, State.refuseCmd_seat, State.complete_seat, State.phRegister_seat]

@[simp] theorem State.wordVer_seat (x0 : State) (x1 : Nat) (x2 : Place) (x3 : Bool) :
    (State.wordVer x0 x1 x2 x3).1.seat = x0.seat := by
  unfold State.wordVer
  grind [State.seat, State.homeLoad_seat, State.failed_seat]

@[simp] theorem State.runPhdrop_seat (x0 : State) (x1 : Nat) (x2 : Word) (x3 : Nat) (x4 : Nat) :
    (State.runPhdrop x0 x1 x2 x3 x4).seat = x0.seat := by
  unfold State.runPhdrop
  grind [State.seat, State.phDrop_seat, State.complete_seat]

@[simp] theorem State.runPhsig_seat (x0 : State) (x1 : Nat) (x2 : Word) (x3 : Nat) (x4 : Nat) :
    (State.runPhsig x0 x1 x2 x3 x4).seat = x0.seat := by
  unfold State.runPhsig
  grind [State.seat, State.complete_seat, State.phSignal_seat]

@[simp] theorem State.runPhwait_seat (x0 : State) (x1 : Nat) (x2 : Word) (x3 : Nat) (x4 : Nat) :
    (State.runPhwait x0 x1 x2 x3 x4).seat = x0.seat := by
  unfold State.runPhwait
  simp

@[simp] theorem State.atomBank_seat (x0 : State) (x1 : Nat) (x2 : Nat) (x3 : Nat) (x4 : Nat) (x5 : Bool) (x6 : Word) (x7
  : Word) :
    (State.atomBank x0 x1 x2 x3 x4 x5 x6 x7).1.seat = x0.seat := by
  unfold State.atomBank
  grind [State.seat, State.bankStore_seat]

@[simp] theorem State.atomHome_seat (x0 : State) (x1 : Nat) (x2 : Nat) (x3 : Machine.Acc) (x4 : Nat) (x5 : Bool) (x6 :
  Bool) (x7 : Word) (x8 : Word) :
    (State.atomHome x0 x1 x2 x3 x4 x5 x6 x7 x8).1.seat = x0.seat := by
  unfold State.atomHome
  grind [State.seat, State.homeStore_seat, State.homeLoad_seat, State.setAsync_seat]

@[simp] theorem State.combTake_seat (x0 : State) (x1 : Nat) (x2 : Nat) (x3 : Word) :
    (State.combTake x0 x1 x2 x3).1.seat = x0.seat := by
  unfold State.combTake
  grind [State.seat, State.setCl_seat]

@[simp] theorem State.combFull_seat (x0 : State) (x1 : Nat) (x2 : Nat) :
    (State.combFull x0 x1 x2).seat = x0.seat := by
  unfold State.combFull
  grind [State.seat, State.flushComb_seat]

@[simp] theorem State.atomComb_seat (x0 : State) (x1 : Nat) (x2 : Place) (x3 : Nat) (x4 : Bool) (x5 : Word) :
    (State.atomComb x0 x1 x2 x3 x4 x5).1.seat = x0.seat := by
  unfold State.atomComb
  grind [State.seat, State.combFull_seat, State.flushComb_seat, State.setCl_seat, State.combTake_seat,
    State.homeLoad_seat, State.failed_seat]

@[simp] theorem State.casv_seat (x0 : State) (x1 : Nat) (x2 : MemOp) :
    (State.casv x0 x1 x2).1.seat = x0.seat := by
  unfold State.casv
  grind [State.seat, State.place_seat, State.sendOp_seat, State.homeStore_seat, State.wordVer_seat]

@[simp] theorem State.atomAt_seat (x0 : State) (x1 : Nat) (x2 : MemOp) (x3 : Nat) (x4 : Bool) :
    (State.atomAt x0 x1 x2 x3 x4).1.seat = x0.seat := by
  unfold State.atomAt
  grind [State.seat, State.place_seat, State.sendOp_seat, State.ahead_seat, State.atomBank_seat, State.atomHome_seat,
    State.atomComb_seat]

@[simp] theorem Fill9.before_seat (x0 : Fill9) (x1 : Fill9) :
    (Fill9.before x0 x1).s.seat = x0.s.seat := by
  unfold Fill9.before
  grind [State.seat]

@[simp] theorem State.versionAt_seat (x0 : State) (x1 : Nat) (x2 : Place) :
    (State.versionAt x0 x1 x2).1.seat = x0.seat := by
  unfold State.versionAt
  grind [State.seat, State.versionOf_seat, State.setAsync_seat, State.ahead_seat]

@[simp] theorem State.perform_seat (x0 : State) (x1 : Nat) (x2 : MemOp) :
    (State.perform x0 x1 x2).1.seat = x0.seat := by
  unfold State.perform
  grind [State.seat, State.noteWalk_seat, State.place_seat, State.sendOp_seat, State.before_seat, State.after_seat,
    State.loadAt_seat, State.homeStore_seat, State.storeAt_seat, State.fenceAt_seat, Fill9.before_seat,
    State.wordVer_seat, State.versionAt_seat, State.casv_seat, State.atomAt_seat]

@[simp] theorem State.readControl_seat (x0 : State) (x1 : Nat) (x2 : Nat) (x3 : Nat × Nat) (x4 : Nat) (x5 : Nat) (x6 :
  Machine.Acc) :
    (State.readControl x0 x1 x2 x3 x4 x5 x6).1.seat = x0.seat := by
  unfold State.readControl
  grind [State.seat, State.homeMany_seat]

@[simp] theorem State.dropCopies_seat (x0 : State) (x1 : Nat) (x2 : Nat) :
    (State.dropCopies x0 x1 x2).seat = x0.seat := by
  unfold State.dropCopies
  simp

@[simp] theorem State.runCbsync_seat (x0 : State) (x1 : Nat) (x2 : List (Nat × Nat)) :
    (State.runCbsync x0 x1 x2).seat = x0.seat := by
  unfold State.runCbsync
  (repeat' split) <;> simp [foldl_seat]

@[simp] theorem State.takeTask_seat (x0 : State) (x1 : Nat) :
    (State.takeTask x0 x1).1.seat = x0.seat := by
  unfold State.takeTask
  (repeat' split) <;> simp

@[simp] theorem State.commitTask_seat (x0 : State) (x1 : Nat) :
    (State.commitTask x0 x1).seat = x0.seat := by
  unfold State.commitTask
  (repeat' split) <;> simp [foldl_seat]

@[simp] theorem State.decrement_seat (x0 : State) (x1 : Gang) (x2 : Pool) (x3 : Nat) (x4 : Nat) :
    (State.decrement x0 x1 x2 x3 x4).1.seat = x0.seat := by
  unfold State.decrement
  grind [State.seat, State.homeRead_seat, State.writeTxn_seat]

@[simp] theorem State.makeReady_seat (x0 : State) (x1 : Nat) (x2 : Nat) :
    (State.makeReady x0 x1 x2).seat = x0.seat := by
  unfold State.makeReady
  grind [State.seat, State.setGang_seat]

@[simp] theorem State.decrements_seat (x0 : State) (x1 : Gang) (x2 : Pool) (x3 : Nat) (x4 : Nat) (x5 : List Nat) :
    (State.decrements x0 x1 x2 x3 x4 x5).seat = x0.seat := by
  induction x5 generalizing x0 with
  | nil => rfl
  | cons i r ih =>
    have h := State.decrement_seat x0 x1 x2 x3 i
    unfold State.decrements
    repeat' split
    all_goals simp_all

@[simp] theorem State.successors_seat (x0 : State) (x1 : Gang) (x2 : Pool) (x3 : Nat) (x4 : Nat) :
    (State.successors x0 x1 x2 x3 x4).1.seat = x0.seat := by
  unfold State.successors
  grind [State.seat, State.readControl_seat]

@[simp] theorem State.runTkdone_seat (x0 : State) (x1 : Nat) (x2 : Word) :
    (State.runTkdone x0 x1 x2).seat = x0.seat := by
  unfold State.runTkdone
  simp only []
  (repeat' split) <;> simp

@[simp] theorem State.sendLdf_seat (x0 : State) (x1 : Reg) (x2 : Word) (x3 : Place) (x4 : Bool) :
    (State.sendLdf x0 x1 x2 x3 x4).seat = x0.seat := by
  unfold State.sendLdf
  simp

@[simp] theorem State.setBt_seat (x0 : State) (x1 : BitVec 2) (x2 : Word) :
    (State.setBt x0 x1 x2).seat = x0.seat := by
  unfold State.setBt
  simp

@[simp] theorem State.enter_seat (x0 : State) (x1 : Cmd) :
    (State.enter x0 x1).seat = x0.seat := by
  unfold State.enter
  simp

@[simp] theorem State.arm_seat (x0 : State) (x1 : Xfer) :
    (State.arm x0 x1).seat = x0.seat := by
  unfold State.arm
  grind [State.seat, State.setMe_seat]

@[simp] theorem State.enqueue_seat (x0 : State) (x1 : Cmd) :
    (State.enqueue x0 x1).seat = x0.seat := by
  unfold State.enqueue
  simp

@[simp] theorem State.submit_seat (x0 : State) (x1 : Cmd) (x2 : Bool) (x3 : List (Word × Nat)) (x4 : List (Word × Nat)) :
    (State.submit x0 x1 x2 x3 x4).seat = x0.seat := by
  unfold State.submit
  grind [State.seat, State.enqueue_seat, State.refuse_seat]

@[simp] theorem State.linkOp_seat (x0 : State) (x1 : Word) :
    (State.linkOp x0 x1).seat = x0.seat := by
  unfold State.linkOp
  simp

@[simp] theorem State.calltRead_seat (x0 : State) (x1 : Nat) (x2 : Nat) (x3 : Window) :
    (State.calltRead x0 x1 x2 x3).1.seat = x0.seat := by
  unfold State.calltRead
  simp

@[simp] theorem State.runMfree_seat (x0 : State) (x1 : Cmd) (x2 : Word) :
    (State.runMfree x0 x1 x2).seat = x0.seat := by
  unfold State.runMfree
  grind [State.seat, State.complete_seat, State.enter_seat]

@[simp] theorem State.runMgath_seat (x0 : State) (x1 : Cmd) (x2 : Word) :
    (State.runMgath x0 x1 x2).seat = x0.seat := by
  unfold State.runMgath
  grind [State.seat, State.refuseCmd_seat, State.enter_seat]

@[simp] theorem State.markStarted_seat (x0 : State) (x1 : Nat) (x2 : Nat) :
    (State.markStarted x0 x1 x2).seat = x0.seat := by
  unfold State.markStarted
  simp

@[simp] theorem State.leave_seat (x0 : State) (x1 : Cmd) :
    (State.leave x0 x1).seat = x0.seat := by
  unfold State.leave
  simp

@[simp] theorem State.finishCmd_seat (x0 : State) (x1 : Cmd) (x2 : Byte) :
    (State.finishCmd x0 x1 x2).seat = x0.seat := by
  unfold State.finishCmd
  simp

@[simp] theorem State.recount_seat (x0 : State) (x1 : Nat) :
    (State.recount x0 x1).seat = x0.seat := by
  unfold State.recount
  simp

@[simp] theorem State.giveLease_seat (x0 : State) (x1 : Nat) (x2 : Option Nat) :
    (State.giveLease x0 x1 x2).seat = x0.seat := by
  unfold State.giveLease
  cases x2 <;> simp

@[simp] theorem State.passLease_seat (x0 : State) (x1 : Nat) :
    (State.passLease x0 x1).seat = x0.seat := by
  unfold State.passLease
  grind [State.seat, State.giveLease_seat]

@[simp] theorem State.request_seat (x0 : State) (x1 : Nat) :
    (State.request x0 x1).seat = x0.seat := by
  unfold State.request
  grind [State.seat, State.setCl_seat]

@[simp] theorem State.leaveLease_seat (x0 : State) (x1 : Nat) :
    (State.leaveLease x0 x1).seat = x0.seat := by
  unfold State.leaveLease
  grind [State.seat, State.passLease_seat]

@[simp] theorem State.accept_seat (x0 : State) (x1 : Nat) (x2 : Nat) (x3 : Cmd) :
    (State.accept x0 x1 x2 x3).seat = x0.seat := by
  unfold State.accept
  grind [State.seat, okey, tkey, State.markStarted_seat, State.leaveLease_seat, State.passLease_seat,
    State.finishCmd_seat, State.setCl_seat]

@[simp] theorem State.runLimit_seat (x0 : State) (x1 : Nat) :
    (State.runLimit x0 x1).seat = x0.seat := by
  unfold State.runLimit
  grind [State.seat, State.setCl_seat, State.giveLease_seat]

@[simp] theorem State.joinColl_seat (x0 : State) (x1 : Nat) (x2 : Cmd) :
    (State.joinColl x0 x1 x2).seat = x0.seat := by
  unfold State.joinColl
  simp

@[simp] theorem State.outMem_seat (x0 : State) (x1 : Cmd) (x2 : Mem) :
    (State.outMem x0 x1 x2).seat = x0.seat := by
  unfold State.outMem
  simp

@[simp] theorem State.setAcc_seat (x0 : State) (x1 : Nat) (x2 : Tab Syl) :
    (State.setAcc x0 x1 x2).seat = x0.seat := by
  unfold State.setAcc
  simp

@[simp] theorem State.runMatrix_seat (x0 : State) (x1 : Cmd) :
    (State.runMatrix x0 x1).seat = x0.seat := by
  unfold State.runMatrix
  grind [State.seat, okey, tkey, State.setAcc_seat, State.finishCmd_seat, State.setCtx_seat, State.setCl_seat,
    State.outMem_seat]

@[simp] theorem State.runVec_seat (x0 : State) (x1 : Cmd) (x2 : VOp) :
    (State.runVec x0 x1 x2).seat = x0.seat := by
  unfold State.runVec
  grind [State.seat, State.finishCmd_seat, State.outMem_seat]

@[simp] theorem State.sendInputs_seat (x0 : State) (x1 : Nat) (x2 : List (Nat × Nat)) :
    (State.sendInputs x0 x1 x2).seat = x0.seat := by
  unfold State.sendInputs
  (repeat' split) <;> simp [foldl_seat]

@[simp] theorem State.readElem_seat (x0 : State) (x1 : Cmd) (x2 : Place) (x3 : Nat) (x4 : Nat) :
    (State.readElem x0 x1 x2 x3 x4).1.seat = x0.seat := by
  unfold State.readElem
  grind [State.seat, State.homeMany_seat, State.setAsync_seat]

@[simp] theorem State.noteOutputs_seat (x0 : State) (x1 : Cmd) (x2 : List (Nat × Nat)) :
    (State.noteOutputs x0 x1 x2).seat = x0.seat := by
  unfold State.noteOutputs
  simp

@[simp] theorem State.writeElems_seat (x0 : State) (x1 : Cmd) (x2 : List ElemWrite) (x3 : List (Nat × Nat)) :
    (State.writeElems x0 x1 x2 x3).seat = x0.seat := by
  unfold State.writeElems
  rw [State.noteOutputs_seat, foldl_seat _ (by simp), foldl_seat, foldl_seat]
  · intro t x
    repeat' split
    all_goals simp
  · intro t x
    have k := State.writeTxn_seat t (t.cmdAcc x1 x.2) (sectorCells x2 x.1 x.2.world) false 0 .ctx
    split <;> rename_i e <;> rw [e] at k <;> simp [← k]

@[simp] theorem State.runCopy_seat (x0 : State) (x1 : Cmd) (x2 : Word) :
    (State.runCopy x0 x1 x2).seat = x0.seat := by
  unfold State.runCopy
  simp

@[simp] theorem State.submitCopy_seat (x0 : State) (x1 : Cmd) (x2 : Bool) :
    (State.submitCopy x0 x1 x2).seat = x0.seat := by
  unfold State.submitCopy
  grind [State.seat, State.runCopy_seat, State.refuse_seat, State.issueCmd_seat]

@[simp] theorem State.unboard_seat (x0 : State) (x1 : Cmd) :
    (State.unboard x0 x1).seat = x0.seat := by
  unfold State.unboard
  (repeat' split) <;> simp [foldl_seat]

@[simp] theorem State.copyReads_seat (x0 : State) (x1 : Cmd) (x2 : Nat) (x3 : Nat) :
    (State.copyReads x0 x1 x2 x3).1.seat = x0.seat := by
  induction x2 generalizing x0 x3 with
  | zero => rfl
  | succ n ih =>
    unfold State.copyReads
    simp only []
    repeat' split
    all_goals simp_all

@[simp] theorem State.fillWord_seat (x0 : State) (x1 : Cmd) (x2 : Bool) (x3 : Word) :
    (State.fillWord x0 x1 x2 x3).1.seat = x0.seat := by
  unfold State.fillWord
  simp only []
  (repeat' split) <;> first | (simp; done) | grind [State.seat, State.homeRead_seat, State.readControl_seat]

@[simp] theorem litRun_seat (x0 : Cmd) (x1 : Nat) (x2 : Word) (x3 : Nat) (x4 : Fill9) :
    (litRun x0 x1 x2 x3 x4).s.seat = x4.s.seat := by
  induction x1 generalizing x2 x3 x4 with
  | zero => unfold litRun; split <;> rfl
  | succ n ih =>
    have h := State.fillWord_seat x4.s x0 false x2
    unfold litRun
    simp only []
    repeat' split
    all_goals simp_all

@[simp] theorem State.fillWords_seat (x0 : State) (x1 : Cmd) (x2 : Bool) (x3 : Nat) (x4 : Word) :
    (State.fillWords x0 x1 x2 x3 x4).1.seat = x0.seat := by
  induction x3 generalizing x0 x4 with
  | zero => rfl
  | succ n ih =>
    unfold State.fillWords
    repeat' split
    all_goals grind [State.fillWord_seat]

@[simp] theorem State.findTemplate_seat (x0 : State) (x1 : Cmd) (x2 : Nat) (x3 : Word) :
    (State.findTemplate x0 x1 x2 x3).1.seat = x0.seat := by
  induction x2 generalizing x0 x3 with
  | zero =>
    unfold State.findTemplate
    repeat' split
    all_goals grind [State.fillWord_seat]
  | succ n ih =>
    unfold State.findTemplate
    simp only []
    repeat' split
    all_goals grind [State.fillWord_seat]

@[simp] theorem useTemplate_seat (x0 : Cmd) (x1 : Nat) (x2 : Word) (x3 : Fill9) :
    (useTemplate x0 x1 x2 x3).1.s.seat = x3.s.seat := by
  unfold useTemplate
  grind [State.seat, State.findTemplate_seat, State.fillWords_seat]

@[simp] theorem runUnits_seat (x0 : Cmd) (x1 : Nat) (x2 : Word) (x3 : Fill9) :
    (runUnits x0 x1 x2 x3).s.seat = x3.s.seat := by
  fun_induction runUnits x0 x1 x2 x3 <;> first
    | (simp_all [Prod.ext_iff]; done)
    | (simp_all [Fill9.before_seat, litRun_seat]; done)
    | grind [State.seat, Fill9.before_seat, litRun_seat, State.fillWord_seat, useTemplate_seat]

@[simp] theorem State.runBmsg_seat (x0 : State) (x1 : Cmd) (x2 : Word) :
    (State.runBmsg x0 x1 x2).seat = x0.seat := by
  unfold State.runBmsg
  grind [State.seat, State.refuseCmd_seat, State.sendFirst_seat, State.setSlice_seat]

@[simp] theorem State.groupBytes_seat (x0 : State) (x1 : Cmd) (x2 : Nat) (x3 : Nat) (x4 : Nat) :
    (State.groupBytes x0 x1 x2 x3 x4).1.seat = x0.seat := by
  unfold State.groupBytes
  grind [State.seat, State.setAsync_seat, State.readControl_seat]

@[simp] theorem State.readGroup_seat (x0 : State) (x1 : Cmd) :
    (State.readGroup x0 x1).1.seat = x0.seat := by
  unfold State.readGroup
  grind [State.seat, State.groupBytes_seat]

@[simp] theorem State.grouped_seat (x0 : State) (x1 : Cmd) :
    (State.grouped x0 x1).1.seat = x0.seat := by
  unfold State.grouped
  grind [State.seat, State.readGroup_seat]

@[simp] theorem State.runColl_seat (x0 : State) (x1 : Cmd) (x2 : Word) :
    (State.runColl x0 x1 x2).seat = x0.seat := by
  unfold State.runColl
  grind [State.seat, State.refuseCmd_seat, State.enter_seat, State.sendInputs_seat, State.grouped_seat]

@[simp] theorem State.tileMem_seat (x0 : State) (x1 : Cmd) (x2 : Word × Nat) :
    (State.tileMem x0 x1 x2).1.seat = x0.seat := by
  unfold State.tileMem
  grind [State.seat, State.readElem_seat]

@[simp] theorem State.collPart_seat (x0 : State) (x1 : CollWait) :
    (State.collPart x0 x1).1.seat = x0.seat := by
  unfold State.collPart
  grind [State.seat, State.tileMem_seat]

@[simp] theorem State.collParts_seat (x0 : State) (x1 : List CollWait) :
    (State.collParts x0 x1).1.seat = x0.seat := by
  induction x1 generalizing x0 with
  | nil => rfl
  | cons i r ih =>
    unfold State.collParts
    simp only []
    repeat' split
    all_goals simp_all

@[simp] theorem State.collPut_seat (x0 : State) (x1 : Cmd) (x2 : List Nat) :
    (State.collPut x0 x1 x2).seat = x0.seat := by
  unfold State.collPut
  grind [State.seat, State.writeElems_seat, State.outMem_seat, State.readElem_seat]

@[simp] theorem State.endColl_seat (x0 : State) (x1 : Cmd) (x2 : Nat) (x3 : Byte) :
    (State.endColl x0 x1 x2 x3).seat = x0.seat := by
  unfold State.endColl
  simp

@[simp] theorem State.collGive_seat (x0 : State) (x1 : List CollPart) (x2 : CollWait) :
    (State.collGive x0 x1 x2).seat = x0.seat := by
  unfold State.collGive
  grind [State.seat, State.endColl_seat, State.collPut_seat]

@[simp] theorem State.collLose_seat (x0 : State) (x1 : CollWait) :
    (State.collLose x0 x1).seat = x0.seat := by
  unfold State.collLose
  grind [State.seat, State.endColl_seat, State.collPut_seat]

@[simp] theorem State.endSched_seat (x0 : State) (x1 : Nat) :
    (State.endSched x0 x1).seat = x0.seat := by
  unfold State.endSched
  grind [State.seat, State.flushCombs_seat, State.taskFail_seat, State.phDropAll_seat, State.setCtx_seat,
    State.leaveLease_seat]

@[simp] theorem State.drained_seat (x0 : State) (x1 : Nat) :
    (State.drained x0 x1).seat = x0.seat := by
  unfold State.drained
  simp

@[simp] theorem State.endNow_seat (x0 : State) (x1 : Nat) :
    (State.endNow x0 x1).seat = x0.seat := by
  unfold State.endNow
  grind [State.seat, State.endSched_seat, State.setCtx_seat, State.drained_seat]

@[simp] theorem State.runSubmit_seat (x0 : State) (x1 : Cmd) (x2 : Word) :
    (State.runSubmit x0 x1 x2).seat = x0.seat := by
  unfold State.runSubmit
  grind [State.seat, State.runMgath_seat, State.runMfree_seat, State.runCopy_seat, State.runColl_seat, State.enter_seat]

@[simp] theorem State.dropOutputs_seat (x0 : State) (x1 : Nat) (x2 : Nat) (x3 : Word) :
    (State.dropOutputs x0 x1 x2 x3).seat = x0.seat := by
  unfold State.dropOutputs
  (repeat' split) <;> simp [foldl_seat]

@[simp] theorem State.runTlwait_seat (x0 : State) (x1 : Nat) (x2 : Nat) (x3 : Word) :
    (State.runTlwait x0 x1 x2 x3).seat = x0.seat := by
  unfold State.runTlwait
  grind [State.seat, State.acquire_seat, State.dropOutputs_seat]

@[simp] theorem State.runSync_seat (x0 : State) (x1 : Nat) (x2 : Nat) (x3 : Word) (x4 : SyncCmd) :
    (State.runSync x0 x1 x2 x3 x4).1.seat = x0.seat := by
  unfold State.runSync
  grind [State.seat, State.release_seat, State.complete_seat, State.runPhreg_seat, State.runPhdrop_seat,
    State.runPhsig_seat, State.runPhwait_seat, State.runTlwait_seat, State.runCbsync_seat, State.takeTask_seat,
    State.runTkdone_seat, State.submit_seat, State.runBmsg_seat, State.runSubmit_seat]

@[simp] theorem State.performHeld_seat (x0 : State) (x1 : Nat) (x2 : MemOp) :
    (State.performHeld x0 x1 x2).1.seat = x0.seat := by
  unfold State.performHeld
  grind [State.seat, State.runSync_seat, State.perform_seat, State.calltRead_seat, State.setCtx_seat]

@[simp] theorem State.bindsFor_seat (x0 : State) (x1 : Nat) (x2 : List (Option Bind)) :
    (State.bindsFor x0 x1 x2).seat = x0.seat := by
  unfold State.bindsFor
  grind [State.seat, State.setCtx_seat]

@[simp] theorem State.retryMem_seat (x0 : State) (x1 : Nat) (x2 : Nat) :
    (State.retryMem x0 x1 x2).seat = x0.seat := by
  unfold State.retryMem
  grind [State.seat, State.setCtx_seat, State.landOne_seat, State.performHeld_seat, State.bindsFor_seat]

@[simp] theorem State.retryCtx_seat (x0 : State) (x1 : Nat) :
    (State.retryCtx x0 x1).seat = x0.seat := by
  unfold State.retryCtx
  simp only []
  (repeat' split) <;> first
    | (simp [foldl_seat, State.retryMem_seat, State.endNow_seat]; done)
    | (rw [foldl_seat] <;> simp; done)
    | (rw [foldl_seat1] <;> simp; done)
    | grind [State.seat, State.retryMem_seat, State.endNow_seat]

@[simp] theorem State.retry_seat (x0 : State) :
    (State.retry x0).seat = x0.seat := by
  unfold State.retry
  (repeat' split) <;> simp [foldl_seat]

@[simp] theorem State.setHandler_seat (x0 : State) (x1 : Nat) (x2 : Handler) :
    (State.setHandler x0 x1 x2).seat = x0.seat := by
  unfold State.setHandler
  simp

@[simp] theorem State.badgerStep_seat (x0 : State) (x1 : Nat) :
    (State.badgerStep x0 x1).seat = x0.seat := by
  unfold State.badgerStep
  grind [State.seat, State.setSlice_seat, State.setHandler_seat]

@[simp] theorem State.badgerSteps_seat (x0 : State) :
    (State.badgerSteps x0).seat = x0.seat := by
  unfold State.badgerSteps
  (repeat' split) <;> simp [foldl_seat]

@[simp] theorem State.unsupported_seat (x0 : State) (x1 : Option Nat) (x2 : Nat) (x3 : Nat) :
    (State.unsupported x0 x1 x2 x3).seat = x0.seat := by
  unfold State.unsupported
  simp

@[simp] theorem State.capWrite_seat (x0 : State) (x1 : Option Nat) (x2 : Nat) (x3 : Word) :
    (State.capWrite x0 x1 x2 x3).seat = x0.seat := by
  unfold State.capWrite
  simp

end Sys2Proof.Machine
end

