-- ==== Sys2Proof/Tests/Slice0.lean ====
section
/-! SUPPORT. Tests: ill-formed terms that WellFormed refuses, words of the manual's encodings, a state that meets the
hypotheses of each statement of Certificates/Slice0/Obligations.lean (named test_meets_<statement>), and single steps whose
results the manual works out. -/

open Sys2Proof Sys2Proof.Machine Sys2Proof.Claims

namespace Sys2Proof.Tests

/- One proof is checked after another: each of these waits for the kernel. -/
set_option Elab.async false

/-! ### WellFormed refuses: each check in one ill-formed term -/

theorem test_wf_regs : ([.ptr 0 32, .br 0 false false 48, .callt 32 0, .add 32 0 .bimm .i8, .add 0 32 .bimm .i8, .add 0 0 (.reg 32) .i8,
  .sub 32 0 .bimm .i8, .sub 0 32 .bimm .i8, .sub 0 0 (.reg 32) .i8, .mul 32 0 .bimm .i8, .mul 0 32 .bimm .i8, .mul 0 0 (.reg 32) .i8,
  .mulh 32 0 .bimm .i8, .mulh 0 32 .bimm .i8, .mulh 0 0 (.reg 32) .i8, .div 32 0 .bimm .i8, .div 0 32 .bimm .i8, .div 0 0 (.reg 32) .i8,
  .rem 32 0 .bimm .i8, .rem 0 32 .bimm .i8, .rem 0 0 (.reg 32) .i8, .and 32 0 .bimm .i8, .and 0 32 .bimm .i8, .and 0 0 (.reg 32) .i8,
  .or 32 0 .bimm .i8, .or 0 32 .bimm .i8, .or 0 0 (.reg 32) .i8, .xor 32 0 .bimm .i8, .xor 0 32 .bimm .i8, .xor 0 0 (.reg 32) .i8,
  .andn 32 0 .bimm .i8, .andn 0 32 .bimm .i8, .andn 0 0 (.reg 32) .i8, .shl 32 0 .bimm .i8, .shl 0 32 .bimm .i8, .shl 0 0 (.reg 32) .i8,
  .shr 32 0 .bimm .i8, .shr 0 32 .bimm .i8, .shr 0 0 (.reg 32) .i8, .sar 32 0 .bimm .i8, .sar 0 32 .bimm .i8, .sar 0 0 (.reg 32) .i8,
  .min 32 0 .bimm .i8, .min 0 32 .bimm .i8, .min 0 0 (.reg 32) .i8, .max 32 0 .bimm .i8, .max 0 32 .bimm .i8, .max 0 0 (.reg 32) .i8,
  .sel 32 0 .bimm 0, .sel 0 32 .bimm 0, .sel 0 0 (.reg 32) 0, .sel 0 0 .bimm 48, .clz 32 0 .i8, .clz 0 32 .i8,
  .popc 32 0 .i8, .popc 0 32 .i8, .ext 32 0 0 0, .ext 0 32 0 0, .ins 32 0 0 0, .ins 0 32 0 0] : List Instr).all (fun i => !i.regsOk && !i.wf) = true := by decide +kernel

theorem test_wf_regs2 : ([.mov 32 .bimm .i8, .mov 0 (.reg 32) .i8, .movh 32 0 0, .movh 0 32 0, .lea 32 0 .bimm .dev 0, .lea 0 32 .bimm .dev 0,
  .lea 0 0 (.reg 32) .dev 0, .cmp 48 0 .bimm .i8 .eq, .cmp 0 32 .bimm .i8 .eq, .cmp 0 0 (.reg 32) .i8 .eq, .pand 48 0 0, .pand 0 48 0,
  .pand 0 0 48, .por 48 0 0, .por 0 48 0, .por 0 0 48, .pxor 48 0 0, .pxor 0 48 0,
  .pxor 0 0 48, .pnot 48 0, .pnot 0 48, .pmov 48 0, .pmov 0 48, .pany 48 0,
  .pany 0 48, .pall 48 0, .pall 0 48, .ppack 32 0, .ppack 0 48, .addRi 32 0 0,
  .addRi 0 32 0, .andRi 32 0 0, .andRi 0 32 0, .orRi 32 0 0, .orRi 0 32 0, .xorRi 32 0 0,
  .xorRi 0 32 0, .shlRi 32 0 0, .shlRi 0 32 0, .shrRi 32 0 0, .shrRi 0 32 0, .sarRi 32 0 0,
  .sarRi 0 32 0, .punpk 48 0, .punpk 0 32, .mfc 32 .epc, .mtc 32 .epc, .icvt 32 0 .i8 .i8,
  .icvt 0 32 .i8 .i8, .winset 8 0 .bimm false, .winset 0 32 .bimm false, .winset 0 0 (.reg 32) false, .ldI8 32 0 0 .unp, .ldI8 0 32 0 .unp,
  .ldI16 32 0 0 .unp, .ldI16 0 32 0 .unp, .ldI32 32 0 0 .unp, .ldI32 0 32 0 .unp, .ldI64 32 0 0 .unp, .ldI64 0 32 0 .unp] : List Instr).all (fun i => !i.regsOk && !i.wf) = true := by decide +kernel

theorem test_wf_regs3 : ([.ldN8 32 0 0 .unp, .ldN8 0 32 0 .unp, .ldN16 32 0 0 .unp, .ldN16 0 32 0 .unp, .ldN32 32 0 0 .unp, .ldN32 0 32 0 .unp,
  .ldvec 32 0 0 .unp, .ldvec 0 32 0 .unp, .ldv 32 0 0 .unp, .ldv 0 32 0 .unp, .ldf 32 0 0, .ldf 0 32 0,
  .vget 32 0 0, .vget 0 32 0, .probe 32 0 0, .probe 0 32 0, .pft 0 32 0, .mwait 32 0 0,
  .mwait 0 32 0, .st8 32 0 0 .unp, .st8 0 32 0 .unp, .st16 32 0 0 .unp, .st16 0 32 0 .unp, .st32 32 0 0 .unp,
  .st32 0 32 0 .unp, .st64 32 0 0 .unp, .st64 0 32 0 .unp, .stvec 32 0 0 .unp, .stvec 0 32 0 .unp, .stf 32 0 0,
  .stf 0 32 0, .casv 32 0 0 .unp, .casv 1 0 0 .unp, .casv 0 32 0 .unp, .rel 32 0 0, .rel 0 32 0,
  .atomAdd 32 0 0 .unp, .atomAdd 1 0 0 .spc, .atomAdd 0 32 0 .unp, .atomMin 32 0 0 .unp, .atomMin 1 0 0 .spc, .atomMin 0 32 0 .unp,
  .atomMax 32 0 0 .unp, .atomMax 1 0 0 .spc, .atomMax 0 32 0 .unp, .atomAnd 32 0 0 .unp, .atomAnd 1 0 0 .spc, .atomAnd 0 32 0 .unp,
  .atomOr 32 0 0 .unp, .atomOr 1 0 0 .spc, .atomOr 0 32 0 .unp, .atomXor 32 0 0 .unp, .atomXor 1 0 0 .spc, .atomXor 0 32 0 .unp,
  .atomXchg 32 0 0 .unp, .atomXchg 1 0 0 .spc, .atomXchg 0 32 0 .unp, .atomCas 32 0 0 .unp, .atomCas 1 0 0 .unp, .atomCas 0 32 0 .unp] : List Instr).all (fun i => !i.regsOk && !i.wf) = true := by decide +kernel

theorem test_wf_regs4 : ([.atomAddI32 32 0 0 .unp, .atomAddI32 1 0 0 .spc, .atomAddI32 0 32 0 .unp, .atomMinI32 32 0 0 .unp, .atomMinI32 1 0 0 .spc, .atomMinI32 0 32 0 .unp,
  .atomMaxI32 32 0 0 .unp, .atomMaxI32 1 0 0 .spc, .atomMaxI32 0 32 0 .unp, .atomAndI32 32 0 0 .unp, .atomAndI32 1 0 0 .spc, .atomAndI32 0 32 0 .unp,
  .atomOrI32 32 0 0 .unp, .atomOrI32 1 0 0 .spc, .atomOrI32 0 32 0 .unp, .atomXorI32 32 0 0 .unp, .atomXorI32 1 0 0 .spc, .atomXorI32 0 32 0 .unp,
  .atomXchgI32 32 0 0 .unp, .atomXchgI32 1 0 0 .spc, .atomXchgI32 0 32 0 .unp, .atomCasI32 32 0 0 .unp, .atomCasI32 1 0 0 .unp, .atomCasI32 0 32 0 .unp,
  .valset 48, .fadd 32 0 .bimm .bf16 .rne, .fadd 0 32 .bimm .bf16 .rne, .fadd 0 0 (.reg 32) .bf16 .rne, .fsub 32 0 .bimm .bf16 .rne, .fsub 0 32 .bimm .bf16 .rne,
  .fsub 0 0 (.reg 32) .bf16 .rne, .fmul 32 0 .bimm .bf16 .rne, .fmul 0 32 .bimm .bf16 .rne, .fmul 0 0 (.reg 32) .bf16 .rne, .ffma 32 0 .bimm .bf16 .rne, .ffma 0 32 .bimm .bf16 .rne,
  .ffma 0 0 (.reg 32) .bf16 .rne, .fmin 32 0 .bimm .bf16, .fmin 0 32 .bimm .bf16, .fmin 0 0 (.reg 32) .bf16, .fmax 32 0 .bimm .bf16, .fmax 0 32 .bimm .bf16,
  .fmax 0 0 (.reg 32) .bf16, .fsgn 32 0 .bimm .bf16 .copy, .fsgn 0 32 .bimm .bf16 .copy, .fsgn 0 0 (.reg 32) .bf16 .copy, .fcmp 48 0 .bimm .bf16 .eq, .fcmp 0 32 .bimm .bf16 .eq,
  .fcmp 0 0 (.reg 32) .bf16 .eq, .frcp 32 0 .rne, .frcp 0 32 .rne, .frsq 32 0 .rne, .frsq 0 32 .rne, .fexp2 32 0 .rne,
  .fexp2 0 32 .rne, .flog2 32 0 .rne, .flog2 0 32 .rne, .fcvt 32 0 false .bf16 .bf16 .rne, .fcvt 0 32 false .bf16 .bf16 .rne, .fcvti 32 0 .i8 .bf16 .rne] : List Instr).all (fun i => !i.regsOk && !i.wf) = true := by decide +kernel

theorem test_wf_regs5 : ([.fcvti 0 32 .i8 .bf16 .rne, .icvtf 32 0 .i8 .bf16 .rne, .icvtf 0 32 .i8 .bf16 .rne, .vadd 32 0 .bimm .bf16 .rne, .vadd 0 32 .bimm .bf16 .rne, .vadd 0 0 (.reg 32) .bf16 .rne,
  .vmul 32 0 .bimm .bf16 .rne, .vmul 0 32 .bimm .bf16 .rne, .vmul 0 0 (.reg 32) .bf16 .rne, .vand 32 0 .bimm, .vand 0 32 .bimm, .vand 0 0 (.reg 32),
  .vor 32 0 .bimm, .vor 0 32 .bimm, .vor 0 0 (.reg 32), .vshf 32 0 .bimm, .vshf 0 32 .bimm, .vshf 0 0 (.reg 32),
  .vbcast 32 0, .vbcast 0 32, .vredadd 32 0 .bf16 .rne, .vredadd 0 32 .bf16 .rne, .vredmax 32 0 .bf16, .vredmax 0 32 .bf16,
  .vsel 32 0 .bimm 0, .vsel 0 32 .bimm 0, .vsel 0 0 (.reg 32) 0, .vsel 0 0 .bimm 48, .vpack 32 0 .bimm .bf16 .rne, .vpack 0 32 .bimm .bf16 .rne,
  .vpack 0 0 (.reg 32) .bf16 .rne, .vunpk 32 0 .bf16 0, .vunpk 0 32 .bf16 0, .vlane 32 0 .bimm, .vlane 0 32 .bimm, .vlane 0 0 (.reg 32),
  .vins 32 0 .bimm, .vins 0 32 .bimm, .vins 0 0 (.reg 32), .vfma 32 0 .bimm .bf16 .rne, .vfma 0 32 .bimm .bf16 .rne, .vfma 0 0 (.reg 32) .bf16 .rne,
  .erw 0 32 .bimm 0, .erw 0 0 (.reg 32) 0, .erd 0 32 0, .tlwait 0 32 .bimm, .tlwait 0 0 (.reg 32), .tlread 0 32,
  .phreg 32, .phdrop 32, .phsig 32, .phwait 32 .bimm, .phwait 0 (.reg 32), .phsw 32,
  .bind 32 .bimm, .bind 1 .bimm, .bind 0 (.reg 32), .unbind 32 .bimm, .unbind 1 .bimm, .unbind 0 (.reg 32)] : List Instr).all (fun i => !i.regsOk && !i.wf) = true := by decide +kernel

theorem test_wf_regs6 : ([.tkget 32, .fwait 32, .cbsync 32 .bimm, .cbsync 0 (.reg 32), .qld 0 32 0, .qmov 0 32,
  .fmtset 8 0, .fmtset 0 32] : List Instr).all (fun i => !i.regsOk && !i.wf) = true := by decide +kernel

theorem test_wf_vals : ([.bundleIssue 256, .fatalStop 1024, .resultLand 1024 0, .branchResolve 1024, .armStallTimeout 1024, .commitBufferRelease 256,
  .leaseGrant 64, .leaseRunLimit 64, .leaseIdlePass 64, .tdtDispatch 256 0, .engineCommandComplete 64 false, .copyStart 256 0,
  .copyComplete 256 0, .ifillComplete 256, .sliceLineFill 96 0, .writeTransaction 256 0, .mwaitTimeout 1024, .mwaitSpuriousWake 1024,
  .ldfPerform 1024 0, .futureAnswer 1024 0, .fwaitBackoffExpire 1024, .qntFlushFull 64 0, .qntFlushTimeout 64 0, .badgerMsgArrive 96,
  .badgerHandlerStart 96, .badgerPfetch 96 0, .badgerRdata 96 0, .badgerWdata 96 0 0, .badgerDone 96 none, .badgerBudgetExpire 96,
  .badgerAbort 96, .hbmRefresh 8 0, .hbmForcedRefresh 8 0 0, .qtailDoorbell 64 0, .queueEntryRead 2, .launch 64,
  .wait 64, .waitRetire 64, .signal 64, .copy 64, .copyCommandComplete 64, .mark 64,
  .contextDrain 1024, .functionLevelReset 16, .cntSample 64 0, .sampleBreakdown 64 0 0 [], .flitReceive 16 [], .linkRetrain 16,
  .linkRetrainDone 16 false, .uncorrectableHardwareError 256, .nop false false 48 0 0, .nop false true 0 0 0, .loop 0 0, .loop 0 7,
  .ppack 0 1, .punpk 1 0, .ldI8 0 0 0 .com, .ldI16 0 0 0 .com, .ldI32 0 0 0 .com, .ldI64 0 0 0 .com] : List Instr).all (fun i => !i.valsOk && !i.wf) = true := by decide +kernel

theorem test_wf_vals2 : ([.ldN8 0 0 0 .com, .ldN16 0 0 0 .com, .ldN32 0 0 0 .com, .ldvec 0 0 0 .com, .ldv 0 0 0 .com, .pft 2 0 0,
  .st8 0 0 0 .com, .st16 0 0 0 .com, .st32 0 0 0 .com, .st64 0 0 0 .com, .stvec 0 0 0 .com, .casv 0 0 0 .com,
  .atomCas 0 0 0 .spc, .atomCasI32 0 0 0 .spc, .fadd 0 0 .bimm .int8 .rne, .fsub 0 0 .bimm .int8 .rne, .fmul 0 0 .bimm .int8 .rne, .ffma 0 0 .bimm .int8 .rne,
  .fmin 0 0 .bimm .int8, .fmax 0 0 .bimm .int8, .fsgn 0 0 .bimm .int8 .copy, .fcmp 0 0 .bimm .int8 .eq, .fcvt 0 0 false .int8 .bf16 .rne, .fcvt 0 0 false .bf16 .int8 .rne,
  .fcvt 0 0 true .bf16 .bf16 .rtz, .fcvti 0 0 .i8 .int8 .rne, .icvtf 0 0 .i8 .int8 .rne, .vadd 0 0 .bimm .fp64 .rne, .vmul 0 0 .bimm .fp64 .rne, .vredadd 0 0 .fp64 .rne,
  .vredmax 0 0 .fp64, .vpack 0 0 .bimm .fp32 .rne, .vunpk 0 0 .fp32 0, .vunpk 0 0 .bf16 2, .vfma 0 0 .bimm .fp64 .rne, .erw 10 0 .bimm 0,
  .erw 0 0 .bimm 63, .erd 10 0 0, .mma .bf16 .fp16, .mmas .bf16 .fp16, .coll .fp16 .asum, .tlwait 10 0 .bimm,
  .tlread 10 0] : List Instr).all (fun i => !i.valsOk && !i.wf) = true := by decide +kernel

/-! ### Words of the encodings -/

/-- Words written out from R41 to R55 (control slots). -/
theorem test_decode_control : ([
  (0x008597FF, .nop true false 5 9 0x7FF),
  (0x01811000, .ptr 2 17),
  (0x02E2F000, .br 3 true false 47),
  (0x02506000, .br 1 false true 6),
  (0x03400000, .call 1),
  (0x04013ABC, .callt 19 0xABC),
  (0x05000000, .ret),
  (0x069C0000, .loop 9 6),
  (0x07C00000, .bswap 3),
  (0x08000000, .ifence),
  (0x09000123, .trap 0x123),
  (0x0A000000, .resume),
  (0x0B000000, .yield),
  (0x0C000000, .exit)] : List (Nat × Instr)).all (fun p => decodeTableWord 32 p.1 = some p.2) = true := by decide +kernel

/-- Words written out from R41 to R55 (integer slots). -/
theorem test_decode_integer : ([
  (0x10416078, .add 16 22 (.reg 1) .n64),
  (0x113C3288, .sub 15 3 (.reg 10) .i16),
  (0x125DEF98, .mul 23 30 .bimm .i64),
  (0x136063C0, .mulh 24 6 (.reg 15) .i8),
  (0x1435A450, .div 13 26 (.reg 17) .i32),
  (0x1560AF88, .rem 24 10 .bimm .i16),
  (0x1621C210, .and 8 28 (.reg 8) .i32),
  (0x17000358, .or 0 0 (.reg 13) .i64),
  (0x1828AFA0, .xor 10 10 .bimm .n8),
  (0x1950C350, .andn 20 12 (.reg 13) .i32),
  (0x1A3184C0, .shl 12 24 (.reg 19) .i8),
  (0x1B5DAF90, .shr 23 26 .bimm .i32),
  (0x1C250128, .sar 9 16 (.reg 4) .n16),
  (0x1D4C0548, .min 19 0 (.reg 21) .i16),
  (0x1E4D6FA0, .max 19 22 .bimm .n8),
  (0x1F7942DE, .sel 30 20 (.reg 11) 30),
  (0x2078B000, .clz 30 11 .i8),
  (0x21401028, .popc 16 1 .n16),
  (0x22641D6E, .ext 25 1 53 46),
  (0x23600E45, .ins 24 0 57 5),
  (0x242C0308, .mov 11 (.reg 12) .i16),
  (0x253DDFED, .movh 15 29 0xFED),
  (0x26596412, .lea 22 22 (.reg 16) .rmt 2),
  (0x27746FBD, .cmp 29 6 .bimm .n64 .ge)] : List (Nat × Instr)).all (fun p => decodeTableWord 32 p.1 = some p.2) = true := by decide +kernel

/-- Words written out from R41 to R55 (integer slots). -/
theorem test_decode_integer2 : ([
  (0x2896F5C0, .pand 37 47 23),
  (0x294826C0, .por 18 2 27),
  (0x2A14D540, .pxor 5 13 21),
  (0x2B827000, .pnot 32 39),
  (0x2C5C9000, .pmov 23 9),
  (0x2D551000, .pany 21 17),
  (0x2EB22000, .pall 44 34),
  (0x2F1E8000, .ppack 7 40),
  (0x30153A23, .addRi 5 19 2595),
  (0x314CB280, .andRi 19 11 640),
  (0x32253F7B, .orRi 9 19 3963),
  (0x33283297, .xorRi 10 3 663),
  (0x3464201E, .shlRi 25 2 30),
  (0x3559003A, .shrRi 22 16 58),
  (0x36689007, .sarRi 26 9 7),
  (0x38609000, .punpk 24 9),
  (0x397C0006, .mfc 31 .rqn),
  (0x3A005009, .mtc 5 .safeord),
  (0x3B105016, .icvt 4 5 .i32 .n32),
  (0x3C1C3F81, .winset 7 3 .bimm true)] : List (Nat × Instr)).all (fun p => decodeTableWord 32 p.1 = some p.2) = true := by decide +kernel

/-- Words written out from R41 to R55 (memory slots). -/
theorem test_decode_memory : ([
  (0x5009FAB0, .ldI8 2 31 171 .unp),
  (0x5134843A, .ldI16 13 8 67 .acq),
  (0x52686560, .ldI32 26 6 86 .unp),
  (0x536D74CA, .ldI64 27 23 76 .acq),
  (0x540DA960, .ldN8 3 26 150 .unp),
  (0x5525D56A, .ldN16 9 29 86 .acq),
  (0x5675FA20, .ldN32 29 31 162 .unp),
  (0x5779195A, .ldvec 30 17 149 .acq),
  (0x587994B0, .ldv 30 25 75 .unp),
  (0x591D85B0, .ldf 7 24 91),
  (0x5A7D55C0, .vget 31 21 92),
  (0x5B15F8B0, .probe 5 31 139),
  (0x5C044200, .pft 1 4 32),
  (0x5D1C4000, .mwait 7 4 0),
  (0x605C4B60, .st8 23 4 182 .unp),
  (0x61093BAC, .st16 2 19 186 .rel),
  (0x6245F870, .st32 17 31 135 .unp),
  (0x634955BC, .st64 18 21 91 .rel),
  (0x6401E800, .stvec 0 30 128 .unp),
  (0x65184000, .stf 6 4 0),
  (0x6628400A, .casv 10 4 0 .acq),
  (0x67009000, .rel 0 9 0),
  (0x68511ED2, .atomAdd 20 17 237 .com),
  (0x69496B24, .atomMin 18 22 178 .nor)] : List (Nat × Instr)).all (fun p => decodeTableWord 32 p.1 = some p.2) = true := by decide +kernel

/-- Words written out from R41 to R55 (memory slots). -/
theorem test_decode_memory2 : ([
  (0x6A416D16, .atomMax 16 22 209 .qnt),
  (0x6B58BE68, .atomAnd 22 11 230 .spc),
  (0x6C59548A, .atomOr 22 21 72 .acq),
  (0x6D28CB9C, .atomXor 10 12 185 .rel),
  (0x6E79228E, .atomXchg 30 18 40 .ar),
  (0x6F68AD70, .atomCas 26 10 215 .unp),
  (0x704910E2, .atomAddI32 18 17 14 .com),
  (0x7130AE14, .atomMinI32 12 10 225 .nor),
  (0x7228E5C6, .atomMaxI32 10 14 92 .qnt),
  (0x7309E738, .atomAndI32 2 30 115 .spc),
  (0x7428344A, .atomOrI32 10 3 68 .acq),
  (0x751945CC, .atomXorI32 6 20 92 .rel),
  (0x7678C12E, .atomXchgI32 30 12 18 .ar),
  (0x7769DB30, .atomCasI32 26 29 179 .unp),
  (0x68209002, .atomAdd 8 9 0 .com),
  (0x68289008, .atomAdd 10 9 0 .spc),
  (0x78000000, .fence .ctx),
  (0x78000001, .fence .core),
  (0x78000002, .fence .clu),
  (0x78000003, .fence .dev),
  (0x78000004, .fence .pod),
  (0x79180000, .valset 6),
  (0x7A000000, .vclr)] : List (Nat × Instr)).all (fun p => decodeTableWord 32 p.1 = some p.2) = true := by decide +kernel

/-- Words written out from R41 to R55 (float slots). -/
theorem test_decode_float : ([
  (0x80604360, .fadd 24 4 (.reg 13) .bf16 .rne),
  (0x813D7025, .fsub 15 23 (.reg 0) .fp16 .rtz),
  (0x82599FAA, .fmul 22 25 .bimm .fp32 .rup),
  (0x8345A1EF, .ffma 17 26 (.reg 7) .fp64 .rdn),
  (0x845C24E0, .fmin 23 2 (.reg 19) .bf16),
  (0x85495FA8, .fmax 18 21 .bimm .fp32),
  (0x865886AE, .fsgn 22 8 (.reg 26) .fp64 .xor),
  (0x871461E9, .fcmp 5 6 (.reg 7) .fp32 .lt),
  (0x88697028, .frcp 26 23 .rne),
  (0x89749029, .frsq 29 9 .rtz),
  (0x8A29802A, .fexp2 10 24 .rup),
  (0x8B78C02B, .flog2 30 12 .rdn),
  (0x8C20568C, .fcvt 8 5 true .fp32 (.narrow 3) .rne),
  (0x8C5801E3, .fcvt 22 0 false (.narrow 7) .bf16 .rdn),
  (0x8D606125, .fcvti 24 6 .n8 .fp16 .rtz),
  (0x8E5090EE, .icvtf 20 9 .i64 .fp64 .rup),
  (0x905186E5, .vadd 20 24 (.reg 27) .fp16 .rtz),
  (0x9139FFA5, .vmul 14 31 .bimm .fp16 .rtz),
  (0x9D798621, .vfma 30 24 (.reg 24) .bf16 .rtz),
  (0x924137C0, .vand 16 19 (.reg 31)),
  (0x9341AF80, .vor 16 26 .bimm),
  (0x940544C0, .vshf 1 20 (.reg 19)),
  (0x9B7D2240, .vlane 31 18 (.reg 9)),
  (0x9C781F80, .vins 30 1 .bimm)] : List (Nat × Instr)).all (fun p => decodeTableWord 32 p.1 = some p.2) = true := by decide +kernel

/-- Words written out from R41 to R55 (float slots). -/
theorem test_decode_float2 : ([
  (0x950C4000, .vbcast 3 4),
  (0x960C4023, .vredadd 3 4 .bf16 .rdn),
  (0x970C4024, .vredmax 3 4 .fp16),
  (0x980420EF, .vsel 1 2 (.reg 3) 47),
  (0x99042F9D, .vpack 1 2 .bimm (.narrow 7) .rtz),
  (0x9A042017, .vunpk 1 2 (.narrow 5) 3)] : List (Nat × Instr)).all (fun p => decodeTableWord 32 p.1 = some p.2) = true := by decide +kernel

/-- Words written out from R41 to R55 (engine slots). -/
theorem test_decode_engine : ([
  (0xC0030D00, .erw 0 12 (.reg 13) 0),
  (0xC191403F, .erd 9 5 63),
  (0xC2000000, .mlease),
  (0xC3000000, .mfree),
  (0xC9000000, .accz),
  (0xC4000007, .mma (.narrow 0) (.narrow 7)),
  (0xC50000CC, .mmas .int8 .int8),
  (0xC6100080, .mgath .bf16),
  (0xC70000A0, .accrd .fp32),
  (0xC80000B0, .accwr .fp64),
  (0xCA200000, .vecop .copy),
  (0xCA200001, .vecop .add),
  (0xCA200002, .vecop .sub),
  (0xCA200003, .vecop .mul),
  (0xCA200004, .vecop .axpy),
  (0xCA200005, .vecop .max),
  (0xCA200006, .vecop .min),
  (0xCA200007, .vecop .scale),
  (0xCA200008, .vecop .relu),
  (0xCA200009, .vecop .exp2),
  (0xCA20000A, .vecop .exp),
  (0xCA20000B, .vecop .log2),
  (0xCA20000C, .vecop .rcp),
  (0xCA20000D, .vecop .rsqrt)] : List (Nat × Instr)).all (fun p => decodeTableWord 32 p.1 = some p.2) = true := by decide +kernel

/-- Words written out from R41 to R55 (engine slots). -/
theorem test_decode_engine2 : ([
  (0xCA200010, .vecop .rsum),
  (0xCA200011, .vecop .rmax),
  (0xCA200020, .vecop .srnd),
  (0xCB300000, .cpy),
  (0xCC300000, .cpyd),
  (0xCD900000, .ifill),
  (0xCE4000A0, .coll .fp32 .asum),
  (0xCE4000A1, .coll .fp32 .rsum),
  (0xCE4000A2, .coll .fp32 .amax),
  (0xCE4000A3, .coll .fp32 .bcast),
  (0xCE4000A4, .coll .fp32 .agath),
  (0xD080FE00, .tlwait 8 3 .bimm),
  (0xD140C000, .tlread 4 3),
  (0xD251C000, .phreg 7),
  (0xD351C000, .phdrop 7),
  (0xD451C000, .phsig 7),
  (0xD651C000, .phsw 7),
  (0xD551C900, .phwait 7 (.reg 9)),
  (0xD7020900, .bind 8 (.reg 9)),
  (0xD8023E00, .unbind 8 .bimm),
  (0xD9610000, .tkget 4),
  (0xDA600000, .tkdone),
  (0xDB710000, .fwait 4),
  (0xDC800000, .bmsg)] : List (Nat × Instr)).all (fun p => decodeTableWord 32 p.1 = some p.2) = true := by decide +kernel

/-- Words written out from R41 to R55 (engine slots). -/
theorem test_decode_engine3 : ([
  (0xDD010500, .cbsync 4 (.reg 5))] : List (Nat × Instr)).all (fun p => decodeTableWord 32 p.1 = some p.2) = true := by decide +kernel

/-- Words written out from R41 to R55 (scale slots). -/
theorem test_decode_scale : ([
  (0xE0F04FFF, .qld 15 4 0xFFF),
  (0xE1304000, .qmov 3 4),
  (0xE210007F, .qset 1 0x7F),
  (0xE3205000, .fmtset 2 5)] : List (Nat × Instr)).all (fun p => decodeTableWord 32 p.1 = some p.2) = true := by decide +kernel

/-- PT shares OP 0x00 with the header of a NOP (R35, R48): it is decoded in its slot. -/
theorem test_decode_pt : (decodeSyl .c 0x00FFFFFE).toOption = some (.pt 3 0x3FFFFE) := by decide +kernel

/-! ### A small module -/

/-- A gang of one crew of 4 with 0x1000 bytes of scratchpad and 0x800 of local space (R279). -/
def rec_ : LaunchRec := ⟨leBytes 20 0 ++ [4, 0, 0, 0] ++ leBytes 4 0x1000 ++ leBytes 4 0x800 ++ leBytes 48 0 ++ leBytes 8 0x800 ++
  leBytes 104 0⟩
def gang : Gang := ⟨1, 0, 0, rec_, .running, none, true, false, [0], [], 1, none, none, [], 0, [], [], []⟩

/-- A window from VA 0 to IA 0 that permits everything, world 0 (R316). -/
def win : Window := ⟨0xF000000000000000, 0xFFFF⟩

/-- A context with operands: s4 in the scratchpad, s5 in local space, s6 at device address 0x1000, s7 below s5, s8 and s9 data. -/
def ctx : Ctx := { Ctx.idle with
  status := .ready
  win := vput Ctx.idle.win 0 win
  s := vput (vput (vput (vput (vput (vput Ctx.idle.s 4 0x1000000000000040) 5 0x3000000000000020) 6 0x1000) 7
    0x3000000000000018) 8 0x8000000000000005) 9 3
  slim := 0x3000000000000020 }

/-- A resident line: IA 0x1000, version 7, its first word 0x10. -/
def line : Line := ⟨7, 0, 0, 0, [(0, 0x10)], 1, 0, 0, 0⟩

/-- The gang on cluster 0, its context 0 running, the line in its slice, and a page table of two levels whose first leaf maps IA 0
to 0xFFFF at PA 0x10000 (R320, R321). -/
def st : State := { State.reset with
  ctxs := [(0, ctx)]
  clusters := [(0, { Cluster.init with crew := some (1, 0), spad := [(0x40, 0x22), (0x41, 0x33)] })]
  cores := [(0, { Core.init with running := some 0 })]
  slices := [(4, { Slice.init with lines := [(4, line)] })]
  gangs := [gang]
  hbm := [(0x200002, 0x40), (0x200007, 0x80), (0x400002, 1), (0x400007, 0xE0)]
  mg := { Mgmt.init with ptroot := 0x200000 } }

/-- st with another context 0. -/
def at_ (c : Ctx) : State := { st with ctxs := [(0, c)] }

/-- Operations in progress with one destination. -/
def op (d : Nat) (v : Word) : Op :=
  ⟨0, 1, 0, 0, 8, [.s d], [⟨.s d, v.zeroExtend 256⟩], 1, false, false, .completed, none, none, [], 0, none, false, none⟩

/-- st, with an operation of the memory queue before what issues. -/
def behind (m : MemOp) : State := at_ { ctx with pend := [{ op 0 0 with dests := [], wr := [], mem := some m }] }
def fenceOp : MemOp := ⟨.fence .dev, .unp, .bad 0, 0, 0, 0, 0, 0, 0, 0, []⟩

theorem pair_of {α β : Type} {x : α × β} {b : β} (h : x.2 = b) : ∃ a, x = (a, b) := ⟨x.1, by rw [← h]⟩

/-! ### The hypotheses of the statements are met -/

theorem test_meets_IntegerResultsAreWrappedExactly :
    (∃ f, intRow (.div 1 8 .bimm .i8) = some (1, 8, .bimm, .i8, 24, f)) ∧ Issues st ∧ Unlimited st 1 ∧
    Unlimited (at_ { ctx with hm := true }) 2 ∧ Unlimited (at_ { ctx with slim := 0 }) 2 := by
  unfold Issues Unlimited; exact ⟨⟨_, rfl⟩, by decide +kernel⟩

theorem test_meets_BitOperationsActOnPatterns :
    (∃ f, bitRow (.sar 31 8 (.reg 9) .n64) = some (31, 8, .reg 9, .n64, f)) ∧ Issues st ∧ Unlimited st 31 ∧ Unlimited st 1 ∧
    tyWidth .i8 ≤ bits ((at_ { ctx with s := vput ctx.s 9 8 }).opB (.reg 9)) 5 0 ∧
    tyWidth .i8 ≤ bits ((at_ { ctx with s := vput ctx.s 9 63 }).opB (.reg 9)) 5 0 := by
  unfold Issues Unlimited; exact ⟨⟨_, rfl⟩, by decide +kernel⟩

theorem test_meets_ImmediatesCountsAndConversionsComplete :
    (∃ y f, immRow (.ext 1 8 63 0) = some (1, 8, y, f)) ∧ Issues st ∧ st.iss.ov = none ∧ Unlimited st 1 ∧ Unlimited st 0 := by
  unfold Issues Unlimited; exact ⟨⟨_, _, rfl⟩, by decide +kernel⟩

theorem test_meets_AddressesAndReadsOfControlState : Issues st ∧ Unlimited st 0 ∧ st.iss.ov = none := by
  unfold Issues Unlimited; decide +kernel

theorem test_meets_PredicateOperationsWriteTheirPredicates :
    (predRow st (.cmp 1 8 (.reg 9) .i64 .lt)).map (fun x => x.2.2.2.2) = some 0xFF ∧ Issues st := by
  unfold Issues; decide +kernel

theorem test_meets_StackLimitStopsAWriteOfS2 :
    Issues st ∧ tagOf st.me.slim = 3 ∧ st.me.hm = false ∧ st.iss.ov = none ∧
    (∃ r, aRow st (.add 2 7 (.reg 0) .i64) = some (2, 1, st.opA 7, st.opB (.reg 0), r)) ∧
    (∃ r, aRow st (.orRi 2 5 0) = some (2, 1, st.opA 5, 0, r)) ∧
    st.me.slim.toNat ≤ (st.opA 5 ||| (0 : BitVec 12).signExtend 64).toNat ∧
    (arith .i64 (· + ·) (st.opA 7) (st.opB (.reg 0))).toNat < st.me.slim.toNat ∧
    (st.me.creg .estat).toNat < st.me.slim.toNat ∧
    (if (st.srcP 0 2).getLsbD 0 then st.srcS 7 0 else st.opB (.reg 0)).toNat < st.me.slim.toNat := by
  unfold Issues; exact ⟨by decide +kernel, by decide +kernel, by decide +kernel, by decide +kernel, ⟨_, rfl⟩, ⟨_, rfl⟩, by decide +kernel⟩

theorem test_meets_WritesWaitForTheEndOfTheBundle : st.opA 0 = st.me.world ∧ st.opA 9 ≠ st.me.world := by decide +kernel

theorem test_meets_EndOfBundleWritesTakeTheirBits :
    (st.ctx 0).status = .ready ∧ dOk 1 = false ∧ dOk 0x07000143 = true ∧ erWritable 0 12 = true ∧ erWritable 9 3 = true := by
  decide +kernel

/-- A bundle that reissues a record with captured words 7 and 9. -/
def again : State := { st with iss := { Iss.none with
  mode := .reissue, ov := some (7, 9), rec_ := some ⟨0, 0, 0, 0, 0, 0, 7, 9, 0, 0, 0, none, [], 0, none⟩ } }

theorem test_meets_ReissueComputesFromCapturedWords :
    (∃ f, intRow (.sub 31 8 .bimm .i8) = some (31, 8, .bimm, .i8, 1, f)) ∧ again.iss.mode = .reissue ∧
    again.iss.ov = some (7, 9) ∧ (∃ w, again.iss.rec_ = some w ∧ w.sup = []) ∧ again.me.ldfs = [] ∧ Unlimited again 31 := by
  unfold Unlimited; exact ⟨⟨_, rfl⟩, rfl, rfl, ⟨_, rfl, rfl⟩, by decide +kernel⟩

theorem test_meets_TargetsAreWrittenAndTransfersArmed : Issues st ∧ st.iss.ov = none := by unfold Issues; decide

/-- Entry addresses with another tag, unaligned, in no window, and in the window. -/
theorem test_meets_CalltReadsOrRefusesItsEntry :
    (let c := fun ftb => at_ { ctx with ftb := ftb }
     tagOf ((c 0x1000000000000008).me.ftb + 16 * (c 0x1000000000000008).srcS 9 0) ≠ 0 ∧
     (tagOf ((c 8).me.ftb + 16 * (c 8).srcS 9 0) = 0 ∧ ((c 8).me.ftb + 16 * (c 8).srcS 9 0).toNat % 16 = 8) ∧
     (c 0x100000000).locate 0 ((c 0x100000000).me.ftb + 16 * (c 0x100000000).srcS 9 0) 16 permR = .bad 0x01 ∧
     (c 0x1000).locate 0 ((c 0x1000).me.ftb + 16 * (c 0x1000).srcS 9 0) 16 permR = .home 0x1030 win 0) ∧
    Issues st ∧ st.iss.ov = none := by
  unfold Issues; decide +kernel

/-- A transfer whose delay bundles have issued. -/
def xf (k : XferKind) (t : Word) : Xfer := ⟨k, 0, 0, 0, t, 0x100, 0x10, false, 0, false, false, none, none, false, 0x123, [], false⟩

theorem test_meets_TransfersReachTheirTargets :
    (let s := fun x => at_ { ctx with xfer := some x }
     ((s (xf .call 0x40)).ctx 0).xfer = some (xf .call 0x40) ∧ (xf .call 0x40).left = 0 ∧
     (let x := { xf .callt 0x40 with landed := true, entry := some (0x80, 0x123) }; (s x).me.xfer = some x) ∧
     (let x := { xf .callt 0x40 with entry := some (0x80, 0x123) }
      let o : Op := { op 31 0 with dests := [], wr := [], slot := 0 }
      let u := at_ { ctx with xfer := some x, pend := [o] }
      (u.ctx 0).xfer = some x ∧ (u.ctx 0).pend[0]? = some o ∧ o.landed = false ∧ o.mem = none ∧ o.step = x.step ∧ o.slot = 0 ∧ o.dests = []) ∧
     (0x1FFFC % 4 = 0 ∧ 0x1FFFC < 0x20000 ∧ 0x1FFFC / 0x10000 ≠ (xf .bswap 0x1FFFC).home.toNat / 0x10000) ∧
     ¬(0xFFFC / 0x10000 ≠ (xf .bswap 0xFFFC).home.toNat / 0x10000) ∧
     (let x := { xf .br 0x40 with val := some 1 }; (s x).me.xfer = some x ∧ x.arm_ = false ∧ ∀ o ∈ (s x).me.pend, o.landed = true)) := by
  decide +kernel

/-- A bundle that has been executed, at the end of a body of one bundle with two passes left, and at the end of the last. -/
def ended (c : Ctx) : State := { at_ c with iss := { Iss.none with mode := .bundle, addr := 0x40, len := 4 } }
def looped (n : BitVec 32) : Ctx := { ctx with loop := some ⟨0x40, 1, 0, [2, 3]⟩, l := vput (vput ctx.l 0 n) 1 1 }

theorem test_meets_LoopBodiesIssueTheirProduct :
    (let s := at_ { ctx with s := vput (vput ctx.s 12 3) 13 1 }
     ((List.range 2).map fun j => ((s.src (.s (12 + j)) j).truncate 32 : BitVec 32)) = [3, 1] ∧
     ((List.range 6).map fun j => ((s.src (.s (12 + j)) j).truncate 32 : BitVec 32)) = [3, 1, 0, 0, 0, 0]) ∧
    (BundleEnds (ended (looped 2)) ∧ BundleEnds (ended (looped 1)) ∧
     ([looped 1, looped 2].all fun c => c.loop == some ⟨0x40, 1, 0, [2, 3]⟩ && c.xfer == none) = true ∧
     passesLeft [2, 1] [2, 3] = 1 ∧ passesLeft [1, 1] [2, 3] = 0 ∧
     ((List.range 2).map fun j => vget (looped 2).l j 0) = [2, 1] ∧
     (let c := { looped 1 with loop := some ⟨0x40, 2, 0, [2, 3]⟩ }; BundleEnds (ended c) ∧ 0 + 1 < 2)) ∧
    ([1, 2, 0xFFFFFFFF] : List (BitVec 32)).all (· != 0) = true := by unfold BundleEnds; decide +kernel

/-- The end of a bundle with a TRAP, and of one with an EXIT, the context having the issue slot. -/
theorem test_meets_PlainControlCompletes :
    (let s := { ended ctx with iss := { (ended ctx).iss with trap := some 0x123 } }
     BundleEnds { s with iss := { s.iss with trap := none } } ∧ s.iss.trap = some 0x123 ∧ s.me.pend = [] ∧ s.me.ldfs = [] ∧
     s.me.xfer = none ∧ s.me.loop = none ∧ s.me.phsw = none ∧ s.me.redo = none ∧ s.me.hm = false ∧ (s.core 0).cbuf = [] ∧
     (s.core (coreOf s.cur)).running_ s.me.thv.toNat = true) ∧
    (let s := { ended ctx with iss := { (ended ctx).iss with exit := true } }
     BundleEnds { s with iss := { s.iss with exit := false, trap := none } } ∧ s.iss.exit = true ∧ s.me.drain = false ∧
     s.me.hm = false ∧ heldIn s.me.pend = [] ∧ (s.core (coreOf s.cur)).running = some (s.cur % 4)) := by
  unfold BundleEnds; decide +kernel

/-- An LDF to s31 at IA 0x1000. -/
def ldf (a : LdfAt) : Ldf := ⟨1, 0, 0, 31, 0x1000, 0x1000, 0, 0, a, 5, 0, 0, false⟩

/-- An empty queue, a queue of one deleted record, and an LDF that the handler has sent. -/
theorem test_meets_ResumeEndsHandlerMode :
    (let s := at_ { ctx with hm := true, aside := some ⟨⟨[], true⟩, none, none, 0⟩ }
     s.me.pend = [] ∧ s.me.ldfs = [] ∧ s.me.aside = some ⟨⟨[], true⟩, none, none, 0⟩ ∧ bits s.me.rqn 6 0 = 0 ∧
     matchQueue s.me.written [] = some []) ∧
    (let w : Written := ⟨0, 0, 0x10, 0, 0, 0, 0, 0, 0, 0, 0, none, [], 0, none⟩
     let s := at_ { ctx with hm := true, rqn := 1, rqb := 0x1000, written := [w], aside := some ⟨⟨[], false⟩, none, none, 0⟩ }
     ((s.readRecords 0 1 s.me.rqb).map fun q => (q.2, q.1.me.ldfs, q.1.cur, q.1.me.aside)) =
       some ([⟨0x10, 0, 0, 0, 0, 0⟩], [], 0, some ⟨⟨[], false⟩, none, none, 0⟩) ∧
     (matchQueue s.me.written [⟨0x10, 0, 0, 0, 0, 0⟩]).isSome = true) ∧
    (let s := at_ { ctx with hm := true, ldfs := [ldf .sent] }
     ldf .sent ∈ s.me.ldfs ∧ (ldf .sent).at_ ≠ .answered ∧ ∀ w ∈ s.me.written, w.ldf ≠ (ldf .sent).id) := by decide +kernel

/-! Places of an access: the scratchpad to its last byte, local space at SLIM, and a device address. -/

theorem test_meets_LoadsLandTheBytesOfTheirPlace :
    (∃ put, loadRow (.ldI32 31 4 0xFF .acq) = some (31, 4, 0xFF, .acq, 4, some .i32, put)) ∧ Issues st ∧
    st.check 0 (st.ea 4 0xFF 4) 4 4 [0, 1, 2, 3, 4] permR false = .bank 0 0x3C ∧
    st.check 0 (st.ea 5 0 32) 32 32 [0, 1, 2, 3, 4] permR false = .bank 0 0x1020 ∧
    st.check 0 (st.ea 6 0 8) 8 8 [0, 1, 2, 3, 4] permR false = .home 0x1000 win 0 := by
  unfold Issues; exact ⟨⟨_, rfl⟩, by decide +kernel⟩

/-- st with the line's first sector in the L1. -/
def held : L1Line := ⟨[(0, 0x10)], BitVec.allOnes 256, 0, [], [], [], [], 3, 0, 0⟩
def inL1 : State := { st with cores := [(0, { Core.init with running := some 0, l1 := [(0x1000, held)] })] }

theorem test_meets_LoadsLandTheBytesOfTheirPlace_answers :
    st.unfinishedOut 0 0x40 8 = false ∧
    (inL1.core 0).l1.get? (0x10F8 / 256 * 256 + win.world.toNat) = some held ∧
    (held.valid &&& maskOf (0x10F8 % 256) 8) = maskOf (0x10F8 % 256) 8 ∧
    win.world = 0 ∧ (st.ctx 0).ldfs = [] ∧ (inL1.ctx 0).ldfs = [] ∧ (st.core 0).l1.get? (0x1000 / 256 * 256) = none ∧
    (st.slice (homeSlice 0x10F8)).fills = [] ∧ (st.slice (homeSlice 0x10F8)).lines.get? (0x10F8 / 1024) = some line ∧ line.filled.getLsbD (0x10F8 / 256 % 4) = true ∧
    line.poison.getLsbD (0x10F8 / 256 % 4) = false ∧ 0x10F8 % 256 + 8 ≤ 256 := by
  decide +kernel

theorem test_meets_StoresArePerformedAtTheirPlace :
    (∃ x bs, storeRow st (.st64 8 4 0 .rel) = some (4, 0, .rel, 8, x, 0, bs)) ∧
    st.check 0 (st.ea 4 0 8) 8 8 [0, 1, 2, 3, 4] permW true = .bank 0 0x40 ∧
    st.check 0 (st.ea 5 0 8) 8 8 [0, 1, 2, 3, 4] permW true = .bank 0 0x1020 ∧
    st.check 0 (st.ea 6 0 8) 8 8 [0, 1, 2, 4] permW false = .home 0x1000 win 0 := ⟨⟨_, _, rfl⟩, by decide +kernel⟩

theorem test_meets_StoresChangeTheirBytesAlone :
    (st.ctx 0).task = none ∧ (st.ctx 0).ldfs = [] ∧ 0x10F8 % 256 + 8 ≤ 256 ∧
    ((st.core 0).l1.filter fun e => e.1 / 256 % 64 == (0x1000 : Nat) / 256 % 64).length < 8 ∧
    ((inL1.core 0).l1.get? 0x1000).isSome = true := by decide +kernel

theorem test_meets_WriteTransactionsRaiseTheVersion :
    0x100F % 16 + [1#8].length ≤ 16 ∧ (st.slice (homeSlice 0x100F)).lines.get? (0x100F / 1024) = some line ∧
    line.filled.getLsbD (0x100F / 256 % 4) = true ∧ line.poison.getLsbD (0x100F / 256 % 4) = false ∧
    (st.slice (homeSlice 0x100F)).defer = [] ∧ (st.slice (homeSlice 0x100F)).fills = [] ∧ st.late = [] ∧
    (st.clusters.any fun c => c.2.dbg.owlCtl.getLsbD 5) = false ∧
    (([(0, { Cluster.init with dbg := { Dbg.init with owlCtl := 0x20 } })] : Tab Cluster).any fun c => c.2.dbg.owlCtl.getLsbD 5) = true := by
  decide +kernel

/-- Each check at its boundary: tag 5, one byte beyond the scratchpad and local space, the last byte inside, an address that is
not aligned, no window, and one word below SLIM. -/
theorem test_meets_AccessesAreCheckedAtIssue :
    tagOf 0x5000000000000000 ∉ [0, 1, 2, 3, 4] ∧ tagOf 0x5000000000000000 ∈ [0, 5] ∧
    (bits 0x1000000000000FF9 59 0 + 8 > (st.sizes 0).1 ∧ bits 0x1000000000000FF8 59 0 + 8 ≤ (st.sizes 0).1) ∧
    (bits 0x30000000000007F9 59 0 + 8 > (st.sizes 0).2.1 ∧ bits 0x30000000000007F8 59 0 + 8 ≤ (st.sizes 0).2.1) ∧
    (0x1000000000000041 % 8 ≠ 0 ∧ 0x1001 % 8 ≠ 0) ∧
    (∀ w ∈ ((at_ { ctx with win := Ctx.idle.win }).ctx 0).win.toList, w.v = false) ∧
    (tagOf st.me.slim = 3 ∧ st.me.hm = false ∧ (0x3000000000000018 : Word).toNat < st.me.slim.toNat) ∧
    st.check 0 (st.ea 4 1 8) 8 16 [0, 1, 2, 3, 4] permR false = .bad 0x03 ∧
    (at_ { ctx with win := Ctx.idle.win }).check 0 0x1000 8 8 [0, 4] permR false = .bad 0x01 ∧
    st.check 0 (st.ea 7 0 8) 8 8 [0, 1, 2, 3, 4] permW true = .bad 0x05 ∧
    st.check 0 (st.ea 5 0 8) 8 8 [0, 1, 2, 4] permW false = .bad 0x02 ∧ st.iss.rec_ = none := by decide +kernel

/-- A window of world 0 that decides for a context of that world, one that does not permit a write, and one that a context of world 1
may not write through; this member's own address and another's. -/
theorem test_meets_AccessesAreCheckedAtIssue_places :
    (Decides (st.ctx 0) 0 win ∧ Permits win permRW ∧ ¬Foreign (st.ctx 0) win permRW ∧ (0x1000 + 8 - 1) / 65536 ≤ win.base + win.nblk) ∧
    (Decides { ctx with win := vput ctx.win 0 ⟨0x9000000000000000, 0xFFFF⟩ } 0 ⟨0x9000000000000000, 0xFFFF⟩ ∧
      ¬Permits ⟨0x9000000000000000, 0xFFFF⟩ permW) ∧
    (Decides { ctx with world := 1 } 0 win ∧ Foreign { ctx with world := 1 } win permW ∧ ¬Foreign { ctx with world := 1 } win permR) := by
  unfold Decides Permits Foreign Covers; refine ⟨⟨?_, ?_, ?_, ?_⟩, ⟨?_, ?_⟩, ?_, ?_, ?_⟩ <;> decide +kernel

theorem test_meets_AccessesAreCheckedAtIssue_members :
    (st.crewCluster 0 0 = some 0 ∧ st.crewCluster 0 1 = none) ∧
    ([0x4000000000001000, 0x4004000000001000] : List Word).all (fun va => tagOf va == 4 && bits va 59 58 == 0) = true ∧
    (let s := { st with trust := { st.trust with members := [0, 0] } }
     bits 0x4000000000001000 57 50 = s.trust.myIdx ∧ bits 0x4004000000001000 57 50 = 1 ∧ 1 < s.trust.members.length ∧
     ¬1 < st.trust.members.length) ∧ st.transitKey 1 = none := by decide +kernel

theorem test_meets_VersionOperationsReadOnePoint :
    Issues st ∧ st.check 0 (st.ea 6 0 8) 8 8 [0, 4] permR false = .home 0x1000 win 0 ∧
    st.check 0 (st.ea 6 0 8) 8 8 [0, 4] permRW true = .home 0x1000 win 0 ∧ st.iss.rec_ = none ∧
    (let s0 := st.before 0 (.home 0x1000 win 0) true
     let r := s0.wordVer 0 (.home 0x1000 win 0) true
     r.1.me.async = s0.me.async ∧ r.2 = (0x10, 7) ∧ st.srcS 9 3 ≠ 7 ∧ (at_ { ctx with s := vput ctx.s 9 7 }).srcS 9 3 = 7) ∧
    win.world = 0 ∧ (st.ctx 0).ldfs = [] ∧ (st.core 0).l1.get? (0x10F8 / 256 * 256) = none ∧
    (st.slice (homeSlice 0x10F8)).fills = [] ∧
    (st.slice (homeSlice 0x10F8)).lines.get? (0x10F8 / 1024) = some line ∧ line.filled.getLsbD (0x10F8 / 256 % 4) = true ∧
    line.poison.getLsbD (0x10F8 / 256 % 4) = false ∧ 0x10F8 % 8 = 0 := by unfold Issues; decide +kernel

/-- A pair that the set holds, with its version and with another; a line the set does not hold; a full set. -/
theorem test_meets_ValidationSetsAreTakenAndCompared :
    Issues st ∧
    (let x : VSet := ⟨[⟨0, 4, 7⟩], false⟩
     (∀ q ∈ x.pairs, ¬(q.member = 0 ∧ q.line = 5)) ∧ (∀ r ∈ x.pairs, r.member = 0 → r.line = 4 → r = ⟨0, 4, 7⟩) ∧
     (∀ p ∈ x.pairs, p.member = st.trust.myIdx) ∧ st.validates x = true ∧ st.validates ⟨[⟨0, 4, 8⟩], false⟩ = false) ∧
    (List.range 16).length = 16 ∧ st.me.pend = [] ∧ (47 : Reg).toNat < 48 := by unfold Issues; decide +kernel

theorem test_meets_AtomicsAreOneStepAtTheirPlace :
    (∃ f, atomRow (.atomCasI32 8 4 0 .ar) = some (8, 4, 0, .ar, 4, f)) ∧ Issues st ∧ st.iss.rec_ = none ∧
    st.check 0 (st.ea 4 0 4) 4 4 [0, 1, 2, 4] permRW true = .bank 0 0x40 ∧
    (atomOf (.atomCasI32 8 4 0 .ar) st (.bank 0 0x40)).isSome = true := by
  unfold Issues; exact ⟨⟨_, rfl⟩, by decide +kernel⟩

/-- An atomic on the version, at the resident line. -/
theorem test_meets_AtomicsAreOneStepAtTheirPlace_home :
    (∃ f, atomRow (.atomAdd 8 6 0 .spc) = some (8, 6, 0, .spc, 8, f)) ∧ (combines (.atomXchg 8 6 0 .qnt)).isSome = false ∧ Issues st ∧
    st.iss.rec_ = none ∧ st.check 0 (st.ea 6 0 8) 8 8 [0, 4] permRW true = .home 0x1000 win 0 ∧
    (atomOf (.atomAdd 8 6 0 .spc) st (.home 0x1000 win 0)).isSome = true ∧
    (∃ t, (st.before 0 (.home 0x1000 win 0) false).homeLoad 0 0x1000 8
      ((st.before 0 (.home 0x1000 win 0) false).acc 0 win (.pod, 0)) true true = (t, .ok [0x10, 0, 0, 0, 0, 0, 0, 0])) := by
  unfold Issues; exact ⟨⟨_, rfl⟩, by decide +kernel, by decide +kernel, by decide +kernel, by decide +kernel, by decide +kernel,
    pair_of (by decide +kernel)⟩

/-- An open entry with room for one more. -/
def comb : Comb := ⟨0x1000, 0, 0, 0, true, 10, 2, 63, 0, 0⟩
def combSt : State := { st with clusters := [(0, { Cluster.init with crew := some (1, 0), comb := [comb] })] }

theorem test_meets_CombinedAtomicsArePending :
    (∃ f, atomRow (.atomAdd 8 6 0 .qnt) = some (8, 6, 0, .qnt, 8, f)) ∧ combines (.atomAdd 8 6 0 .qnt) = some (0, true) ∧ Issues combSt ∧
    combSt.check 0 (combSt.ea 6 0 8) 8 8 [0, 1, 2, 4] permRW true = .home 0x1000 win 0 ∧ combSt.iss.rec_ = none ∧
    (atomOf (.atomAdd 8 6 0 .qnt) combSt (.home 0x1000 win 0)).isSome = true ∧ comb.op = 0 ∧ comb.w64 = true ∧
    (let t := combSt.ahead 0 0x1000 win.world
     (t.cl 0).comb.findIdx? (fun e => e.has t.trust.myIdx 0x1000 0 true win.world) = some 0 ∧ (t.cl 0).comb[0]? = some comb) ∧
    comb.count < 64 := by
  unfold Issues; exact ⟨⟨_, rfl⟩, by decide +kernel⟩

/-- No entry, and 32 of other words of which the oldest is flushed first; the word at home is read. -/
theorem test_meets_CombinedAtomicsArePending_opening :
    ([[], (List.range 32).map fun k => { comb with ia := 0x1008 + 8 * k }].all fun cs =>
      let s := { st with clusters := [(0, { Cluster.init with crew := some (1, 0), comb := cs })] }
      let t0 := s.ahead 0 0x1000 win.world
      let t1 := if 32 ≤ (t0.cl 0).comb.length then t0.flushComb 0 0 else t0
      ((t0.cl 0).comb.findIdx? fun e => e.has t0.trust.myIdx 0x1000 0 true win.world).isNone &&
        ((t1.homeLoad 0 0x1000 8 (t1.acc 0 win (.pod, 0)) true).2 == .ok [0x10, 0, 0, 0, 0, 0, 0, 0])) = true := by decide +kernel

/-- A page that is valid and of the context's world; one that is not; an address no operation accepts; a fill from the L1 and from
the slice. -/
theorem test_meets_FuturesWaitsAndProbesComplete :
    Issues st ∧ st.iss.rec_ = none ∧ st.check 0 (st.ea 6 0 8) 8 8 [0, 4] permR false = .home 0x1000 win 0 ∧
    st.check 0 (st.ea 6 0 8) 8 8 [0, 4] permW true = .home 0x1000 win 0 ∧
    st.check 0 (st.ea 6 0 8) 8 8 [0] permR false = .home 0x1000 win 0 ∧ st.me.monitor = none ∧
    (at_ { ctx with monitor := some ⟨4, 0, 16, true⟩ }).me.monitor ≠ none ∧
    st.check 0 (st.ea 6 0 8) 1 1 [0] permR false = .home 0x1000 win 0 ∧
    (st.walk 0x1000).map (fun p => (p.v, p.world)) = some (true, st.me.world.truncate 8) ∧
    (st.walk 0x20000).map (fun p => p.v) = some false ∧ st.check 0 0x20000 1 1 [0] permR false = .home 0x20000 win 0 ∧
    st.check 0 0x5000000000000000 1 1 [0, 1, 2, 3, 4] permR false = .bad 0x02 ∧
    st.check 0 0x0800000000001000 1 1 [0, 1, 2, 3, 4] permR false = .home 0x1000 win 2 ∧
    (st.l1Load 0 0x1000 1 0 (st.acc 0 win (.pod, 0))).2.1 = .ok [0x10] ∧
    ((st.ahead 0 0x1000 win.world).homeRead 0x1000 1 (st.acc 0 win (.pod, 0)) false).2 = .ok [0x10] := by unfold Issues; decide +kernel

/-- Dirty bytes at IA 0x10F8 in the L1, the line at its home slice, and a range bound to the timeline of engine 5 that holds them. -/
def bound : State := { at_ { ctx with binds := [some ⟨.timeline 5, 5, 0x1000, 0x2300000100, [(0x1000, 0x100)]⟩] } with
  cores := [(0, { Core.init with running := some 0, l1 := [(0x1000, { held with dirty := maskOf 0xF8 8, pdata := [(0xF8, 5)] })] })] }

theorem test_meets_ReleasesAndAcquiresMoveL1Bytes :
    CleanHome bound 0 ∧ bound.cur = 0 ∧ Issues bound ∧ (bound.core (coreOf 0)).l1.get? 0x1000 =
      some { held with dirty := maskOf 0xF8 8, pdata := [(0xF8, 5)] } ∧ (bound.core (coreOf 0)).l1.get? 0x1100 = none ∧
    BoundAt bound 0 (.timeline 5) (0x1000 / 256 * 256 + 0xF8) ∧ ¬BoundAt bound 0 .pool 0x1000 ∧
    BoundLine bound 0 (.timeline 5) 0x1000 ∧ (bound.cl 0).comb = [] ∧
    wide .ctx = false ∧ wide .clu = true := by
  refine ⟨⟨rfl, ?_, by decide, ?_⟩, ?_⟩
  · intro k; by_cases e : k = 4
    · subst e; decide +kernel
    · have : bound.slice k = Slice.init := by simp [bound, at_, st, State.slice, Tab.get, Ne.symm e]
      rw [this]; exact ⟨rfl, rfl⟩
  · intro key l h _; by_cases e : key = 0x1000
    · subst e; exact ⟨rfl, line, by decide +kernel⟩
    · have : (bound.core (coreOf 0)).l1 = [(0x1000, { held with dirty := maskOf 0xF8 8, pdata := [(0xF8, 5)] })] := by decide +kernel
      rw [this] at h; simp [Tab.get?, Ne.symm e] at h
  · have hb : (bound.ctx 0).binds = [some ⟨.timeline 5, 5, 0x1000, 0x2300000100, [(0x1000, 0x100)]⟩] := by decide +kernel
    unfold Issues BoundAt BoundLine; rw [hb]
    refine ⟨by decide, by decide, by decide +kernel, by decide +kernel,
      ⟨_, List.mem_singleton.2 rfl, rfl, by decide, _, List.mem_singleton.2 rfl, by decide, by decide⟩, ?_,
      ⟨_, List.mem_singleton.2 rfl, rfl, by decide, _, List.mem_singleton.2 rfl, by decide, by decide⟩, by decide +kernel, by decide⟩
    rintro ⟨b, h, e, -⟩; simp at h; subst h; simp at e

/-- Operations that issue with nothing before them, and behind a FENCE; one behind another on its own bytes, and on its line; an
access to a bank behind one to the next bytes; and the read of a CALLT behind a CBSYNC. -/
def ld8 (p : Place) (o : Ord) : MemOp := ⟨.load (some .n8), o, p, 31, 0, 0, 0, 0, 0, 0, []⟩
def st8 (p : Place) (o : Ord) : MemOp := ⟨.store 8, o, p, 0, 5, 0, 0, 0, 0, 0, []⟩
def callt : MemOp := ⟨.callt, .unp, .bad 0, 0, 0, 0, 0, 0, 0, 0, []⟩
def cbsync : MemOp := ⟨.sync 0 0 (.cbsync [(0x1000, 0x100)]), .unp, .bad 0, 0, 0, 0, 0, 0, 0, 0, []⟩

theorem test_meets_MemoryQueueKeepsItsOrder :
    (fenceOp.acq = true ∧ (st8 (.bank 0 0x40) .rel).rls = true) ∧
    (let e := st8 (.bank 0 0x40) .unp
     e.size = 8 ∧ ((ld8 (.bank 0 0x47) .unp).size = 1) ∧ e.acq = false ∧
     meets (rng 0x40 8) (rng 0x48 1) = false ∧ (ld8 (.bank 0 0x48) .unp).rls = false) ∧
    (let e := st8 (.home 0x1000 win 2) .unp
     let m := ld8 (.home 0x13FF win 2) .unp
     0x1000 / 1024 = 0x13FF / 1024 ∧ e.atHome = true ∧ m.atHome = true) ∧
    cbsync.isCbsync = true ∧
    (let s := behind (ld8 (.bank 0 0x40) .unp)
     s.mustHold 0 (heldIn ((s.ctx 0).pend.take 0)) (ld8 (.bank 0 0x40) .unp) = false) ∧
    (let o := fun m => { op 0 0 with dests := [], wr := [], mem := some m }
     let s := at_ { ctx with pend := [o fenceOp, o (ld8 (.bank 0 0x40) .unp)] }
     s.mustHold 0 (heldIn ((s.ctx 0).pend.take 1)) (ld8 (.bank 0 0x40) .unp) = true) := by decide +kernel

/-- Every access that the statements of this chapter name issues at st with nothing before it (the queue's first case), and waits
behind a FENCE (its second); the same for the commands of the X slot, whose numbers come first. -/
theorem test_meets_PerformedOrHeld :
    (let p := Place.home 0x1000 win 0
     [ld8 (.bank 0 0x40) .acq, ld8 p .unp, ld8 p .acq, st8 (.bank 0 0x40) .rel, st8 p .unp, st8 p .rel,
      ⟨.ldv, .unp, p, 1, 0, 0, 0, 0, 0, 0, []⟩, ⟨.vget, .unp, p, 1, 0, 0, 0, 0, 0, 0, []⟩, ⟨.casv, .ar, p, 1, 0, 0, 0, 0, 0, 0, []⟩,
      ⟨.stf, .unp, p, 0, 5, 0, 0, 0, 0, 0, []⟩, ⟨.rel, .unp, .bank 0 0x40, 0, 5, 0, 0, 0, 0, 0, []⟩, ⟨.atom 0 true, .spc, p, 8, 0, 0, 0, 0, 0, 0, []⟩,
      ⟨.atom 7 false, .ar, .bank 0 0x40, 8, 0, 0, 0, 0, 0, 0, []⟩, ⟨.atom 0 true, .qnt, p, 8, 0, 0, 0, 0, 0, 0, []⟩, fenceOp, cbsync].all fun m =>
        !(st.mustHold 0 (heldIn st.me.pend) m) && (behind fenceOp).mustHold 0 (heldIn (behind fenceOp).me.pend) m) = true ∧
    ([(5, .phreg 0 0x40), (5, .phsig 0 0x40), (5, .phdrop 0 0x40), (5, .phwait 0 0x40), (6, .tkget 4), (6, .tkdone), (7, .done),
      (0, .submit (st.capture 0 .mfree)), (8, .bmsg (st.capture 8 .bmsg))] : List (Nat × SyncCmd)).all (fun x =>
        let v := st.number 0 x.1
        let w := (behind fenceOp).number 0 x.1
        !(v.mustHold 0 (heldIn v.me.pend) (v.syncOp x.1 1 x.2)) && !(v.syncWaits 0 x.2) &&
          w.mustHold 0 (heldIn w.me.pend) (w.syncOp x.1 1 x.2)) = true ∧
    ((behind cbsync).mustHold 0 (heldIn (behind cbsync).me.pend) (st.syncOp 2 0 .tlwait) = true ∧
      (behind fenceOp).mustHold 0 (heldIn (behind fenceOp).me.pend) (st.syncOp 2 0 .tlwait) = false ∧
      (heldIn (behind cbsync).me.pend).any MemOp.isCbsync = true) ∧
    (behind fenceOp).check 0 ((behind fenceOp).ea 6 0 8) 8 8 [0, 4] permR false = .home 0x1000 win 0 ∧
    (behind fenceOp).check 0 ((behind fenceOp).ea 4 0 8) 8 8 [0, 1, 2, 3, 4] permW true = .bank 0 0x40 := by decide +kernel

theorem test_meets_MemoryOperationsWriteNoRegisterAtIssue :
    memoryOp (.st64 8 4 0 .unp) = true ∧ Issues st ∧ ∃ t, exec (.st64 8 4 0 .unp) st = .next t := by
  unfold Issues; exact ⟨rfl, by decide, _, rfl⟩

theorem test_meets_ScalarFloatOperationsRoundOnce :
    Issues st ∧ ∃ f, floatRow (.fsgn 1 8 .bimm .fp64 .xor) = some (1, 8, .bimm, .fp64, f) := by unfold Issues; exact ⟨by decide, _, rfl⟩

/-- The least subnormal, half of it, and the largest magnitude but one. -/
theorem test_meets_RoundingTakesTheNearestNeighbour :
    fp32 ∈ [fp64, fp32, fp16, bf16] ∧ 0x7F7FFFFF < 2 ^ fp32.width ∧ fp32.isNan 0x7F7FFFFF = false ∧
    (fp32.roundFin .rtz false 1 (-150) false).1 = 0 ∧ 0 < fp32.maxBits false ∧ (fp32.roundFin .rtz false 1 (-149) false).1 = 1 ∧
    (fp32.roundFin .rtz false 0xFFFFFE 104 false).1 < fp32.maxBits false ∧
    (fp32.roundFin .rtz true 3 (-150) false).1 < fp32.maxBits true := by decide +kernel

theorem test_meets_FloatFunctionsMeetTheirTable :
    Issues st ∧ FFun.log2 ∈ [FFun.rcp, .rsq, .log2] ∧ fp32.isNan 0x7F800001 = true ∧ fp32.isNan 0xFFFFFFFF = true ∧
    (ffun .rcp .rtz 0x400000).1 < 0x7F7FFFFF ∧ (ffun .rcp .rtz 0x7F7FFFFF).1 < 0x7F7FFFFF ∧ (ffun .rsq .rtz 1).1 < 0x7F7FFFFF := by
  unfold Issues; decide +kernel

/-- A NaN, an infinity, a value above the type's largest, one below its least, and one between. -/
theorem test_meets_FloatConversionsComplete :
    Issues st ∧ st.iss.ov = none ∧ st.iss.rec_ = none ∧ (fp32.val 0x7FC00000).isNan = true ∧
    (match fp32.val 0xFF800000 with | .inf n => n | _ => false) = true ∧
    (let k := fun (x : Nat) => match fp32.val x with
      | .fin n m e => (if n then -((cutAt .rne n m e false 0).1 : Int) else ((cutAt .rne n m e false 0).1 : Int))
      | _ => 0
     k 0x43000000 > itMax .i8 ∧ k 0xC3010000 < itMin .i8 ∧ k 0xC3000000 = itMin .i8 ∧ k 0x42FE0000 = itMax .i8) := by
  unfold Issues; decide +kernel

/-- The format E4M3 with a NaN, with a code that is none, and one without a sign; the largest draw. -/
theorem test_meets_NarrowFormatsDecodeAndEncode :
    (dOk 0x07000343 = true ∧ dNANR 0x07000343 = true ∧ dS 0x07000343 = 1 ∧ nanCode 0x07000343 = 0xFF ∧
     0x7F < 2 ^ (dS 0x07000343 + dEB 0x07000343 + dMB 0x07000343) ∧ 0xFFFF < 65536) ∧
    (dOk 0x07000042 = true ∧ dS 0x07000042 = 0) ∧ fp32 ∈ [fp64, fp32, fp16, bf16] ∧
    (fp32.roundFin .rtz false 3 (-150) false).1 < fp32.maxBits false ∧ magAt 0x07000343 (-10) 8 = 16 := by decide +kernel

theorem test_meets_VectorOperationsActByElement :
    Issues st ∧ st.iss.rec_ = none ∧ (fmtOf .bf16 fun k => vget st.me.f k 0).cont = 16 ∧ (1 : BitVec 2).toNat < 32 / 16 := by
  unfold Issues; decide +kernel

theorem test_meets_LaneMovesAndReductionsComplete : Issues st ∧ FTy.bf16 = .fp32 ∨ FTy.bf16 = .bf16 ∨ FTy.bf16 = .fp16 := by
  unfold Issues; decide

/-- An agenda with an event, with one whose place does not exist, and with one that a halted module does not take. -/
theorem test_meets_StepRunsTheDecodedInstruction :
    ((Instr.leaseGrant 63).wf = true ∧ st.allowed (.leaseGrant 63) = true) ∧
    ((Instr.leaseGrant 64).wf = false ∧ st.allowed (.leaseGrant 64) = true) ∧
    ({ st with mg := { st.mg with fail := true } } : State).allowed (.leaseGrant 63) = false ∧
    ({ st with iss := { Iss.none with mode := .bundle, todo := [⟨.ifence, 0, 0x08000000, 0, 0, none, none⟩] } } : State).iss.mode ≠ .reissue := by
  decide +kernel

/-- The bundle that 02_encoding works to the bit, at address 0 of the core's instruction scratchpad, under p3 = 0xFF, its load from
the scratchpad. -/
def issuing : State := { st with
  ctxs := [(0, { ctx with p := vput ctx.p 3 0xFF, s := vput ctx.s 8 0x1000000000000040 })]
  cores := [(0, { Core.init with running := some 0, ispad := Mem.write [] 0 [0xF8, 0x03, 0x83, 0x2A, 0x90, 0x51, 0x10, 0x10,
    0x40, 0x80, 0x1C, 0x56, 0xA8, 0xAF, 0x24, 0x80] })] }

theorem test_meets_BundlesIssueAsTheyDecode :
    Presents issuing 0 ∧
    (let c := issuing.ctx 0
     let b := decodeBundle (issuing.bundleAt 0 c.pc.toNat)
     let u := { issuing with cur := 0, iss := Iss.none }
     let ts := live (u.guard b.hdr c.steps) (todoOf b c.steps)
     illegalAt false false b = none ∧ u.privileged (todoOf b c.steps) = false ∧ issuing.breaks 0 c.pc.toNat b.hdr.stop = false ∧
     ts.length = 3 ∧ ∀ t ∈ ts, u.holdsBundle t = false) := by
  refine ⟨⟨⟨?_, ?_, ?_, ?_⟩, ?_⟩, ?_⟩ <;> decide +kernel

/-- The core of `issuing` with other bytes at address 0, and the context with another pc. -/
def presenting (pc : Word) (bs : List Byte) (thv : Word) : State := { issuing with
  ctxs := [(0, { ctx with pc := pc, thv := thv })]
  cores := [(0, { Core.init with running := some 0, smap := [(0, 7)], ispad := Mem.write [] 0 bs })]
  clusters := [(0, { Cluster.init with crew := some (1, 0), dbg := { Dbg.init with
    bp := vput Dbg.init.bp 7 0x8000000100000007, step := 1 } })] }

/-- The bundle of an MTC of THV alone. -/
def mtcThv : List Byte := leBytes 4 0x02000000 ++ leBytes 4 ((encode (.mtc 8 .thv)).getD 0).toNat
def presented : List State := [presenting 0x20000 [] 0x40, presenting 2 [] 0x40, presenting 0 (leBytes 4 0x007F0000) 0x40,
  presenting 0 (leBytes 4 0x02000000 ++ leBytes 4 0xFF000000) 0x40, presenting 0 mtcThv 0x40, presenting 0 (leBytes 4 0x00800000) 0x40]

/-- An address outside the halves, and one not aligned; a header of the guard p63; a syllable of a reserved code; an MTC of THV; and a
STOP bundle with the breakpoint 7 on its ordinal. The context is stepped. -/
theorem test_meets_PresentedBundlesTakeTheirStops :
    (∀ s ∈ presented, Turn s 0 ∧ Unrecorded s 0) ∧
    (presenting 0x20000 [] 0x40).fetchBad 0 0x20000 4 = true ∧ (presenting 2 [] 0x40).fetchBad 0 2 4 = true ∧
    illegalAt false false (decodeBundle (leBytes 4 0x007F0000)) = some (8, 6) ∧
    (illegalAt false false (decodeBundle (leBytes 4 0x02000000 ++ leBytes 4 0xFF000000))).isSome = true ∧
    (let b := decodeBundle mtcThv
     illegalAt false false b = none ∧ (todoOf b 0).map (·.instr) = [.mtc 8 .thv]) ∧
    (let s := presenting 0 (leBytes 4 0x00800000) 0x40
     let b := decodeBundle (s.bundleAt 0 0)
     illegalAt false false b = none ∧ ({ s with cur := 0, iss := Iss.none } : State).privileged (todoOf b 0) = false ∧
     b.hdr.stop = true ∧ s.ordinalAt 0 0 = 7 ∧ (s.ctx 0).skipBp = false ∧
     (let w := vget (s.cl 0).dbg.bp 7 0; w.getLsbD 63 = true ∧ w.getLsbD (32 + memberOf 0) = true ∧ bits w 31 0 = 7) ∧
     (s.cl 0).dbg.step.getLsbD (memberOf 0) = true ∧
     BundleEnds { s with iss := { Iss.none with mode := .bundle, len := 4 } }) := by
  refine ⟨?_, ?_⟩
  · intro s h
    have : ∀ s ∈ presented, (s.core (coreOf 0)).running = some (0 % 4) ∧
        ((s.core (coreOf 0)).fenced = false ∧ (s.core (coreOf 0)).frozen ≤ s.clock) ∧
        (s.presentable 0 = true ∧ (s.ctx 0).status = .ready) ∧
        ((s.ctx 0).async = none ∧ (s.ctx 0).phsw = none ∧ (s.ctx 0).waitPh = none ∧ (s.ctx 0).xfer = none ∧
          (s.ctx 0).loop = none ∧ (s.ctx 0).redo = none ∧ (s.ctx 0).pend = [] ∧ (s.ctx 0).tent = [] ∧ s.cbHeld 0 = false ∧
          (s.ctx 0).report = []) ∧ Unrecorded s 0 := by unfold Unrecorded; decide +kernel
    obtain ⟨h1, h2, h3, h4, h5⟩ := this s h
    exact ⟨⟨h1, h2, h3, h4⟩, h5⟩
  · unfold BundleEnds; decide +kernel

/-- A VALSET of p3 with a set that it took, and an LDV to s31 with its pair, landing and still to be performed. -/
def chk : Op := { op 0 0 with dests := [.p 3], wr := [⟨.p 3, 0⟩], check := some ⟨[⟨0, 4, 7⟩], false⟩, late := true }
def ldv (m : Option MemOp) : Op := { op 31 5 with ldv := if m.isNone then some ⟨0, 4, 7⟩ else none, mem := m }

theorem test_meets_ResultsLandInOrder :
    ((at_ { ctx with pend := [op 31 5] }).ctx 0).pend = [op 31 5] ∧ (op 31 5).landed = false ∧ (op 31 5).check = none ∧
    (op 31 5).mem = none ∧ (op 1 5).wr[0]? = some ⟨.s 1, (5 : Word).zeroExtend 256⟩ ∧ (op 1 5).dests = [.s 1] ∧
    (let p : Op := { op 1 5 with dests := [.s 1, .s 2], wr := [⟨.s 1, 5⟩, ⟨.s 2, 6⟩] }
     (op 1 5).wr.filter (·.reg == .s 1) = [⟨.s 1, 5⟩] ∧ p.wr.filter (·.reg == .s 1) = [⟨.s 1, 5⟩] ∧ .s 1 ∈ p.dests ∧
     p.wr[1]? = some ⟨.s 2, 6⟩ ∧ (p.wr.drop 2) = []) ∧
    (IsReg (.s 0) ∧ IsReg (.v 31) ∧ IsReg (.p 47) ∧ IsReg (.q 15) ∧ IsReg (.bt 3)) ∧
    (chk.landed = false ∧ chk.check = some ⟨[⟨0, 4, 7⟩], false⟩ ∧ chk.mem = none ∧ chk.wr = [⟨.p 3, 0⟩] ∧
     st.validates ⟨[⟨0, 4, 7⟩], false⟩ = true ∧ st.validates ⟨[⟨0, 4, 8⟩], false⟩ = false) ∧
    (let l := ldv none; l.landed = false ∧ l.mem = none ∧ l.check = none ∧ l.ldv = some ⟨0, 4, 7⟩ ∧ l.wr = [⟨.s 31, 5⟩]) ∧
    fenceOp.acq = true := by unfold IsReg; decide +kernel

theorem test_meets_ContextEventsComplete :
    (let x : Xfer := { xf .br 0x40 with val := some 1, arm_ := true, arm := true }
     let s := at_ { ctx with xfer := some x }
     (s.ctx 0).xfer = some x ∧ x.left = 0 ∧ (∀ o ∈ (s.ctx 0).pend, o.landed = true) ∧ (((1 : Byte).getLsbD 0) ^^ x.neg) = x.arm ∧
     (((1 : Byte).getLsbD 0) ^^ x.neg) ≠ { x with arm := false }.arm ∧
     s.breaks 0 0 false = false ∧ s.stepped 0 false = false ∧
     (let u := { presenting 0 [] 0 with ctxs := [(0, { ctx with xfer := some x, tent := [⟨0, true, false⟩] })] }
      (u.ctx 0).tent = [⟨0, true, false⟩] ∧ u.breaks 0 0 true = true ∧ (u.ctx 0).skipBp = false)) ∧
    (let x : Xfer := { xf .br 0x40 with arm_ := true }
     let s := { at_ { ctx with xfer := some x } with clock := 16, cores := [(0, { Core.init with running := some 0, stalled := some 0 })] }
     (s.ctx 0).brDone x = false ∧ (s.core 0).stalled = some 0 ∧ 0 + 16 ≤ s.clock ∧ (s.ctx 0).status = .ready) ∧
    (let e : CbEntry := ⟨0, 0xCA200000, 0, 0, 0, 0, 0, 0, true⟩
     let s := { st with cores := [(0, { Core.init with cbuf := [e] })] }
     (match decodeSyl .x e.syl with | .ok i => i | .error _ => .ifence) = .vecop .copy ∧ (s.releaseItem e (.vecop .copy)).blockedBy (.vecop .copy) = false) ∧
    (let s := { at_ { ctx with monitor := some ⟨4, 0, 16, false⟩, backoff := some 16 } with clock := 16 }
     (s.ctx 0).monitor = some ⟨4, 0, 16, false⟩ ∧ 0 + 16 ≤ s.clock ∧ (s.ctx 0).backoff = some 16) := by decide +kernel

/-- One record is written to the record area; a fatal cause; a stop in handler mode. -/
theorem test_meets_StopsEnterTheHandler :
    (let s := at_ { ctx with rqb := 0x1000 }
     let w : Written := ⟨0, 0, 0x10000000, 0, 0, 0, 1, 2, 0, 0, 0, none, [], 0, none⟩
     0x1F < 0x20 ∧ s.me.hm = false ∧ ((s.putRecords 0 s.me.rqb [w]).map fun u => (u.core (coreOf 0)).running_ s.me.thv.toNat) = some true) ∧
    (0x20 ≤ 0x20 ∧ (at_ { ctx with hm := true }).me.hm = true) := by decide +kernel

/-- A recorded operation alone, and before a completed one with the same destination; a faulting syllable. -/
theorem test_meets_RecordsHoldTheirOperations :
    (let o : Op := { op 31 5 with form := .recorded 1 2 false }
     let p : Op := { op 31 6 with step := 1 }
     Has (at_ { ctx with pend := [o] }) [o] ∧ Has (at_ { ctx with pend := [o, p] }) [o, p] ∧ o.form = .recorded 1 2 false ∧
     p.form = .completed ∧ o.landed = false ∧ p.landed = false ∧ o.sup = [] ∧ o.dests = [.s 31] ∧ p.dests = [.s 31] ∧ p.mem = none ∧
     p.check = none ∧ p.wr = [⟨.s 31, (6 : Word).zeroExtend 256⟩] ∧ IsReg (.s 31) ∧ o.slot < 8 ∧ o.step < p.step) ∧
    (Has st [] ∧ (st.sylFault 0x02 5 6 6 [.s 31]).xfer = none ∧ (st.sylFault 0x02 5 6 6 [.s 31]).slot < 8 ∧
     (st.sylFault 0x02 5 6 6 [.s 31]).cause < 256) := by
  unfold Has IsReg; decide +kernel

/-- The other things that a stop finds: a transfer, an LDF on its way, a released commit-buffer entry, and a PHSW whose phase has not
completed. -/
theorem test_meets_RecordsHoldTheirOperations_others :
    (let x := { xf .br 0x40 with p := 47, neg := true }
     let s := at_ { ctx with xfer := some x }
     Has (s.setMe { s.me with xfer := none }) [] ∧ s.me.xfer = some x ∧ x.left ≤ 2 ∧ x.lost = [] ∧ x.p < 48) ∧
    (let s := at_ { ctx with ldfs := [ldf .sent] }
     Has (s.setMe { s.me with ldfs := [] }) [] ∧ s.me.ldfs = [ldf .sent] ∧ (ldf .sent).at_ ≠ .answered ∧ (ldf .sent).gone = false) ∧
    (let e : CbEntry := ⟨0, 0xCA200000, 0, 1, 2, 0, 0, 0, true⟩
     let s := { st with cores := [(0, { Core.init with cbuf := [e] })] }
     s.me.pend = [] ∧ s.me.xfer = none ∧ s.me.ldfs = [] ∧ s.me.phsw = none ∧ (s.core (coreOf s.cur)).cbuf = [e] ∧ e.g = s.cur ∧
     e.released = true) ∧
    (let p : PhWait := ⟨0, 0x40, 0x3322, 0xD4000000, 0, 0x1000000000000040⟩
     let s := at_ { ctx with phsw := some p }
     Has (s.setMe { s.me with phsw := none }) [] ∧ s.me.phsw = some p ∧ (s.phswWait s.cur).2 = true) ∧
    tagOf 0x1000 = 0 ∧ st.locate 0 0x1000 32 permW = .home 0x1000 win 0 ∧ st.locate 0 0x100000000 32 permW = .bad 0x01 := by
  unfold Has; decide +kernel

theorem test_meets_EncodedInstructionsDecodeToThemselves :
    ((Instr.add 31 0 .bimm .n64).wf = true ∧ encode (.add 31 0 .bimm .n64) = some 0x107C0FB8) ∧
    ((Instr.nop true false 0 15 0xFFF).wf = true ∧ encode (.nop true false 0 15 0xFFF) = some 0x0080FFFF) := by decide +kernel

theorem test_meets_StepsKeepTheModuleLegal :
    Legal ({ State.reset with turn := 1 } : State) ∧ ∃ t, step { State.reset with turn := 1, agenda := [.throttle] } = .next t :=
  ⟨⟨by decide, by decide, by decide, by decide, by decide, by decide, by decide⟩, _, rfl⟩

theorem test_meets_NextOneTimeIndexNeverFalls : ∃ t, step { st with agenda := [.powerOnReset] } = .next t := ⟨_, rfl⟩

theorem test_meets_ManagementFieldsChangeByTheirEventsAlone : ∃ t, exec (.cfenceWrite 1) st = .next t := ⟨_, rfl⟩

/-- A registration at the owed phase, and eight registrations. -/
def phReg : PhReg := ⟨0, 0x40, 0⟩
def phSt (regs : List PhReg) : State := { at_ { ctx with regs := regs } with
  clusters := [(0, { Cluster.init with crew := some (1, 0), spad := [(0x48, 1)], active := [(0x40, ⟨0, 1, 0, 0⟩)] })] }

/-- A state after a command of an engine has taken its number and made its release: the `w` of CommandIssues. -/
def issued (s : State) (e : Nat) : State := (s.number 0 e).release 0 (.timeline e)

theorem test_meets_PhaserCommandsComplete :
    Issues st ∧ st.phPlace 0 (st.opA 4) = some (0, 0x40) ∧
    (let w := issued st 5; w.me.reg? (0, 0x40) = none ∧ w.me.regs.length < 8 ∧ (w.cl 0).broken.contains 0x40 = false) ∧
    (let w := issued (phSt (List.replicate 8 ⟨0, 0x80, 0⟩)) 5; w.me.reg? (0, 0x40) = none ∧ w.me.regs.length ≥ 8) ∧
    (let s := phSt [phReg]
     let w := issued s 5
     s.phPlace 0 (s.opA 4) = some (0, 0x40) ∧ w.me.reg? (0, 0x40) ≠ none ∧ s.held? (s.opA 4) = some phReg ∧
     w.me.reg? (0, 0x40) = some phReg ∧ (w.cl 0).broken.contains 0x40 = false ∧
     ((w.release 0 (.phaser 0 0x40)).cl 0).broken.contains 0x40 = false ∧ w.phGet 0 0x40 = ⟨0, 1, 0, 0⟩ ∧
     s.phRefused (s.opA 4) (.reg 9) = false) ∧
    st.held? (st.opA 4) = none ∧ st.phPlace 0 (st.opA 9) = none ∧ st.phRefused (st.opA 4) (.reg 0) = true ∧
    st.me.status = .ready := by unfold Issues; decide +kernel

/-- The worked sequence of R304: A's signal completes phase 0, and its PHDROP phases 1 and 2. -/
theorem test_worked_phaser :
    completed { (⟨0, 2, 1, 1⟩ : PhRec) with narr := 2 } = ⟨1, 2, 1, 0⟩ ∧
    completed { (⟨1, 2, 1, 1⟩ : PhRec) with nreg := 1 } = ⟨3, 1, 0, 0⟩ ∧
    PhRec.complete ⟨1, 1, 1, 1⟩ 2 = ⟨3, 1, 0, 0⟩ := by decide +kernel

/-- A pool of one ready task. -/
def pool : Pool := ⟨0, 0x1000, 0, [⟨some 0, 0, none, [], false, 0⟩], false, [win], 0⟩
def pooled (p : Option Pool) (t : Option Nat) : State := { at_ { ctx with task := t } with gangs := [{ gang with pool := p }] }

theorem test_meets_SynchronisationCommandsComplete :
    Issues st ∧ st.iss.ov = none ∧ st.iss.rec_ = none ∧
    (let s := at_ { ctx with s := vput (vput (vput ctx.s 10 3) 11 0x1000) 12 0x1000000100 }
     s.bindObj (bits (s.opB (.reg 12)) 37 35) (s.srcS 10 0) = some (.timeline 3) ∧ bits (s.opB (.reg 12)) 63 38 = 0 ∧
     bits (s.opB (.reg 12)) 34 32 ≤ 4 ∧ tagOf (s.srcS 11 2) = 0 ∧ s.me.bindCount < 16 ∧
     (match s.spans (s.srcS 11 2) (bits (s.opB (.reg 12)) 31 0) with | .ok l => l | .error _ => []) = [(0x1000, 0x100)]) ∧
    State.reset.gangOf 0 = none ∧ (pooled none none).gangOf 0 = some ({ gang with pool := none }, 0) ∧
    (pooled (some pool) (some 0)).me.task = some 0 ∧
    (∀ k ∈ ([{ pool.tasks.headD default with done := true }] : List TaskSt), k.done = true) ∧ (∃ k ∈ pool.tasks, k.done = false) ∧
    (let w := issued (pooled (some pool) none) 6
     w.gangOf 0 = some ({ gang with pool := some pool }, 0) ∧ w.me.task = none ∧
     w.firstTask { gang with pool := some pool } pool 0 = some 0 ∧
     w.firstTask { gang with pool := some pool } { pool with tasks := [⟨none, 0, some 4, [], false, 0⟩] } 0 = none) ∧
    (issued (pooled (some pool) (some 0)) 6).me.task = some 0 ∧ ({ pool with halted := true } : Pool).halted = true ∧
    (((issued (pooled (some pool) none) 6).release 0 .pool).commitTask 0).gangOf 0 = some ({ gang with pool := some pool }, 0) ∧
    (match st.spans (st.opA 6) 0x100 with | .ok l => l | .error _ => []) = [(0x1000, 0x100)] ∧ tagOf (st.opA 6) = 0 ∧
    pool.tasks[0]? = some ⟨some 0, 0, none, [], false, 0⟩ ∧ st.me.task = none := by unfold Issues; decide +kernel

/-- Context 0 with registers of an engine written. -/
def eng (e : Nat) (l : List (Nat × Word)) : State := at_ (l.foldl (fun c p => c.setEr e p.1 p.2) { ctx with world := 1 })
def keyed (s : State) : State := { s with trust := { s.trust with slots := [⟨1, 0, 0, some 0, some 0, some 0, 0, []⟩] } }

theorem test_meets_EngineCommandsAreCapturedOrRefused :
    (let s := eng 0 [(0, 0x1000000000000000), (2, 0x1000000000000FF0), (4, 0x80000), (11, 0x1000000000000FFE)]
     let c := s.capture 0 (.mma .bf16 .bf16)
     c.mmaOk .bf16 = true ∧ (s.tiles 0 (c.mmaTiles .bf16 .bf16 false)).isSome = true ∧
     (s.tiles 0 [(s.capture 0 (.accrd .bf16)).accTile .bf16]).isSome = true ∧
     s.tiles 0 [(s.capture 0 (.accrd .fp32)).accTile .fp32] = none ∧ (st.capture 0 (.mma .bf16 .bf16)).mmaOk .bf16 = false) ∧
    ((st.cl 0).holder ≠ some 0 ∧ ({ Cluster.init with holder := some 0 } : Cluster).holder = some 0) ∧
    (let s := eng 1 [(0, 0x1000000000000000), (1, 0x1000000000000000), (2, 0x100)]
     let c := s.capture 1 (.mgath .bf16)
     bits (c.reg 2) 63 16 = 0 ∧ bit (c.reg 2) 7 = false ∧ c.gLen * 8 % c.cont .bf16 = 0 ∧
     s.spdRange 0 (c.reg 0) (4 * c.gRows) = some (0, 3) ∧ (∀ e ∈ (s.core 0).tdt, e.cmd.g = 0 → ∀ o ∈ e.cmd.outs, meets (0, 3) o = false) ∧
     s.tiles 0 (c.gSources (s.cl 0).spad) = some [(0, 1)]) ∧
    (let s := eng 2 [(1, 0x1000000000000000), (4, 0x1000000000000000), (7, 0x1000000000000FFC), (10, 0xAAA)]
     ((s.capture 2 (.vecop .srnd)).vecTiles .srnd).map (fun t => (s.tiles 0 t.1, s.tiles 0 t.2)) = some (some [(0, 3)], some [(0xFFC, 0xFFF)])) ∧
    (let s := keyed (eng 3 [(1, 0x1000), (4, 0x1000000000000FF0), (7, 4)])
     let c := s.capture 3 .cpyd
     c.copyOk = true ∧ c.copyN = 1 ∧ (∀ t < c.copyN, (s.elemPlace c false t).good = true ∧ (s.elemPlace c true t).good = true) ∧
     s.cpydOk c = true ∧ ((eng 3 [(7, 9)]).capture 3 .cpy).copyOk = false) ∧
    (let s := { eng 4 [(0, 0x1000), (1, 0x1000000000000000), (2, 0x1000000000000FFC), (3, 1), (4, 0xA)] with
       slices := [(4, { Slice.init with lines := [(4, { line with data := [(0, 1)] })] })] }
     let c := s.capture 4 (.coll .fp32 .bcast)
     c.collRegsOk = true ∧ (s.readGroup c).2 = some [0] ∧ ([(0 : Word)])[c.collRank]? = some 0 ∧ (s.readGroup c).1.names 0 0 = true ∧
     (∀ x ∈ c.collIns, (s.readGroup c).1.collTile c permR x = true) ∧ ∀ x ∈ c.collOuts 1, (s.readGroup c).1.collTile c permW x = true) ∧
    (let s := eng 8 [(0, 0x1000), (1, 0x1008)]
     let c := s.capture 8 .bmsg
     tagOf (c.reg 0) = 0 ∧ (c.reg 1).toNat % 8 = 0 ∧ s.tilePlace c (c.reg 0) 1 permR = .home 0x1000 win 0 ∧
     s.tilePlace c (c.reg 1) 8 permW = .bad 0x21 ∧ s.tilePlace { c with world := 0 } (c.reg 1) 8 permW = .home 0x1008 win 0) ∧
    Issues st ∧ st.iss.ov = none ∧ st.check 0 (st.srcS 4 0 + 8 * (0xFFF : BitVec 12).signExtend 64) 8 8 [1, 2, 3] permR false = .bank 0 0x38 ∧
    st.unsettled 0 0x38 8 = false := by unfold Issues; decide +kernel

/-- A COLL with nothing before it, one behind a FENCE and one behind a CBSYNC; and one whose group record names another context. -/
theorem test_meets_EngineCommandsAreCapturedOrRefused_groups :
    let s := fun (pend : List Op) (n : Nat) =>
      { eng 4 [(0, 0x1000), (1, 0x1000000000000000), (2, 0x1000000000000FFC), (3, 1), (4, 0xA)] with
        ctxs := [(0, { ((eng 4 [(0, 0x1000), (1, 0x1000000000000000), (2, 0x1000000000000FFC), (3, 1), (4, 0xA)]).ctx 0) with pend := pend })]
        slices := [(4, { Slice.init with lines := [(4, { line with data := [(0, 1), (9, BitVec.ofNat 8 n)] })] })] }
    let c := (s [] 0).capture 4 (.coll .fp32 .bcast)
    let o := fun m => [{ op 0 0 with dests := [], wr := [], mem := some m }]
    c.collRegsOk = true ∧ ((s [] 0).grouped c).2.isSome = true ∧ ((s [] 1).grouped c).2 = none ∧
    ((s [] 0).mustHold 0 [] ((s [] 0).syncOp 4 0 (.submit c)) = false ∧ (s [] 0).spansWait 0 ((s [] 0).collSpans c c.collIns) = false) ∧
    ((∀ m ∈ heldIn (s (o fenceOp) 0).me.pend, m.isCbsync = false) ∧
      (s (o fenceOp) 0).mustHold 0 (heldIn (s (o fenceOp) 0).me.pend) ((s [] 0).syncOp 4 0 (.submit c)) = true) ∧
    (∃ m ∈ heldIn (s (o cbsync) 0).me.pend, m.isCbsync = true) := by decide +kernel

/-- A command of an engine in the table of core 0, and the cluster with the lease held by context 0 at the last command and clock of
its run. -/
def cmd (e : Nat) (i : Instr) : Cmd := { st.capture e i with n := 1 }
def table (es : List TdtEntry) (x : Cluster) : State := { st with
  cores := [(0, { Core.init with tdt := es })], clusters := [(0, x)], clock := 8191 }
def leased : Cluster := { Cluster.init with crew := some (1, 0), holder := some 0, runN := 63 }
def rank (n : Nat) (f : Bool) : RemoteRank := ⟨1, [], n, 0, 0, [], [], f⟩

theorem test_meets_EngineCommandsStartAndComplete :
    (let s := table [⟨cmd 0 .accz, false⟩] { leased with mq := List.replicate 15 (cmd 0 .accz) }
     Ready s 0 0 (cmd 0 .accz) ∧ (cmd 0 .accz).g / 4 = 0 ∧ (s.cl 0).holder = some 0 ∧ (s.cl 0).runN < 64 ∧ s.clock - (s.cl 0).runT < 8192 ∧
     (s.cl 0).mq.length < 16) ∧
    Ready (table [⟨cmd 0 .accz, false⟩] Cluster.init) 0 0 (cmd 0 .accz) ∧ Ready (table [⟨cmd 2 (.vecop .copy), false⟩] leased) 0 0 (cmd 2 (.vecop .copy)) ∧
    Ready (table [⟨cmd 4 (.coll .fp32 .asum), false⟩] leased) 0 0 (cmd 4 (.coll .fp32 .asum)) ∧
    (Ready (table [⟨cmd 3 .cpy, false⟩] leased) 0 0 (cmd 3 .cpy) ∧ (table [⟨cmd 3 .cpy, false⟩] leased).boardRoom (cmd 3 .cpy) = true) ∧
    ((List.range 16).map (ctxOfMember 0)).find? (fun h => [8, 4].contains h) = some 4 ∧
    (let s := { table [] { leased with runN := 64, reqs := [4] } with clock := 8192 }
     (s.cl 0).paired = false ∧ 64 ≤ (s.cl 0).runN ∧ 8192 ≤ s.clock - (s.cl 0).runT ∧ s.nextRequester 0 (memberOf 0) = some 4 ∧
     (table [] { leased with runN := 64 }).nextRequester 0 (memberOf 0) = none) ∧
    (let s := { at_ { ctx with blocked := some 0 } with clusters := [(0, { leased with reqs := [4] })], clock := 256 }
     (s.ctx 0).blocked = some 0 ∧ 256 ≤ s.clock - 0 ∧ (∀ c ∈ (s.cl 0).mq, c.g ≠ 0) ∧ s.nextRequester 0 (memberOf 0) = some 4) ∧
    (let s := table [⟨cmd 0 (.mma .bf16 .bf16), true⟩] { leased with mq := [cmd 0 (.mma .bf16 .bf16)], vq := [cmd 2 (.vecop .copy)] }
     (s.cl 0).mq = [cmd 0 (.mma .bf16 .bf16)] ∧ (s.ctx 0).done = [] ∧ (cmd 0 .accz).n = vget (s.ctx 0).tl 0 0 + 1 ∧
     (s.cl 0).vq = [cmd 2 (.vecop .copy)]) ∧
    (table [⟨cmd 3 .cpy, true⟩] leased |>.core 0).tdt[0]? = some ⟨cmd 3 .cpy, true⟩ ∧
    (let w : CollWait := ⟨0, 0, 0, { cmd 4 (.coll .fp32 .bcast) with aux := [0] }⟩
     let s := { st with colls := [w] }
     (s.colls.filter fun x => x.seq == 0) = [w] ∧ collMismatch [w] [rank 5 false] = true ∧ collMismatch [w] [] = false ∧
     [rank 5 true].any (·.failed) = true ∧ (inRankOrder w.cmd.aux.length (({ s with colls := [] } : State).collParts [w]).2).isSome = true) ∧
    ((table [⟨cmd 9 .ifill, false⟩] leased).core 0).tdt.find? (fun e => e.cmd.eng == 9) = some ⟨cmd 9 .ifill, false⟩ := by
  unfold Ready
  refine ⟨⟨⟨_, rfl, rfl, by decide +kernel⟩, by decide +kernel⟩, ⟨_, rfl, rfl, by decide +kernel⟩, ⟨_, rfl, rfl, by decide +kernel⟩,
    ⟨_, rfl, rfl, by decide +kernel⟩, ⟨⟨_, rfl, rfl, by decide +kernel⟩, by decide +kernel⟩, ?_⟩
  decide +kernel

/-- MLEASE and MFREE from the holder; matrix commands of one row and column; an MGATH with its row in the scratchpad and one beyond
it; a copy of one element to where it reads nothing; collectives that end; a stream of no bundle. -/
theorem test_meets_EngineCommandsStartAndComplete_results :
    ([.mlease, .mfree].all fun i =>
      let s := table [⟨cmd 0 i, false⟩] leased
      ((s.core 0).tdt[0]?.map (·.cmd)) == some (cmd 0 i) && startable (s.core 0).tdt 0 && !(s.cl 0).paired &&
        decide ((s.cl 0).runN < 64) && !(s.ctx 0).ended) = true ∧
    (0 < (cmd 0 (.accrd .fp32)).rows ∧ 0 < (cmd 0 (.accrd .fp32)).cols ∧ (cmd 0 (.accrd .fp32)).taint = [] ∧
     (cmd 0 (.accrd .fp32)).rows = 1 ∧ (cmd 0 (.accwr .fp64)).cols ≤ 64) ∧
    ([0x1000000000000000, 0x1000000000001000].map fun b =>
      let s := eng 1 [(0, 0x1000000000000000), (1, b)]
      let c := s.capture 1 (.mgath .bf16)
      decide (0 < c.gRows ∧ 0 < c.gLen) && (s.tiles 0 (c.gSources (s.inMem c))).isSome) = [true, false] ∧
    (let s := eng 3 [(1, 0x1000000000000000), (4, 0x1000000000000FF0), (7, 3)]
     let c := s.capture 3 .cpy
     c.copyN = 1 ∧ s.elemsWait c ((List.range c.copyN).map fun t => (s.elemPlace c true t, List.replicate c.esz 0)) = false ∧
     (s.copyReads c c.copyN 0).2[0]? = some (leBytes 8 0) ∧
     (s.elemPlace c false 0).key + c.esz ≤ (s.elemPlace c true 0).key) ∧
    (let e : CollEnd := ⟨0, 1, [4]⟩
     [e].find? (fun e => e.seq == 0) = some e ∧ e.seq = 0 ∧ e.stat = 1 ∧ st.collEnds.find? (fun e => e.seq == 0) = none ∧
     st.collPutWaits (cmd 4 (.coll .fp32 .bcast)) = false) ∧
    (let s := { eng 9 [(0, 0x1000), (3, 4)] with slices := [(4, { Slice.init with lines := [(4, { line with data := [(3, 0xC0)] })] })] }
     let c := s.capture 9 .ifill
     (runUnits c (bits (c.reg 3) 16 0 / 4 + 2) (c.reg 0) ⟨s, [], none⟩).stat = some 0 ∧ coreOf c.g = 0) := by decide +kernel

/-- An MMA of one cell, a VECOP, and a collective of one rank with its tile in the scratchpad; a first factor of exp2 and a mantissa
of rcp; infinities of both signs, a NaN, a zero and an anchor. -/
theorem test_meets_EngineSumsFollowTheirRules :
    (let s := eng 0 [(0, 0x1000000000000000), (2, 0x1000000000000FF0), (4, 0x80000), (11, 0x1000000000000FFE)]
     let c := s.capture 0 (.mma .bf16 .bf16)
     c.taint = [] ∧ c.mmaOk .bf16 = true ∧ accOf .bf16 = .f32 ∧ accOf .fp64 = .f64) ∧
    ((cmd 2 (.vecop .rsum)).taint = [] ∧ reduces .rsum = true ∧ reduces .srnd = false) ∧
    (vecRow 0x3F800000 0xFFFFFFFF 0 .axpy).isSome = true ∧ fp32.isNan 0x7F800001 = true ∧ fp32.isNan 0x7F800000 = false ∧
    ((match fp32.val 0xBF400000 with | .fin n m e => n && dyLe m e 150 0 | _ => false) = true ∧
     (match fp32.val 0x42FFFFFF with | .fin n m e => !n && !(dyLe 128 0 m e) && dyEq m e 0xFFFFFF (6 - 23) | _ => false) = true) ∧
    (SumNan [.inf true, .inf false] ∧ SumNan [.nan false] ∧ ¬SumNan [.fin false 0 0, .inf true]) ∧
    (dyLe 1 (0 + 1) 1 0 = false ∧ dyLe 1 0 1 0 = true) ∧
    (let c := (eng 4 [(2, 0x1000000000000000), (3, 1)]).current ((eng 4 [(2, 0x1000000000000000), (3, 1)]).capture 4 (.coll .fp32 .bcast))
     c.taint = [] ∧ c.collWrites = true ∧ tagOf (c.reg 2) = 1 ∧
     (eng 4 [(2, 0x1000000000000000), (3, 1)]).tilePlace c (c.reg 2) 4 permW = .bank 0 0) := by
  unfold SumNan; decide +kernel

/-- st with a transaction of line 4 that waits. -/
def late : State := { inL1 with late := [.atom 0x1000 0 0 0 0 0 true 1], ctxs := [(0, { ctx with ldfs := [ldf .sent] })] }

theorem test_meets_MemoryEventsComplete :
    (let fs : List Fill := [⟨0x1000, 0, 0, 0, 0⟩, ⟨0x1100, 0, 0, 0, 0⟩]
     let s := { st with slices := [(4, { Slice.init with lines := [(4, line)], fills := fs })] }
     (s.slice 4).fills[0]? = some ⟨0x1000, 0, 0, 0, 0⟩ ∧ (s.slice 4).fills[1]? = some ⟨0x1100, 0, 0, 0, 0⟩ ∧
     s.hasSector 0x1000 = true ∧ s.hasSector 0x1100 = false) ∧
    ((inL1.core 0).l1[0]? = some (0x1000, held) ∧ (inL1.core 0).l1.get? 0x1000 = some held ∧ held.bufs = [] ∧
     inL1.l1Waits 0 0x1000 (BitVec.allOnes 256) = false ∧
     ({ held with bufs := [⟨0, 1, [(0, 1)], 3⟩] } : L1Line).bufs ≠ [] ∧
     (let s := { late with cores := [(0, { Core.init with l1 := [(0x1000, { held with dirty := 1, pdata := [(0, 1)] })] })] }
      s.l1Waits 0 0x1000 (BitVec.allOnes 256) = true)) ∧
    ((late.ctx 0).ldfs[0]? = some (ldf .sent) ∧ (ldf .sent).at_ = .sent ∧ late.ldfWaits 0 (ldf .sent) = true ∧
     ({ late with late := [] } : State).ldfWaits 0 (ldf .sent) = false) ∧
    ((at_ { ctx with ldfs := [ldf .answering] }).ctx 0).ldfs[0]? = some (ldf .answering) ∧ 0 < (ldf .answering).dest ∧ (ldf .answering).dest < 32 ∧
    64 ≤ { comb with count := 64 }.count ∧ comb.since + 4096 ≤ ({ combSt with clock := 4096 } : State).clock ∧
    (let s := { st with mg := { st.mg with postponed := [(1, 7), (2, 8)], tbusy := true } }
     s.mg.postponed.get (0 * 2 ^ 16 + 1) 0 < 8 ∧ 8 ≤ s.mg.postponed.get (0 * 2 ^ 16 + 2) 0 ∧ s.mg.ready = true ∧ s.mg.tbusy = true) ∧
    (st.slice (homeSlice 0x1000)).lines.get? (0x1000 / 1024) = some line ∧ line.filled.getLsbD (0x1000 / 256 % 4) = true := by
  decide +kernel

/-- A message, an image that takes it, and a slice with them. -/
def bev (kind : Nat) : BEvent := ⟨kind, 0x1000, 0, 0, 0, 0, 15, 0, 1, 0⟩
def image : Image := ⟨15, [], [some 0, some 0, some 0, some 0], true⟩
def badger (x : Slice) (clk : Nat) : State := { st with slices := [(4, x)], refClock := clk }
def core0 : Rv := ⟨0, Vector.replicate 32 0, none⟩
def handler (kind : Nat) (req : Option PortReq) : Handler := ⟨bev kind, 0, core0, req, 0x1008, 0x1008, none, false⟩
def busy (kind : Nat) (req : Option PortReq) : Slice := { Slice.init with
  lines := [(4, line)], images := [(0, image)], handler := some (handler kind req), overrun := vput Slice.init.overrun 15 15 }

/-- One instruction of each outcome: C.NOP, an illegal one, LD a0, 0(a1), and SD a0, 0(a1), with a1 at the ports. -/
def atPorts (bs : List Byte) : RvRes := rvStep 0 8192 (Mem.write [] 0 bs) { core0 with x := vput core0.x 11 0x80000010 }

theorem test_meets_BadgerEventsComplete :
    ((busy 0 none).takes 15 3 = true ∧ Slice.init.takes 15 3 = false ∧ (List.replicate 31 (bev 3)).length < 32 ∧
     32 ≤ (List.replicate 32 (bev 3)).length ∧ (bev 3).kind = 3 ∧ (bev 0).kind ≠ 3) ∧
    ((busy 0 none).imageOf 15 = some (0, image) ∧ image.enabled = true ∧ image.entries[(bev 3).kind]? = some (some 0) ∧
     Slice.init.takes (bev 3).tenant (bev 3).kind = false ∧ Slice.init.handler = none) ∧
    ((match atPorts [1, 0] with | .next _ n => (n.get 9000 == 0) | _ => false) = true ∧ atPorts [0, 0] = .bad ∧
     (match atPorts [0x03, 0xB5, 0x05, 0] with | .load 0x10 10 _ => true | _ => false) = true ∧
     (match atPorts [0x23, 0xB0, 0xA5, 0] with | .store 0x10 0 _ => true | _ => false) = true) ∧
    (let s := badger (busy 0 none) 2730
     let h := handler 0 none
     (s.slice 4).handler = some h ∧ (s.refClock - h.since) * 3 / 4 = 2047 ∧ h.req = none ∧
     2048 ≤ ((badger (busy 0 none) 2731).refClock - h.since) * 3 / 4 ∧
     s.portWorld 4 h 0x1001 = none ∧ s.portWorld 4 h 0x1008 = some 0 ∧
     s.txnWaits (badgerAcc 0 15 0) (cellsAt 0x1008 (leBytes 8 5)) true = false ∧
     ({ s with late := [.atom 0x1000 0 0 0 0 0 true 1] } : State).txnWaits (badgerAcc 0 15 0) (cellsAt 0x1008 (leBytes 8 5)) true = true ∧
     (s.writeTxn (badgerAcc 0 15 0) (cellsAt 0x1008 (leBytes 8 5)) true).2 = .ok () ∧
     (let t := s.bring 0x1008 (badgerAcc 0 15 0) false false true; (match t.2 with | .ok r => t.1.badSector 0x1008 r | _ => true) = false) ∧
     s.lineWorld 0x1000 = some 0 ∧ (s.page 0x1000 false 0).isSome = true ∧ s.ownsWorld 15 0 = true) ∧
    ([.rdata 10, .wdata 5, .pfetch 0x1000, .done, .abort].all fun q => ((badger (busy 3 (some q)) 0).slice 4).handler = some (handler 3 (some q))) = true ∧
    (let s := { badger { busy 0 none with lines := [(4, { line with world := 2 })] } 0 with
       trust := { st.trust with slots := [⟨2, 15, 0, none, none, none, 0, []⟩] } }
     s.portWorld 4 (handler 0 none) 0x1008 = some 2) := by decide +kernel

/-- The 16th abort: the counter at 15, and a queue of the tenant with a free journal entry. -/
theorem test_meets_BadgerEventsComplete_sixteenth :
    (let x := busy 3 (some .abort)
     (handler 3 (some .abort)).ev.tenant < 16 ∧ vget x.overrun 15 0 = 15 ∧ vget Slice.init.overrun 15 0 ≠ 15 ∧
     (handler 3 (some .abort)).req = some .abort) ∧
    (let u := { st with mg := { st.mg with queues := [(0, ⟨0x8000000000000000, 4, 0, 1, 0xF1, 0x8000000000010000, 4, 0, 0, 0, false, [], []⟩)] } }
     u.noticeQueue 15 = some 0 ∧ (u.queue 0).jfree ≠ 0) := by decide +kernel

/-- A queue with a ring and a journal in host memory, and commands; a gang that waits in it. -/
def que (cs : List QCmd) : Queue := ⟨0x8000000000000000, 4, 0, 1, 1, 0x8000000000010000, 4, 0, 0, 0, false, [], cs⟩
def qcmd (op : Nat) (started : Bool) : QCmd :=
  ⟨op, 0, BitVec.ofNat 8 op :: leBytes 15 0 ++ leBytes 8 0x1000 ++ leBytes 8 0x2000 ++ leBytes 8 64 ++ leBytes 24 0, 2, started⟩
def waiter (bs : List Byte) : Gang := { gang with id := 2, rec_ := ⟨bs⟩, phase := .waiting, head := some 0, tested := false, block := [] }
def queued (cs : List QCmd) (x : Gang) : State := { st with
  gangs := [gang, x], mg := { st.mg with queues := [(0, que cs)], owners := [(0, 0x80)] } }

theorem test_meets_QueueCommandsComplete :
    (st.mg.ready = true ∧ 63 < 64 ∧ (queued [] gang).nextRead 0 = some 0 ∧
     ((queued [] gang).ringRead 0 (que []).base 0 64).2 = some (List.replicate 64 0) ∧
     (({ queued [] gang with hostBad := [0] } : State).ringRead 0 (que []).base 0 64).2 = none) ∧
    (let c := qcmd 1 false
     let s := fun bs => queued [c] (waiter bs)
     (s []).journalled 0 = some c ∧ c.op = 1 ∧
     (s []).gang? c.gid = some (waiter []) ∧ fld c.bytes 16 8 % 64 = 0 ∧ ([] : List Byte).length ≠ 192 ∧
     (LaunchRec.mk (leBytes 192 0)).fieldsOk = false ∧ rec_.bytes.length = 192 ∧ rec_.fieldsOk = true ∧ rec_.roomOk = true ∧
     (LaunchRec.mk (rec_.bytes.take 27 ++ [0x40] ++ rec_.bytes.drop 28)).roomOk = false ∧
     ({ st with trust := { st.trust with slots := List.replicate 64 ⟨2, 0, 0, none, none, none, 0, []⟩ } } : State).slotsFull 1 = true ∧
     st.slotsFull 0 = false ∧ fld (rec_.bytes.take 104 ++ [1] ++ rec_.bytes.drop 105) 104 8 ≠ 0 ∧ (st.slice 0 |>.imageOf 0).isNone = true ∧
     (badger Slice.init 0).imagesFull = false ∧
     ({ st with slices := [(0, { Slice.init with images := (List.range 8).map fun i => (i, image) })] } : State).imagesFull = true ∧
     ((s rec_.bytes).readWintab (waiter rec_.bytes)).2.isSome = true ∧
     (({ s rec_.bytes with mg := Mgmt.init } : State).readWintab (waiter rec_.bytes)).2 = none) ∧
    ([2, 3, 4, 5].all fun o => (queued [qcmd o false] gang).starting 0 o = some (qcmd o false)) = true ∧
    ([2, 4].all fun o => (queued [qcmd o true] gang).inFlight 0 o = some (qcmd o true)) = true ∧
    ((queued [] gang).queue 0).jbad = false ∧ bit ((queued [] gang).queue 0).jbase 63 = true := by decide +kernel

/-- A SIGNAL, a COPY and a journal entry whose write the memory side holds, and one behind another entry. -/
theorem test_meets_QueueCommandsComplete_waits :
    (let s := { queued [qcmd 3 true, qcmd 4 true] gang with late := [.atom 0x1000 0 0 0 0 0 true 1, .atom 0x2000 0 0 0 0 0 true 1] }
     let c := qcmd 3 true
     s.inFlight 0 3 = some c ∧ (queued [qcmd 3 false] gang).inFlight 0 3 = none ∧ (queued [qcmd 3 false] gang).starting 0 3 = some (qcmd 3 false) ∧
     s.txnWaits (unitFor 0) (cellsAt (fld c.bytes 16 8) (leBytes 8 (fld c.bytes 24 8))) false = true ∧
     st.txnWaits (unitFor 0) (cellsAt (fld c.bytes 16 8) (leBytes 8 (fld c.bytes 24 8))) false = false ∧
     s.inFlight 0 4 = some (qcmd 4 true) ∧ s.copyWaits 0 (BitVec.ofNat 64 (fld c.bytes 24 8)) (fld c.bytes 32 8) = true ∧
     st.copyWaits 0 (BitVec.ofNat 64 (fld c.bytes 24 8)) (fld c.bytes 32 8) = false ∧
     s.ringWaits 0 0x1000 0 (leBytes 32 0) = true) ∧
    ({ que [] with jwait := [leBytes 32 0] } : Queue).jwait ≠ [] := by decide +kernel

/-- A launch's text at IA 0: a stream of no bundle, zeros that are no stream, and a sealed object of a wrong version; the last for
world 1. -/
def textSt (bs : List Host.Cell) : State := { queued [qcmd 1 false] (waiter rec_.bytes) with
  slices := [(0, { Slice.init with lines := [(0, { line with data := bs })] })] }
def sealed : LaunchRec := ⟨rec_.bytes.take 22 ++ [1] ++ rec_.bytes.drop 23⟩
def textKind (s : State) (r : LaunchRec) : Nat × Nat :=
  match (s.textOf r).2 with
  | .ok _ => (0, 0)
  | .error (.fill v) => (1, v.toNat)
  | .error (.refused k _) => (2, k)
  | .error .waits => (3, 0)

theorem test_meets_QueueCommandsComplete_texts :
    textKind (textSt [(3, 0xC0)]) rec_ = (0, 0) ∧ textKind (textSt []) rec_ = (1, 2) ∧
    (sealed.fieldsOk = true ∧ sealed.roomOk = true ∧ textKind (textSt [(0, 0x47), (1, 0x51), (2, 0x4F)]) sealed = (2, 1)) ∧
    (textSt [(3, 0xC0)]).headCmd 0 = some (qcmd 1 false) ∧ (qcmd 1 false).op = 1 := by decide +kernel

/-- The crew's four contexts in a status. -/
def crewIn (c : Ctx) (x : Gang) : State := { st with ctxs := [(0, c), (4, c), (8, c), (12, c)], gangs := [x] }

theorem test_meets_GangEventsComplete_launches :
    (let x : Gang := { waiter rec_.bytes with tested := true }
     let s := { queued [qcmd 1 false] x with clock := 4194305 }
     s.gang? 2 = some x ∧ (s.eligible x).isSome = true ∧
     (∀ y ∈ s.gangs, y.tenant = x.tenant → y.id ≠ x.id → y.reserving = false ∧ s.before2 y x = false) ∧ s.bestBlock x = some [0] ∧
     (({ s with clusters := [] } : State).mayPlace 2 .waiting) = some (x, [0]) ∧
     (({ s with clusters := [], gangs := [{ x with phase := .saved }] } : State).mayPlace 2 .saved) = some ({ x with phase := .saved }, [0])) := by decide +kernel

theorem test_meets_GangEventsComplete :
    (let s := crewIn { ctx with status := .exited } gang
     s.gang? 1 = some gang ∧ gang.ctxs = [0, 4, 8, 12] ∧ ∀ g ∈ gang.ctxs, (s.ctx g).status = .exited ∧ s.quiet g = true) ∧
    (let s := crewIn { ctx with status := .fatal } gang
     (s.ctx 12).status = .fatal ∧ s.gangOf 12 = some (gang, 0) ∧ (s.ctx 12).task = none) ∧
    (let s := { st with slices := [(4, { Slice.init with lines := [(4, { line with data := [] })] })] }
     s.mg.ready = true ∧ s.mg.pstate ≠ 1 ∧ (s.objBytes 0x1000 64).2 = some (List.replicate 64 0) ∧
     s.named 0 0 = some gang ∧ zeros (List.replicate 64 0) 9 15 = true ∧ zeros (List.replicate 64 0) 36 63 = true ∧ (s.drainTable 0 0).2 = some []) ∧
    (let x := { gang with phase := .draining, dtab := [(0, 4, 0x40)] }
     let s := crewIn ctx x
     s.gangOf 0 = some (x, 0) ∧ (s.ctx 0).hm = false ∧ (s.ctx 0).status = .ready ∧ (s.ctx 0).waitPh = none ∧
     stubOf x.dtab (s.ctx 0).nextPc = some 0x40 ∧ stubOf x.dtab 4 = none) ∧
    (let x := { gang with phase := .draining }
     let s := crewIn { ctx with status := .drained } x
     s.gang? 1 = some x ∧ x.block[0]? = some 0 ∧ x.saved.get? 0 = none ∧ x.rec_.flags % 2 = 0 ∧
     (List.range x.rec_.crewSize).map (ctxOfMember 0) = [0, 4, 8, 12] ∧
     (∀ g ∈ [0, 4, 8, 12], (s.ctx g).drained = true ∧ s.quiet g = true) ∧ s.collSeqs [0, 4, 8, 12] = []) ∧
    (let x := { gang with phase := .draining }
     let s := crewIn { ctx with status := .drained } x
     s.settled [0, 4, 8, 12] ((List.range 4).map (0 * 4 + ·)) [0] = true) ∧
    (let s := crewIn { ctx with status := .exited } gang
     s.settled gang.ctxs gang.cores gang.block = true) ∧
    st.gangOf (255 * 4) = none := by decide +kernel

/-- A LAUNCH that reserves a block of which its tenant no longer owns a cluster, with another block to be had and with none. -/
theorem test_meets_GangEventsComplete_reserved :
    (let x : Gang := { waiter rec_.bytes with tested := true, reserving := true, target := [1] }
     let s := { queued [qcmd 1 false] x with clusters := [], gangs := [x] }
     s.gang? 2 = some x ∧ x.waits = true ∧ x.reserving = true ∧ s.owned x.tenant 1 = false ∧ s.bestBlock x = some [0] ∧
     ({ s with mg := { s.mg with owners := [] } } : State).bestBlock x = none) := by decide +kernel

/-- A stage of bring-up, and a clock. -/
def stage (k : Nat) : State := { st with mg := { st.mg with ready := false, stage := k } }
def clocked (f : Nat) : State := { st with mg := { st.mg with clkMHz := f } }

theorem test_meets_DeviceEventsComplete :
    ([1, 4, 5, 6].all fun k => decide ((stage k).mg.ready = false ∧ (stage k).mg.fail = false ∧ 1 ≤ (stage k).mg.stage ∧ (stage k).mg.stage ≤ 6)) = true ∧
    ((clocked 900).mg.ready = true ∧ 800 < (clocked 900).mg.clkMHz ∧ (clocked 1500).mg.clkMHz < 1600 ∧ ({ st with clock := 65536 } : State).clock % 65536 = 0) ∧
    (400 ≤ (1800 : Word).toNat ∧ (1800 : Word).toNat ≤ 1800 ∧ 400 ≤ (400 : Word).toNat) ∧
    (stage 6).mg.ready = false ∧ (0x200000 + 0x1000 < 0x201000 + 8) ∧ st.vfOn 0 = false ∧
    ({ st with mg := { st.mg with pcie := [(0, { PcieFn.init with sriov := 0x00100001 })] } } : State).vfOn 15 = true ∧
    (let e : CntEv := ⟨4, 0, 0x40, 7, false, 6⟩
     let w := 0x00010004FFFFFFFF
     let s := { st with clusters := [(0, { Cluster.init with dbg := { Dbg.init with cnt := vput Dbg.init.cnt 3 (BitVec.ofNat 64 w) } })] }
     (vget (s.cl (clusterOf e.g)).dbg.cnt 3 0).toNat = w ∧ w / 2 ^ 32 % 16 = e.ev ∧ w.testBit (48 + memberOf e.g) = true ∧
     w % 2 ^ 32 = 2 ^ 32 - 1) ∧
    takeFirst (fun h : Hit => h.cnt == 3) [⟨3, 0, 0, 0, 0, 0⟩] = some (⟨3, 0, 0, 0, 0, 0⟩, []) ∧
    takeFirst (fun h : Sample => h.cnt == 3) [⟨3, 0, 0, 0, 0⟩] = some (⟨3, 0, 0, 0, 0⟩, []) ∧
    bits Cluster.init.dbg.retBase 51 6 = 0 ∧ bits (0x40 : Word) 51 6 ≠ 0 ∧
    (∀ o ∈ (st.ctx 0).pend, o.landed = true) ∧ (∀ l ∈ (st.ctx 0).ldfs, l.at_ = .answered) ∧ (List.replicate 8 (2 : BitVec 16)).length = 8 ∧
    ((List.replicate 8 (2 : BitVec 16)).map (·.toNat)).foldl (· + ·) 0 ≤ (16 : BitVec 32).toNat := by
  decide +kernel

theorem test_meets_DecodedWordsAreTheirEncodings :
    classOf (opOf 0x107C0FB8) = some Slot.a0.cls ∧ (decodeSyl .a0 0x107C0FB8).toOption = some (.add 31 0 .bimm .n64) := by decide +kernel

theorem xor_length : ∀ a b : List Byte, (xorBytes a b).length = min a.length b.length
  | [], _ => by simp [xorBytes]
  | _ :: _, [] => by simp [xorBytes]
  | _ :: xs, _ :: ys => by simp [xorBytes, xor_length xs ys]

theorem keyWords_lengths : ∀ (n i : Nat) (rc : Byte) (ws : List (List Byte)), 8 ≤ ws.length → (∀ w ∈ ws, w.length = 4) →
    (keyWords n i rc ws).length = ws.length + n ∧ ∀ w ∈ keyWords n i rc ws, w.length = 4
  | 0, _, _, ws, _, h => by simpa [keyWords] using h
  | n + 1, i, rc, ws, hn, h => by
    have hp : (ws.headD []).length = 4 := by
      cases ws with
      | nil => simp at hn
      | cons a r => exact h a (by simp)
    have ho : (ws.getD 7 []).length = 4 := by
      rw [List.getD_eq_getElem?_getD, List.getElem?_eq_getElem (by omega)]; exact h _ (List.getElem_mem _)
    have hx : ∀ t : List Byte, t.length = 4 → (xorBytes (ws.getD 7 []) t).length = 4 := by
      intro t ht; rw [xor_length, ho, ht]; rfl
    have hm : ((ws.headD []).map sbox).length = 4 := by simpa using hp
    have key : ∀ (rc : Byte) (t : List Byte), t.length = 4 →
        (keyWords n (i + 1) rc (xorBytes (ws.getD 7 []) t :: ws)).length = ws.length + (n + 1) ∧
        ∀ w ∈ keyWords n (i + 1) rc (xorBytes (ws.getD 7 []) t :: ws), w.length = 4 := by
      intro rc t ht
      have := keyWords_lengths n (i + 1) rc (xorBytes (ws.getD 7 []) t :: ws) (by simp; omega)
        (by simpa using ⟨hx t ht, h⟩)
      simpa [Nat.add_assoc, Nat.add_comm 1] using this
    rw [keyWords]
    refine key _ _ ?_
    split
    · split
      · rfl
      · exact hm
    · split
      · exact hm
      · exact hp

theorem chunks_lengths (m : Nat) (hm : 0 < m) : ∀ (n : Nat) (l : List Byte), l.length = m * n →
    (chunks m n l).length = n ∧ ∀ c ∈ chunks m n l, c.length = m
  | 0, l, _ => by simp [chunks]
  | n + 1, l, h => by
    have h1 : l ≠ [] := by intro e; subst e; have : 0 < m * (n + 1) := Nat.mul_pos hm (by omega); simp at h; omega
    have e : m * (n + 1) = m * n + m := Nat.mul_succ m n
    have := chunks_lengths m hm n (l.drop m) (by simp; omega)
    simp [chunks, h1, this.1]
    exact ⟨by omega, this.2⟩

theorem flatten_length (m : Nat) : ∀ ls : List (List Byte), (∀ l ∈ ls, l.length = m) → ls.flatten.length = m * ls.length
  | [], _ => by simp
  | a :: r, h => by
    have := flatten_length m r fun l hl => h l (by simp [hl])
    simp only [List.flatten_cons, List.length_append, this, h a (by simp), List.length_cons, Nat.mul_succ]; omega

theorem mix_length (k l : List Byte) (h : l.length = 16) : (mixColumns k l).length = 16 := by
  have hc := chunks_lengths 4 (by omega) 4 l (by omega)
  rw [mixColumns, flatten_length 4 _ (by simp [mixColumn]), List.length_map, hc.1]

theorem aes_length (key block : List Byte) (hk : key.length = 32) (hb : block.length = 16) : (aesEnc key block).length = 16 := by
  have hc := chunks_lengths 4 (by omega) 8 key (by omega)
  have hw := keyWords_lengths 52 8 1#8 ((chunks 4 8 key).reverse) (by simp [hc.1]) (by simpa using hc.2)
  have hr := chunks_lengths 16 (by omega) 15 ((keyWords 52 8 1#8 ((chunks 4 8 key).reverse)).flatten) (by
    rw [flatten_length 4 _ hw.2, hw.1]; simp [hc.1])
  have step : ∀ (ks : List (List Byte)) (st : List Byte × Nat), (∀ k ∈ ks, k.length = 16) → st.1.length = 16 →
      (ks.foldl (fun (st : List Byte × Nat) (k : List Byte) =>
        (xorBytes (if st.2 = 14 then shiftRows (st.1.map sbox) else mixColumns [2, 3, 1, 1] (shiftRows (st.1.map sbox))) k, st.2 + 1))
        st).1.length = 16 := by
    intro ks
    induction ks with
    | nil => intro st _ h; exact h
    | cons k r ih =>
      intro st h hs
      refine ih _ (fun x hx => h x (by simp [hx])) ?_
      have h1 : (shiftRows (st.1.map sbox)).length = 16 := by simp [shiftRows]
      have h2 := mix_length [2, 3, 1, 1] _ h1
      have h3 := h k (by simp)
      rw [xor_length, h3]
      split
      · rw [h1]; rfl
      · rw [h2]; rfl
  rw [aesEnc]
  have e : roundKeys key = chunks 16 15 ((keyWords 52 8 1#8 ((chunks 4 8 key).reverse)).flatten) := rfl
  rw [← e] at hr
  cases h : roundKeys key with
  | nil => simpa using hb
  | cons k0 ks =>
    rw [h] at hr
    exact step ks _ (fun k hk => hr.2 k (by simp [hk])) (by simp [xor_length, hb, hr.2 k0 (by simp)])

theorem leBytes_length : ∀ n x, (leBytes n x).length = n
  | 0, _ => rfl
  | n + 1, x => by simp [leBytes, leBytes_length n]

theorem tag_length (k : BitVec 256) (n h c : List Byte) (hn : n.length = 12) : (gcmTag (keyBytes k) n h c).length = 16 := by
  have := aes_length (keyBytes k) (n ++ [0, 0, 0, 1]) (by simp [keyBytes, leBytes_length]) (by simp [hn])
  rw [gcmTag, xor_length, this]; simp [beBytes, leBytes_length]

theorem take_of {A B : List Byte} {n : Nat} (h : A.length = n) : (A ++ B).take n = A := by simp [← h]
theorem drop_of {A B : List Byte} {n : Nat} (h : A.length = n) : (A ++ B).drop n = B := by simp [← h]
theorem sub_of {A B C : List Byte} {n k : Nat} (h : A.length = n) (h2 : B.length = k) : sub (A ++ (B ++ C)) n k = B := by
  rw [sub, drop_of h, take_of h2]

/-- What flitBytes makes is whole, in its order of fields, and authentic. -/
theorem flitBytes_fields (key : BitVec 256) (id : BitVec 32) (n : Nat) (head payload : List Byte) (hh : head.length = 8)
    (hc : (gcmStream (keyBytes key) (flitNonce id n) payload).length = 224)
    (ht : (gcmTag (keyBytes key) (flitNonce id n) head (gcmStream (keyBytes key) (flitNonce id n) payload)).length = 16) :
    let f := flitBytes key id n head payload
    f.length = 256 ∧ (crc32c (f.take 252)).toNat = fld f 252 4 ∧ f.take 8 = head ∧
    gcmTag (keyBytes key) (flitNonce id n) (f.take 8) (sub f 8 224) = sub f 232 16 := by
  intro f
  have hb : ∀ c : BitVec 32, leNat (leBytes 4 c.toNat) = c.toNat := by
    intro c; have := c.isLt; simp [leBytes, leNat]; omega
  have e : f = head ++ (gcmStream (keyBytes key) (flitNonce id n) payload ++
      (gcmTag (keyBytes key) (flitNonce id n) head (gcmStream (keyBytes key) (flitNonce id n) payload) ++ (leBytes 4 0 ++ leBytes 4
      (crc32c (head ++ gcmStream (keyBytes key) (flitNonce id n) payload ++
        gcmTag (keyBytes key) (flitNonce id n) head (gcmStream (keyBytes key) (flitNonce id n) payload) ++ leBytes 4 0)).toNat))) := by
    simp [f, flitBytes, List.append_assoc]
  have h8 : f.take 8 = head := by rw [e, take_of hh]
  have hct : sub f 8 224 = gcmStream (keyBytes key) (flitNonce id n) payload := by rw [e, sub_of hh hc]
  refine ⟨?_, ?_, h8, ?_⟩
  · rw [e]; simp [hh, hc, ht, leBytes]
  · have hl : (head ++ gcmStream (keyBytes key) (flitNonce id n) payload ++
        gcmTag (keyBytes key) (flitNonce id n) head (gcmStream (keyBytes key) (flitNonce id n) payload) ++ leBytes 4 0).length = 252 := by
      simp [hh, hc, ht, leBytes]
    have e2 : f = (head ++ gcmStream (keyBytes key) (flitNonce id n) payload ++
        gcmTag (keyBytes key) (flitNonce id n) head (gcmStream (keyBytes key) (flitNonce id n) payload) ++ leBytes 4 0) ++ leBytes 4
      (crc32c (head ++ gcmStream (keyBytes key) (flitNonce id n) payload ++
        gcmTag (keyBytes key) (flitNonce id n) head (gcmStream (keyBytes key) (flitNonce id n) payload) ++ leBytes 4 0)).toNat := rfl
    rw [e2, take_of hl, fld, sub, drop_of hl, List.take_of_length_le (by simp [leBytes]), hb]
  · rw [h8, hct, e, ← List.append_assoc, sub_of (by simp [hh, hc]) ht]

theorem zero_stream : (gcmStream (keyBytes 0) (flitNonce 0 0) (leBytes 224 0)).length = 224 := by decide +kernel

/-- A key delivery block for world 1 and tenant 15 that the tag of its key authenticates, whatever its ciphertext decapsulates to. -/
def kem : List Byte := leBytes 1568 0
def keyTag : List Byte := gcmTag (keyBytes (Config.mlkemSecret 0 kem)) (leBytes 12 0) [1, 15] (leBytes 32 0)
def keyBlock : List Byte := kem ++ (leBytes 32 0 ++ (keyTag ++ ([1, 15] ++ leBytes 46 0)))

theorem keyBlock_unwraps : ∃ k, unwrapKey 0 keyBlock = some k := by
  have hk : kem.length = 1568 := by decide +kernel
  have ht : keyTag.length = 16 := tag_length _ _ _ _ rfl
  have h1 : keyBlock.take 1568 = kem := take_of hk
  have h2 : sub keyBlock 1568 32 = leBytes 32 0 := sub_of hk rfl
  have h3 : sub keyBlock 1600 16 = keyTag := by
    rw [keyBlock, ← List.append_assoc]; exact sub_of (by simp [hk, leBytes]) ht
  have e : keyBlock = (kem ++ leBytes 32 0 ++ keyTag) ++ ([1, 15] ++ leBytes 46 0) := by simp [keyBlock, List.append_assoc]
  have h4 : sub keyBlock 1616 2 = [1, 15] := by
    rw [e]; exact sub_of (by simp [hk, ht, leBytes]) rfl
  have hd : ∀ n, keyBlock.drop (1616 + n) = ([1, 15] ++ leBytes 46 0).drop n := by
    intro n; rw [e, ← List.drop_drop, drop_of (by simp [hk, ht, leBytes])]
  have h5 : fld keyBlock 1616 1 = 1 := by rw [fld, sub, hd 0]; rfl
  have h6 : fld keyBlock 1617 1 = 15 := by rw [fld, sub, hd 1]; rfl
  have h7 : zeros keyBlock 1618 1663 = true := by rw [zeros, sub, hd 2]; rfl
  have hl : keyBlock.length = 1664 := by rw [e]; simp [hk, ht, leBytes]
  simp [unwrapKey, hl, h1, h2, h3, h4, h5, h6, h7, keyTag]

/-- A link that is up, a flit on it in order, one with another tag, and one that is damaged. -/
def linked (x : Link) : State := { st with trust := { st.trust with links := [(15, x)], members := [0] } }
def up : Link := { Link.init with up := true, replays := [8] }
def flit : List Byte := flitBytes 0 0 0 (flitHead 0 0 0 0 1 0) (leBytes 224 0)
def forged (t : Byte) : List Byte :=
  let b := flitHead 0 0 0 0 1 0 ++ leBytes 224 0 ++ List.replicate 16 t ++ leBytes 4 0
  b ++ leBytes 4 (crc32c b).toNat
def tag (f : List Byte) : List Byte := gcmTag (keyBytes 0) (flitNonce 0 0) (f.take 8) (sub f 8 224)

/-- A link that trains again, one whose flit has been replayed 8 times, and one that keeps as many flits as it may. -/
theorem test_meets_LinkAndTrustEventsComplete_links :
    (let x : Link := { up with training := true }; ((linked x).link 15).training = true) ∧
    (((linked up).link 15).up = true ∧ 8 ∈ ((linked up).link 15).replays) ∧
    ((linked { up with unacked := [leBytes 256 0] }).link 15).unacked.length ≤ 512 := by decide +kernel

/-- Whatever a message asks of the sideband, one of the clauses is about it. -/
theorem test_meets_LinkAndTrustEventsComplete_sideband (m : List Byte) :
    (∃ n, Config.sidebandReq m = .sensor n) ∨ (∃ i, Config.sidebandReq m = .update i) ∨ Config.sidebandReq m = .other := by
  cases Config.sidebandReq m <;> simp

theorem test_meets_LinkAndTrustEventsComplete_flits :
    let s := linked up
    ((s.link 15).up = true ∧ (s.link 15).training = false ∧ s.trust.members ≠ [] ∧ ∃ n ∈ (s.link 15).replays, 8 ≤ n) ∧
    (flit.length = 256 ∧ (crc32c (flit.take 252)).toNat = fld flit 252 4 ∧ fld flit 4 2 % 4096 = ((s.link 15).rxSeq + 1).toNat ∧
      tag flit = sub flit 232 16) ∧
    (∃ t, (forged t).length = 256 ∧ (crc32c ((forged t).take 252)).toNat = fld (forged t) 252 4 ∧
      fld (forged t) 4 2 % 4096 = ((s.link 15).rxSeq + 1).toNat ∧ tag (forged t) ≠ sub (forged t) 232 16) ∧
    (fld (forged 0) 4 2 % 4096 ≠ (({ up with rxSeq := 1 } : Link).rxSeq + 1).toNat ∧
      (crc32c ((leBytes 256 1).take 252)).toNat ≠ fld (leBytes 256 1) 252 4) := by
  have h := flitBytes_fields 0 0 0 (flitHead 0 0 0 0 1 0) (leBytes 224 0) (by decide) zero_stream
    (tag_length 0 (flitNonce 0 0) (flitHead 0 0 0 0 1 0) _ rfl)
  refine ⟨by decide +kernel, ⟨h.1, h.2.1, ?_, h.2.2.2⟩, ?_, by decide +kernel⟩
  · have e : fld flit 4 2 = fld (flit.take 8) 4 2 := by simp [fld, sub, List.drop_take, List.take_take]
    rw [e, flit, h.2.2.1]; decide +kernel
  · have e : tag (forged 0) = tag (forged 1) := by
      rw [tag, tag, show (forged 0).take 8 = (forged 1).take 8 by decide +kernel, show sub (forged 0) 8 224 = sub (forged 1) 8 224 by decide +kernel]
    by_cases h0 : tag (forged 0) = sub (forged 0) 232 16
    · refine ⟨1, by decide +kernel, by decide +kernel, by decide +kernel, ?_⟩
      rw [← e, h0]; decide +kernel
    · exact ⟨0, by decide +kernel, by decide +kernel, by decide +kernel, h0⟩

theorem test_meets_LinkAndTrustEventsComplete :
    (st.mg.ready = true ∧ (∀ x ∈ State.reset.gangs, x.placed = false) ∧ st.gangs.any (·.placed) = true) ∧
    (st.trust.xmss < 2 ^ 20 ∧ 2 ^ 20 ≤ ({ st.trust with xmss := 2 ^ 20 } : Trust).xmss) ∧ st.trust.keyDraw = none ∧
    unwrapKey 0 [] = none ∧ (∃ k, unwrapKey 0 keyBlock = some k) ∧ st.slotOf 1 = none ∧ st.trust.slots.length < 64 ∧
    (∀ x ∈ st.gangs, x.rec_.world ≠ (1 : Byte).toNat) ∧
    (let s := { st with trust := { st.trust with members := [0, 1], gather := some ⟨0, 0, [(0, [])]⟩ } }
     s.trust.members ≠ [] ∧ s.trust.gather = some ⟨0, 0, [(0, [])]⟩ ∧ (∀ r ∈ [(0, ([] : List Byte))], r.1 ≠ 1) ∧ 1 < s.trust.members.length) ∧
    st.trust.xmss + 16 ≤ 2 ^ 20 ∧ (∀ i < [(0 : Nat)].length, ∃ r ∈ [(0, ([] : List Byte))], r.1 = i) := by
  refine ⟨by decide +kernel, by decide +kernel, rfl, by simp [unwrapKey], keyBlock_unwraps, by decide +kernel, by decide +kernel, by decide +kernel,
    by decide +kernel, by decide +kernel, by decide +kernel⟩

/-! ### Single steps whose results the manual works out -/

/-- The writes and flags of the operation that an instruction issues. -/
def gives (s : State) (i : Instr) : Option (List (RegN × Nat) × Byte) :=
  match exec i s with
  | .next t => (t.ctx 0).pend.getLast?.map fun o => (o.wr.map fun w => (w.reg, w.val.toNat), o.flags)
  | _ => none

/-- st with s5 and s6 as given. -/
def with56 (x y : Word) : State := at_ { ctx with s := vput (vput ctx.s 5 x) 6 y }

/-- The table "Worked results" of R113. -/
theorem test_worked_integer_results : ([
  (.add 4 5 (.reg 6) .i8, 0x7F, 1, 0xFFFFFFFFFFFFFF80),
  (.add 4 5 (.reg 6) .n8, 0x7F, 1, 0x80),
  (.mulh 4 5 (.reg 6) .i64, 0xFFFFFFFFFFFFFFFF, 2, 0xFFFFFFFFFFFFFFFF),
  (.mulh 4 5 (.reg 6) .n64, 0xFFFFFFFFFFFFFFFF, 2, 1),
  (.div 4 5 (.reg 6) .i32, 0x80000000, 0xFFFFFFFF, 0xFFFFFFFF80000000),
  (.rem 4 5 (.reg 6) .i32, 0x80000000, 0xFFFFFFFF, 0),
  (.div 4 5 (.reg 6) .n32, 7, 0, 0xFFFFFFFF),
  (.rem 4 5 (.reg 6) .n32, 7, 0, 7),
  (.sar 4 5 (.reg 6) .i16, 0x8000, 20, 0xFFFFFFFFFFFFFFFF),
  (.shr 4 5 (.reg 6) .i16, 0x8000, 4, 0x800),
  (.min 4 5 (.reg 6) .i32, 0xFFFFFFFF, 1, 0xFFFFFFFFFFFFFFFF),
  (.min 4 5 (.reg 6) .n32, 0xFFFFFFFF, 1, 1)] : List (Instr × Word × Word × Nat)).all
    (fun p => gives (with56 p.2.1 p.2.2.1) p.1 = some ([(.s 4, p.2.2.2)], 0)) = true := by decide +kernel

/-- LEA.spd.x8 s6, s4, s5, with its word (R117). -/
theorem test_worked_lea : decodeTableWord 32 0x26184147 = some (.lea 6 4 (.reg 5) .spd 3) ∧
    gives (at_ { ctx with s := vput (vput ctx.s 4 0x100) 5 3 }) (.lea 6 4 (.reg 5) .spd 3) =
      some ([(.s 6, 0x1000000000000118)], 0) := by decide +kernel

/-- PANY and PALL of 0x04 (R123). -/
theorem test_votes : (let s := at_ { ctx with p := vput ctx.p 7 0x04 }
    gives s (.pany 3 7) = some ([(.p 3, 0xFF)], 0) ∧ gives s (.pall 3 7) = some ([(.p 3, 0)], 0)) := by decide +kernel

/-- FCVT.f2.f32 of 0x3E99999A gives 0x2A and NX (R133). -/
theorem test_worked_fcvt : decodeTableWord 32 0x8C105288 = some (.fcvt 4 5 false .fp32 (.narrow 2) .rne) ∧
    gives (at_ { ctx with s := vput ctx.s 5 0x3E99999A, f := vput ctx.f 2 0x07000743 }) (.fcvt 4 5 false .fp32 (.narrow 2) .rne) =
      some ([(.s 4, 0x2A)], flagNX) := by decide +kernel

/-- FCVTI.i8.f32.rtz of 200.7, and ICVTF.f32.i64 of 2^24 + 1 (R134). -/
theorem test_worked_conversions :
    gives (with56 0x4348B333 0) (.fcvti 4 5 .i8 .fp32 .rtz) = some ([(.s 4, 0x7F)], flagNV) ∧
    gives (with56 0x1000001 0) (.icvtf 4 5 .i64 .fp32 .rne) = some ([(.s 4, 0x4B800000)], flagNX) := by decide +kernel

/-- The codes of f2 = 0x07000743, and values rounded into it (R97, R98). -/
theorem test_worked_narrow_codes :
    (([(0, 0), (1, 0x3C100000), (0x38, 0x3F800000), (0x7F, 0x43F00000), (0x80, 0xBC000000), (0xFE, 0xC3E00000), (0xFF, 0x7FC00000)] :
      List (Nat × Nat)).all fun p => (convert (.narrow 0x07000743) (.ieee fp32) .rne none p.1).1 = p.2) = true ∧
    (([(0x3F800000, 0x38, 0), (0x3E99999A, 0x2A, flagNX), (0x43EB0000, 0x7F, flagNX), (0x43E80000, 0x7E, flagNX),
      (0x43FA0000, 0x7F, flagOF ||| flagNX ||| flagSA)] :
      List (Nat × Nat × Byte)).all fun p => convert (.ieee fp32) (.narrow 0x07000743) .rne none p.1 = p.2) = true := by decide +kernel

/-- The NaN conversions of R133 and the stochastic conversions of R103. -/
theorem test_worked_nans_and_draws :
    convert (.ieee fp32) (.ieee bf16) .rne none 0xFF800001 = (0xFFC0, flagNV) ∧
    convert (.ieee fp32) (.ieee fp16) .rne none 0x7FC01234 = (0x7E00, 0) ∧
    convert (.ieee fp32) (.ieee fp64) .rne none 0x7FC01234 = (0x7FF8024680000000, 0) ∧
    convert (.ieee fp32) (.ieee bf16) .rne (some 0x3000) 0x3F804000 = (0x3F81, flagNX) ∧
    convert (.ieee fp32) (.ieee bf16) .rne (some 0x8000) 0x3F804000 = (0x3F80, flagNX) := by decide +kernel

/-- The two worked blocks of the matrix array (R166). -/
theorem test_worked_blocks :
    (let t := Fmt.val (.ieee bf16) 0x3980
     let b := blockSum [pairTerm t t true true, pairTerm t t true true] 0x7F 0x7F
     b.2 = false ∧ accStep .f32 0x3F800000 b.1 = (0x3F800001, 0)) ∧
    (let v := narrowDecode 0x07000743
     let b := blockSum [pairTerm (v 0x38) (v 0x38) true true, pairTerm (v 0x38) (v 0x80) true true,
       pairTerm (v 0x7F) (v 0xFF) true false] 0x7F 0x86
     b.2 = false ∧ accStep .f32 0x3F000000 b.1 = (0x42FF0000, 0)) := by decide +kernel

/-- ve_exp2(0.5) and ve_exp2(3.0) (R171). -/
theorem test_worked_ve_exp2 : (veExp2 0x3F000000).1 = 0x3FB504F3 ∧ (veExp2 0x40400000).1 = 0x41000000 := by decide +kernel

/-- Homes of two addresses of one line (R111). -/
theorem test_worked_home : homeSlice 0x12C00 = 75 ∧ homeSlice 0x12FFF = 75 := by decide +kernel

/-- The bundle worked to the bit, its bytes, its load under p3, and the class mismatch under MASK 0x32. -/
theorem test_worked_bundle :
    (let bs : List Byte := [0xF8, 0x03, 0x83, 0x2A, 0x90, 0x51, 0x10, 0x10, 0x40, 0x80, 0x1C, 0x56, 0xA8, 0xAF, 0x24, 0x80]
     let b := decodeBundle bs
     b.instrs = [.add 4 5 (.reg 6) .i32, .ldN32 7 8 4 .unp, .fadd 9 10 .bimm .fp32 .rne] ∧
     b.hdr.stop = true ∧ b.hdr.gn = false ∧ b.hdr.gp = 3 ∧ b.hdr.bimm = 0x3F8 ∧ firstIllegal b = none ∧
     (firstIllegal (decodeBundle (bs.set 3 0x32))).map (fun x => (x.1, x.2.code)) = some (4, 2)) := by decide +kernel

/-- The check value of CRC-32C, of the digits 1 to 9. -/
theorem test_crc32c : crc32c [0x31, 0x32, 0x33, 0x34, 0x35, 0x36, 0x37, 0x38, 0x39] = 0xE3069283 := by decide +kernel

/-- Words that no map row accepts: an undefined operation, a reserved bit, a condition. -/
theorem test_refused_words : ([0x0D000000, 0x0A000001, 0x27746FBF] : List Nat).all
    (fun w => decodeTableWord 32 w = none) = true := by decide +kernel

/-- The store of the stack-limit example: [s2-16] is allowed, [s2-40] takes the stop and stores nothing (R203). -/
theorem test_worked_stack_limit :
    (let s := at_ { ctx with s := vput (vput ctx.s 2 0x3000000000000040) 20 0x1234, slim := 0x3000000000000020 }
     let g := fun off => match exec (.st64 20 2 off .unp) s with | .next t => some (t.iss.faults.isEmpty) | _ => none
     g 0xFE = some true ∧ g 0xFB = some false) := by decide +kernel

end Sys2Proof.Tests
end

/-! SUPPORT. Integers of a type as the words that hold them (R105), the fields, counts and packed bytes of a word (R115,
R116, R118, R124), and what a scalar syllable that issues leaves (R19, R112): one more operation in progress. -/

namespace Sys2Proof.Proofs
open Sys2Proof Sys2Proof.Machine Sys2Proof.Claims

/-! ### Words of an integer type (R105) -/

theorem tyWidth_le (t : ITy) : tyWidth t ≤ 64 := by cases t <;> decide

theorem tyWidth_pos (t : ITy) : 0 < tyWidth t := by cases t <;> decide

/-- The integer of a word stands for the word's own n-bit pattern. -/
@[simp] theorem ofInt_tyInt (t : ITy) (x : Word) : BitVec.ofInt (tyWidth t) (tyInt t x) = x.truncate (tyWidth t) := by
  have hpat : BitVec.ofNat (tyWidth t) x.toNat = x.truncate (tyWidth t) := BitVec.ofNat_toNat ..
  unfold tyInt
  split
  · rw [BitVec.ofInt_toInt, hpat]
  · rw [BitVec.ofInt_natCast, BitVec.ofNat_toNat, BitVec.setWidth_eq, hpat]

/-- tyPut is the extension of the wrapped integer. -/
theorem extends_tyPut (t : ITy) (z : Int) : Extends t (BitVec.ofInt (tyWidth t) z) (tyPut t z) := rfl

/-- The low bits of an extension are what was extended. -/
@[simp] theorem truncate_tyPut (t : ITy) (z : Int) :
    (tyPut t z).truncate (tyWidth t) = BitVec.ofInt (tyWidth t) z := by
  unfold tyPut
  ext i hi
  have h64 : i < 64 := Nat.lt_of_lt_of_le hi (tyWidth_le t)
  rw [BitVec.truncate_eq_setWidth, BitVec.getElem_setWidth]
  split
  · rw [BitVec.getLsbD_signExtend, if_pos hi, BitVec.getLsbD_eq_getElem hi, decide_eq_true h64, Bool.true_and]
  · rw [BitVec.getLsbD_setWidth, BitVec.getLsbD_eq_getElem hi, decide_eq_true h64, Bool.true_and]

/-- Integers with one wrapped pattern have one extension. -/
theorem tyPut_congr {t : ITy} {y z : Int} (h : BitVec.ofInt (tyWidth t) y = BitVec.ofInt (tyWidth t) z) :
    tyPut t y = tyPut t z := by
  unfold tyPut
  rw [h]

/-- ext(wrap(z, t), t) is wrapped from z (R105, R109). -/
theorem wraps_tyPut (t : ITy) (z : Int) : Wraps t z (tyPut t z) := by
  have hpat : BitVec.ofInt (tyWidth t) (tyInt t (tyPut t z)) = BitVec.ofInt (tyWidth t) z := by simp
  refine ⟨tyPut_congr hpat, ?_⟩
  have hmod := congrArg BitVec.toInt hpat
  rw [BitVec.toInt_ofInt, BitVec.toInt_ofInt] at hmod
  have hdvd := Int.bmod_eq_bmod_iff_bmod_sub_eq_zero.1 hmod
  exact_mod_cast Int.emod_eq_zero_of_dvd (Int.dvd_of_bmod_eq_zero hdvd)

/-- Extending the integer of a word extends the word's n-bit pattern. -/
theorem extends_tyInt (t : ITy) (x : Word) : Extends t (x.truncate _) (tyPut t (tyInt t x)) := by
  simpa using extends_tyPut t (tyInt t x)

/-- The bits of the n-bit pattern of a word are its low bits. -/
theorem testBit_tyPat {t : ITy} {i : Nat} (x : Word) (h : i < tyWidth t) : (tyPat t x).testBit i = x.getLsbD i := by
  simp [tyPat, Nat.testBit_mod_two_pow, h, BitVec.getLsbD]

/-! ### Leading zeros (R115) -/

/-- The number of leading zeros of an n-bit pattern, as CLZ computes it. -/
def leadingZeros (n m : Nat) : Nat := n - (if m = 0 then 0 else m.log2 + 1)

theorem leadingZeros_le (n m : Nat) : leadingZeros n m ≤ n := Nat.sub_le ..

theorem testBit_of_lt_leadingZeros {n m j : Nat} (h : j < leadingZeros n m) : m.testBit (n - 1 - j) = false := by
  unfold leadingZeros at h
  split at h
  next h0 => simp [h0]
  next =>
    refine Nat.testBit_lt_two_pow (Nat.lt_of_lt_of_le Nat.lt_log2_self ?_)
    exact Nat.pow_le_pow_right (by decide) (by omega)

theorem testBit_leadingZeros {n m : Nat} (hm : m < 2 ^ n) (h : leadingZeros n m < n) :
    m.testBit (n - 1 - leadingZeros n m) = true := by
  unfold leadingZeros at h ⊢
  split at h
  next h0 => simp at h
  next h0 =>
    have hlog : m.log2 < n := (Nat.log2_lt h0).2 hm
    rw [if_neg h0, show n - 1 - (n - (m.log2 + 1)) = m.log2 by omega]
    exact Nat.testBit_log2 h0

/-! ### Fields of a word (R114, R116, R117) -/

/-- Bits 5:0 of a 6-bit count are the count. -/
theorem bits_zeroExtend (c : BitVec 6) : bits (c.zeroExtend 64) 5 0 = c.toNat := by
  simp [bits, Nat.mod_eq_of_lt c.isLt]

/-- The two fields of EXT as a record keeps them. -/
theorem toNat_append_fields (l p : BitVec 6) : ((l ++ p).zeroExtend 64).toNat = l.toNat * 64 + p.toNat := by
  have hl := l.isLt
  have hp := p.isLt
  rw [BitVec.zeroExtend_eq_setWidth, BitVec.toNat_setWidth, BitVec.toNat_append, ← Nat.shiftLeft_add_eq_or_of_lt hp,
    Nat.shiftLeft_eq]
  omega

theorem bits_low_append (l p : BitVec 6) : bits ((l ++ p).zeroExtend 64) 5 0 = p.toNat := by
  have hp := p.isLt
  rw [bits, toNat_append_fields]
  omega

theorem bits_high_append (l p : BitVec 6) : bits ((l ++ p).zeroExtend 64) 11 6 = l.toNat := by
  have hl := l.isLt
  have hp := p.isLt
  rw [bits, toNat_append_fields]
  omega

theorem getLsbD_fieldMask (n j : Nat) : (fieldMask n).getLsbD j = (decide (j < 64) && decide (j ≤ n)) := by
  simp only [fieldMask, BitVec.getLsbD_ofNat, Nat.testBit_two_pow_sub_one, Nat.lt_succ_iff]

/-- Shifting down and masking extracts a field. -/
theorem shiftRight_and_fieldMask (x : Word) (p n : Nat) :
    (x >>> p) &&& fieldMask n = (x.extractLsb' p (n + 1)).zeroExtend 64 := by
  ext j hj
  simp only [← BitVec.getLsbD_eq_getElem hj, BitVec.getLsbD_and, BitVec.getLsbD_ushiftRight, getLsbD_fieldMask,
    BitVec.getLsbD_setWidth, BitVec.getLsbD_extractLsb', Nat.lt_succ_iff]
  cases x.getLsbD (p + j) <;> simp

/-- MOVH moves 52 bits up and fills in the immediate. -/
theorem shiftLeft_or_zeroExtend (x : Word) (i : BitVec 12) :
    (x <<< 12) ||| i.zeroExtend 64 = x.extractLsb' 0 52 ++ i := by
  ext j hj
  rw [BitVec.getElem_append, BitVec.getElem_or, BitVec.getElem_shiftLeft, BitVec.zeroExtend_eq_setWidth,
    BitVec.getElem_setWidth]
  split
  next h => simp [h]
  next h =>
    have h64 : j - 12 < 64 := by omega
    simp [h, BitVec.getLsbD_of_ge i j (Nat.le_of_not_lt h), BitVec.getLsbD_eq_getElem h64]

/-- The word that INS makes of the old value and the field. -/
theorem getLsbD_insert (x y : Word) (n p : Nat) {j : Nat} (hj : j < 64) :
    ((x &&& ~~~ (fieldMask n <<< p)) ||| ((y &&& fieldMask n) <<< p)).getLsbD j =
      if p ≤ j ∧ j ≤ p + n then y.getLsbD (j - p) else x.getLsbD j := by
  have h64 : j - p < 64 := by omega
  simp only [BitVec.getLsbD_or, BitVec.getLsbD_and, BitVec.getLsbD_not, BitVec.getLsbD_shiftLeft, getLsbD_fieldMask,
    hj, h64]
  by_cases hp : p ≤ j
  · by_cases hn : j ≤ p + n
    · have hfield : j - p ≤ n := by omega
      simp [hp, hn, hfield, Nat.not_lt_of_le hp]
    · have hfield : ¬ j - p ≤ n := by omega
      simp [hn, hfield]
  · simp [hp, Nat.lt_of_not_le hp]

/-! ### A pointer (R118) -/

/-- LEA's word is the space tag above the 60-bit sum. -/
theorem tag_or_sum (tag : Nat) (z : Word) :
    BitVec.ofNat 64 (tag * 2 ^ 60) ||| (z &&& 0x0FFFFFFFFFFFFFFF#64) = BitVec.ofNat 4 tag ++ z.extractLsb' 0 60 := by
  have hmask : 0x0FFFFFFFFFFFFFFF#64 = BitVec.ofNat 64 (2 ^ 60 - 1) := rfl
  ext j hj
  rw [BitVec.getElem_append, ← BitVec.getLsbD_eq_getElem hj, hmask, BitVec.getLsbD_or, BitVec.getLsbD_and,
    BitVec.getLsbD_ofNat, BitVec.getLsbD_ofNat, Nat.testBit_mul_two_pow, Nat.testBit_two_pow_sub_one]
  split
  next h => simp [h, hj, Nat.not_le_of_lt h]
  next h =>
    have h4 : j - 60 < 4 := by omega
    rw [← BitVec.getLsbD_eq_getElem h4, BitVec.getLsbD_ofNat]
    simp [h, hj, h4, Nat.le_of_not_lt h]

/-! ### Packed bytes (R124) -/

/-- Byte i of the number that bytes make, lowest first. -/
theorem leNat_byte {bs : List Byte} {i : Nat} (h : i < bs.length) : leNat bs / 2 ^ (8 * i) % 2 ^ 8 = bs[i].toNat := by
  induction bs generalizing i with
  | nil => simp at h
  | cons b r ih =>
    have hb := b.isLt
    cases i with
    | zero => simp [leNat]; omega
    | succ i =>
      have hdiv : (b.toNat + 256 * leNat r) / 256 = leNat r := by omega
      have hpow : 2 ^ (8 * (i + 1)) = 256 * 2 ^ (8 * i) := by rw [Nat.mul_succ, Nat.pow_add, Nat.mul_comm]
      rw [hpow, ← Nat.div_div_eq_div_mul, leNat, hdiv]
      exact ih (by simpa using h)

/-- n bytes make a number of 8n bits. -/
theorem leNat_lt (bs : List Byte) : leNat bs < 2 ^ (8 * bs.length) := by
  induction bs with
  | nil => decide
  | cons b r ih =>
    have hb := b.isLt
    rw [List.length_cons, Nat.mul_add, Nat.pow_add, leNat]
    omega

/-- Byte i of a word made of at most eight bytes, lowest first. -/
theorem extractLsb'_leWord {bs : List Byte} {i : Nat} (h : i < bs.length) (h8 : bs.length ≤ 8) :
    (leWord bs).extractLsb' (8 * i) 8 = bs[i] := by
  have hlt : leNat bs < 2 ^ 64 :=
    Nat.lt_of_lt_of_le (leNat_lt bs) (Nat.pow_le_pow_right (by decide) (by omega))
  apply BitVec.eq_of_toNat_eq
  rw [BitVec.extractLsb'_toNat, leWord, BitVec.toNat_ofNat, Nat.mod_eq_of_lt hlt, Nat.shiftRight_eq_div_pow,
    leNat_byte h]

section
variable {s : State} {d a : Reg} {n : Nat} {v x y : Word} {f : RecForm}

/-! ### Operands outside a reissue -/

theorem opImm_none (hov : s.iss.ov = none) (i : Word) : s.opImm i = i := by
  simp [State.opImm, hov]

theorem opB_reg (hov : s.iss.ov = none) (r : Reg) : s.opB (.reg r) = s.srcS r 1 := by
  simp [State.opB, hov]

theorem opB_bimm (hov : s.iss.ov = none) : s.opB .bimm = s.bimmI := by
  simp [State.opB, hov]

/-! ### Issuing -/

theorem emit_eq_withOp (hi : Issues s) (o : Op) : s.emit o = withOp s o := State.emit_issue hi

/-- A result that the stack limit does not concern (R203) is one more operation in progress. -/
theorem emitA_eq_withOp (hi : Issues s) (hu : Unlimited s d) :
    s.emitA d v n f x y = withOp s (s.op n [wrS d v] 0 f) :=
  (State.emitA_unlimited hu).trans (emit_eq_withOp hi _)

theorem oneOp_eq_withOp (hi : Issues s) (hu : Unlimited s d) (g : Word → Word) :
    s.oneOp d a n g = withOp s (s.op n [wrS d (g (s.opA a))] 0 (.recorded (s.opA a) 0 false)) :=
  emitA_eq_withOp hi hu

theorem immOp_eq_withOp (hi : Issues s) (hov : s.iss.ov = none) (hu : Unlimited s d) (i : Word)
    (g : Word → Word → Word) :
    s.immOp d a i g = withOp s (s.op 1 [wrS d (g (s.opA a) i)] 0 (.recorded (s.opA a) i false)) := by
  rw [State.immOp, opImm_none hov]
  exact emitA_eq_withOp hi hu

theorem emitValue_eq_withOp (hi : Issues s) (hu : Unlimited s d) (hov : s.iss.ov = none) :
    s.emitValue d v = withOp s (s.op 1 [wrS d v] 0 .completed) := by
  rw [State.emitValue, hov]
  exact emitA_eq_withOp hi hu

end

/-! ### Meanings, row by row -/

/-- A row of the RI operations issues its function of sA and the immediate (R114, R116, R117). -/
theorem exec_immRow {i : Instr} {d a : Reg} {y : Word} {f : Word → Word} (h : immRow i = some (d, a, y, f))
    (s : State) :
    ∃ g : Word → Word → Word, exec i s = .next (s.immOp d a y g) ∧ ∀ x, g x y = f x := by
  unfold immRow at h
  split at h <;> cases h
  -- ADD, AND, OR and XOR, then the shifts, whose record holds the count, then MOVH and EXT.
  case h_1 | h_2 | h_3 | h_4 => exact ⟨_, rfl, fun _ => rfl⟩
  case h_5 | h_6 | h_7 => exact ⟨_, rfl, fun x => by simp only [bits_zeroExtend]⟩
  case h_8 => exact ⟨_, rfl, fun x => shiftLeft_or_zeroExtend x _⟩
  case h_9 => exact ⟨_, rfl, fun x => by simp only [bits_low_append, bits_high_append, shiftRight_and_fieldMask]⟩

theorem exec_sel (d a p : Reg) (b : Src) {s : State} (hov : s.iss.ov = none) :
    exec (.sel d a b p) s =
      .next (s.emitValue d (if (s.srcP p 2).getLsbD 0 then s.srcS a 0 else s.opB b)) := by
  cases b with
  | reg r => rw [opB_reg hov]; rfl
  | bimm => rw [opB_bimm hov]; rfl

/-- What INS issues is the field of sA put into sD (R116). -/
theorem exec_ins (d a : Reg) (l q : BitVec 6) (s : State) :
    ∃ v, InsResult s d a l q v ∧ exec (.ins d a l q) s = .next (s.emitValue d v) :=
  ⟨_, fun _ hj => getLsbD_insert _ _ _ _ hj, rfl⟩

/-- What CLZ issues counts the zeros of the n-bit pattern of sA above its highest one (R115). -/
theorem exec_clz (d a : Reg) (t : ITy) (s : State) :
    ∃ k ≤ tyWidth t, (∀ j < k, (s.opA a).getLsbD (tyWidth t - 1 - j) = false) ∧
      (k < tyWidth t → (s.opA a).getLsbD (tyWidth t - 1 - k) = true) ∧
      exec (.clz d a t) s =
        .next (s.emitA d (BitVec.ofNat 64 k) 1 (.recorded (s.opA a) 0 false) (s.opA a) 0) := by
  have hbit (j : Nat) : (s.opA a).getLsbD (tyWidth t - 1 - j) = (tyPat t (s.opA a)).testBit (tyWidth t - 1 - j) :=
    (testBit_tyPat _ (by have := tyWidth_pos t; omega)).symm
  simp only [hbit]
  have hpat : tyPat t (s.opA a) < 2 ^ tyWidth t := Nat.mod_lt _ (Nat.two_pow_pos _)
  exact ⟨leadingZeros (tyWidth t) (tyPat t (s.opA a)), leadingZeros_le .., fun _ => testBit_of_lt_leadingZeros,
    testBit_leadingZeros hpat, rfl⟩

theorem exec_popc (d a : Reg) (t : ITy) (s : State) : exec (.popc d a t) s =
    .next (s.oneOp d a 1 fun x => BitVec.ofNat 64 ((List.range (tyWidth t)).countP x.getLsbD)) := by
  simp only [List.countP_eq_length_filter]
  rfl

theorem exec_icvt (d a : Reg) (t st : ITy) (s : State) : exec (.icvt d a t st) s =
    .next (s.oneOp d a 3 fun x => tyPut t (tyInt st x)) := rfl

theorem exec_mov (d : Reg) (b : Src) (t : ITy) (s : State) : exec (.mov d b t) s =
    .next (s.emitA d (tyPut t (tyInt t (s.opB b))) 1 (.recorded 0 (s.opB b) false) 0 (s.opB b)) := rfl

/-- Settles O3: each row issues one operation, and its value is the row's by the laws of fields, counts and wrapped
words. -/
theorem immediatesCountsAndConversionsComplete : Obligations.ImmediatesCountsAndConversionsComplete := by
  refine ⟨⟨?_, ?_⟩, ?_⟩
  · intro i d a y f s hrow hi hov hu
    obtain ⟨g, hexec, hg⟩ := exec_immRow hrow s
    rw [hexec, immOp_eq_withOp hi hov hu, hg]
  · intro d a p b l q s hi hov hu
    obtain ⟨v, hv, hins⟩ := exec_ins d a l q s
    rw [exec_sel d a p b hov, emitValue_eq_withOp hi hu hov]
    exact ⟨rfl, v, hv, by rw [hins, emitValue_eq_withOp hi hu hov]⟩
  · intro d a b t st s hi hu
    obtain ⟨k, hle, hzeros, hone, hclz⟩ := exec_clz d a t s
    refine ⟨⟨k, hle, hzeros, hone, ?_⟩, ?_, ⟨_, wraps_tyPut t (tyInt st (s.opA a)), ?_⟩,
      ⟨_, extends_tyInt t (s.opB b), ?_⟩⟩
    · rw [hclz, emitA_eq_withOp hi hu]
    · rw [exec_popc, oneOp_eq_withOp hi hu]
    · rw [exec_icvt, oneOp_eq_withOp hi hu]
    · rw [exec_mov, emitA_eq_withOp hi hu]

/-! ### Addresses, control registers and packed predicates -/

/-- What LEA issues has the space tag above the 60-bit sum (R118). -/
theorem exec_lea (d a : Reg) (b : Src) (sp : Space) (sh : BitVec 2) (s : State) :
    ∃ v : Word, v.extractLsb' 60 4 = BitVec.ofNat 4 (spaceTag sp) ∧
      v.extractLsb' 0 60 = (s.opA a + s.opB b * BitVec.ofNat 64 (2 ^ sh.toNat)).extractLsb' 0 60 ∧
      exec (.lea d a b sp sh) s =
        .next (s.emitA d v 1 (.recorded (s.opA a) (s.opB b) false) (s.opA a) (s.opB b)) := by
  have hshift : s.opB b * BitVec.ofNat 64 (2 ^ sh.toNat) = s.opB b <<< sh.toNat := by
    apply BitVec.eq_of_toNat_eq
    simp [Nat.shiftLeft_eq]
  have hword := tag_or_sum (spaceTag sp) (s.opA a + s.opB b <<< sh.toNat)
  rw [hshift]
  refine ⟨_, ?_, ?_, rfl⟩
  · exact (congrArg _ hword).trans BitVec.extractLsb'_append_eq_left
  · exact (congrArg _ hword).trans BitVec.extractLsb'_append_eq_right

theorem exec_mfc (d : Reg) (r : CReg) {s : State} (hov : s.iss.ov = none) : exec (.mfc d r) s =
    .next (s.emitA d (s.me.creg r) 2 (.recorded (s.me.creg r) 0 false) (s.me.creg r) 0) := by
  show execMfc d r s = _
  rw [execMfc, hov]

theorem exec_ppack (d a : Reg) {s : State} (hov : s.iss.ov = none) : exec (.ppack d a) s =
    .next (s.emitA d (s.packed a) 1 (.recorded (s.packed a) 0 false) (s.packed a) 0) := by
  show execPpack d a s = _
  rw [execPpack, hov]

theorem packResult_packed (s : State) (a : Reg) : PackResult s a (s.packed a) := by
  intro i hi
  rw [State.packed, extractLsb'_leWord (by simpa using hi) (by simp), List.getElem_map, List.getElem_range]

/-- Settles O4: LEA's word is its tag appended to its sum, and PPACK's word is its bytes. -/
theorem addressesAndReadsOfControlState : Obligations.AddressesAndReadsOfControlState := by
  intro d a b sp sh r s hi hu
  obtain ⟨v, htag, hsum, hlea⟩ := exec_lea d a b sp sh s
  refine ⟨⟨v, htag, hsum, ?_⟩, fun hov => ?_, fun hov => ⟨_, packResult_packed s a, ?_⟩⟩
  · rw [hlea, emitA_eq_withOp hi hu]
  · rw [exec_mfc d r hov, emitA_eq_withOp hi hu]
  · rw [exec_ppack d a hov, emitA_eq_withOp hi hu]

/-! ### Predicates (R121 to R124) -/

/-- A predicate row issues its one predicate, recorded with the captured words (R112). -/
theorem exec_predRow {i : Instr} {d : Reg} {n : Nat} {x y : Word} {v : Byte} {s : State}
    (h : predRow s i = some (d, n, x, y, v)) :
    exec i s = .next (s.emit (s.op n [wrP d v] 0 (.recorded x y false))) := by
  unfold predRow at h
  split at h <;> cases h
  case h_1 c => cases c <;> rfl
  all_goals rfl

theorem exec_punpk (d a : Reg) (s : State) : exec (.punpk d a) s = .next (s.emit (s.op 1
    ((List.range 8).map fun i => Wr.mk (.p (d.toNat + i)) (((s.opA a).extractLsb' (8 * i) 8).zeroExtend 256)) 0
    (.recorded (s.opA a) 0 false))) := by
  have hbyte (x : Word) (k : Nat) : x.extractLsb' k 8 = BitVec.ofNat 8 (x.toNat / 2 ^ k) := by
    rw [BitVec.extractLsb', Nat.shiftRight_eq_div_pow]
  simp only [hbyte]
  rfl

theorem flagP_decide (p : Prop) [Decidable p] : flagP (decide p) = if p then 0xFF else 0x00 := by
  simp [flagP]

theorem exec_pany (d a : Reg) (s : State) : exec (.pany d a) s =
    .next (s.emit (s.op 2 [wrP d (if s.opPA a = 0 then 0x00 else 0xFF)] 0
      (.recorded ((s.opPA a).zeroExtend 64) 0 false))) := by
  rw [← ite_not, ← flagP_decide]
  rfl

theorem exec_pall (d a : Reg) (s : State) : exec (.pall d a) s =
    .next (s.emit (s.op 2 [wrP d (if s.opPA a = 0xFF then 0xFF else 0x00)] 0
      (.recorded ((s.opPA a).zeroExtend 64) 0 false))) := by
  rw [← flagP_decide]
  rfl

/-- Settles O5: no predicate operation writes a scalar register, so each of them issues as it is. -/
theorem predicateOperationsWriteTheirPredicates : Obligations.PredicateOperationsWriteTheirPredicates := by
  refine ⟨fun i d n x y v s hrow hi => ?_, fun d a s hi => ⟨?_, ?_, ?_⟩⟩
  · rw [exec_predRow hrow, emit_eq_withOp hi]
  · rw [exec_punpk, emit_eq_withOp hi]
  · rw [exec_pany, emit_eq_withOp hi]
  · rw [exec_pall, emit_eq_withOp hi]

end Sys2Proof.Proofs
